-- ==== Sys2Proof/Word.lean ====
section
/-! DEFINITION. The word types of the block: bytes, register words, table words, and the two sparse containers
(maps keyed by a number, and byte memories). Everything computed on them stands in Machine/, where it can be mended. -/
namespace Sys2Proof

/-- One byte of a message, a record or a memory. -/
abbrev Byte := BitVec 8

/-- A direct register of BAR0 (R15: 32 bits, little-endian). -/
abbrev Reg := BitVec 32

/-- A table SRAM word or a microword (R102, R245: 128 bits). -/
abbrev Word128 := BitVec 128

/-- A map with numeric keys in one canonical form: keys strictly rising, one entry a key. -/
abbrev SMap (α : Type) := List (Nat × α)

/-- A byte memory: a list of cells in the same canonical form, and no cell equal to what an unlisted address reads as. -/
abbrev Memory := SMap Byte

end Sys2Proof
end

