-- ==== Sys2Proof/Machine/StBoot.lean ====
section
/-! DEFINITION. What a start reads from outside the block: boot images, self-tests, playbill copies and fuses (R361–R363, R499, R520). -/
namespace Sys2Proof.Machine

/-- A boot image as its header shows it and its checks find it (R361–R364). `vendorOk` says VENDOR_SIG and BODY_HASH verify,
`ownerOk` that OWNER_SIG verifies, `ownerHash` is SHA-384 of OWNER_PUB, `measure` SHA-384 of header and body. -/
structure Image where
  magicOk : Bool
  kind : Nat
  svn : Nat
  version : Nat
  build : Nat
  vendorOk : Bool
  ownerOk : Bool
  ownerHash : Nat
  measure : Nat
  deriving DecidableEq, Repr

/-- What a start finds (R363, R499, R512, R520): the image in each flash slot (none: nothing with a header answers), whether each
complex passes its self-test, the two playbill copies as read (none: no answer), and each die's fused AVS_MIN and AVS_MAX in mV, dies in
the order of R515. -/
structure BootInput where
  rootA : Option Image
  rootB : Option Image
  serviceA : Option Image
  serviceB : Option Image
  selfTest0 : Bool
  selfTest1 : Bool
  playA : Option (List Byte)
  playB : Option (List Byte)
  avs : List (Nat × Nat)
  deriving DecidableEq, Repr

end Sys2Proof.Machine
end

