-- ==== Sys2Proof/Machine/StMem.lean ====
section
/-! DEFINITION. The state of external memory (chapter 11). -/
namespace Sys2Proof.Machine

/-- What a module's SPD hub says (R326, R327): capacity in GiB (JEDEC), ranks, device width, rated speed in MT/s, RDIMM and 3DS kind
supported, every SPD block's CRC right, partial-array segments (0: not advertised), serial number. -/
structure Dimm where
  capacity : Nat
  ranks : Nat
  width : Nat
  speed : Nat
  supported : Bool
  crcOk : Bool
  segments : Nat
  serial : Nat
  deriving DecidableEq, Repr

/-- A channel (R339, R342–R344): 0 untrained, 1 TRAINED, 2 ZEROING, 3 READY, 4 LOST; active timing set; ranks at 2× refresh as a map;
temperature in °C; sub-channel replays of the window in progress, and a reset that is due; ranks in self-refresh; refreshes since the last
eye step per rank. -/
structure Channel where
  state : Nat
  dimm : Option Dimm
  setB : Bool
  hot : Nat
  temp : Int
  replays : SMap Nat
  resetDue : Bool
  selfRefresh : Nat
  refreshes : SMap Nat
  deriving DecidableEq, Repr

/-- A channel nothing has read. -/
def Channel.reset : Channel :=
  { state := 0, dimm := none, setB := false, hot := 0, temp := 0, replays := [], resetDue := false, selfRefresh := 0, refreshes := [] }

/-- A share (R332, R345): space in GiB, bandwidth in 0.1 GB/s, bytes held, tokens of its meter in 1/43,253,760 bytes (a tick of 1 unit of
bandwidth at SCALE 1) and the tick of the last refill, and its counters: bytes read and written, MEM_SUSPENDED. -/
structure Share where
  space : Nat
  bw : Nat
  held : Nat
  tokens : Nat
  last : Nat
  read : Nat
  written : Nat
  refused : Nat
  deriving DecidableEq, Repr

/-- A stage's share nobody has given. -/
def Share.reset : Share := { space := 0, bw := 0, held := 0, tokens := 0, last := 0, read := 0, written := 0, refused := 0 }

/-- External memory. -/
structure MemSt where
  channels : SMap Channel
  /-- Region sizes in GiB: BACKING, SPILL, FLOW, CAPTURE (R330). -/
  backing : Nat
  spill : Nat
  flow : Nat
  capture : Nat
  /-- Shares keyed stage × 8 + region (2 SPILL, 3 FLOW, 4 CAPTURE). -/
  shares : SMap Share
  /-- MEM.CONFIG (R341, R343, R344): speeds as DCLK dividers 3–6, 0 for RUN_SPEED's default; efficiencies in hundredths. -/
  runSpeed : Nat
  leanSpeed : Nat
  speedFloor : Nat
  leanMem : Nat
  eff1 : Nat
  eff2 : Nat
  retrainEvery : Nat
  rowCeLimit : Nat
  /-- The divider in force; a step in progress (target, cause, started) and one queued; the thermal step-down. -/
  speed : Nat
  step : Option (Nat × Nat × Nat)
  queued : Option (Nat × Nat)
  /-- SCALE, and FLOW and CAPTURE suspended (R347). -/
  scale : Nat
  flowOff : Bool
  captureOff : Bool
  pinned : Option Nat
  /-- Ticks of a row's corrected errors within 24 h (R337), rows repaired, and channels lost before this LOAD (R336). -/
  rows : SMap (List Nat)
  repaired : List Nat
  failed : List Nat
  /-- Bursts written, keyed channel × 2 + sub-channel (R351; the other counters are events of the control die). -/
  written : SMap Nat
  deriving DecidableEq, Repr

/-- External memory after reset: untrained, the defaults of R330, R340, R341, R337; speed DDR5-8800 until the modules are read. -/
def MemSt.reset : MemSt :=
  { channels := [], backing := 64, spill := 0, flow := 0, capture := 0, shares := [], runSpeed := 0, leanSpeed := 5, speedFloor := 6,
    leanMem := 0, eff1 := 78, eff2 := 72, retrainEvery := 256, rowCeLimit := 16, speed := 3, step := none, queued := none,
    scale := 65536, flowOff := false, captureOff := false, pinned := none, rows := [], repaired := [], failed := [], written := [] }

end Sys2Proof.Machine
end

