-- ==== Sys2Proof/Syntax.lean ====
section
/-! DEFINITION. The commands and events of the block: one constructor per row of spec/opcode_table.json, with the operands the
spec gives the row. What comes from outside the block (a measurement, a device's answer, a training result) is an operand. -/
namespace Sys2Proof

/-- Where a Myelle command comes from (R414): a mailbox's ordinary lane, its urgent lane, or a WORK ring. -/
inductive Lane where
  | mailbox (r : Nat)
  | urgent (r : Nat)
  | work (pair : Nat)
  deriving DecidableEq, Repr

/-- A Myelle command as firmware takes it (R385, R414): its lane, TAG, SEQ, the flags REPLAY_SAFE and ASYNC, and the payload.
`ext` is what an outside device the command waits on answers; none: it does not answer in time (R417). -/
structure Msg where
  lane : Lane
  tag : Nat
  seq : Nat
  replaySafe : Bool
  async : Bool
  payload : List Byte
  ext : Option (List Byte)
  deriving DecidableEq, Repr

/-- The commands and events of the block, one constructor per row of spec/opcode_table.json. -/
inductive Instr where
  /-- SYS_PING (R429): Returns the payload unchanged with DONE. -/
  | sysPing (m : Msg)
  /-- SYS_STATUS (R429): Returns the 64-byte device status record, masked for side stages. -/
  | sysStatus (m : Msg)
  /-- SYS_CONTROL_STATUS (R376): Returns the 584-byte control complex status record. -/
  | sysControlStatus (m : Msg)
  /-- SYS_FW_LOAD (R368): Receives a service firmware image chunk; the final chunk is accepted for verification. -/
  | sysFwLoad (m : Msg)
  /-- FW_STAGED (R368): Root firmware finishes verifying a loaded service image and holds it in the FW region, or rejects it. -/
  | fwStaged (vendorOk : Bool) (ownerOk : Bool) (ownerHash : Nat) (measure : Nat)
  /-- SYS_FW_ACTIVATE (R368): Starts replacement of service firmware by entering INTERVAL. -/
  | sysFwActivate (m : Msg)
  /-- FW_ACTIVATED (R368): The new image has adopted the state, and the device returns to the earlier mode. -/
  | fwActivated
  /-- FW_ACTIVATE_FAILED (R368): Step 5 has not ended within 500 ms, or the new image faults; the previous image is restarted. -/
  | fwActivateFailed (faulted : Bool)
  /-- SYS_SWITCHOVER (R374): Makes a planned takeover by sealing a generation, stopping intake and writing LEAD_YIELD. -/
  | sysSwitchover (m : Msg)
  /-- SYS_RESET (R430): Checks KEY and schedules a WARM or COLD reset. -/
  | sysReset (m : Msg)
  /-- SYS_RESET_START (R430): The reset begins 1 ms after the response doorbell and passes through LOAD. -/
  | sysResetStart
  /-- SYS_SET (R431): Checks every setting record, then applies them all. -/
  | sysSet (m : Msg)
  /-- SYS_GET (R431): Returns the setting records with VALUE filled in. -/
  | sysGet (m : Msg)
  /-- SYS_ASYNC_STATUS (R432): Lists the sender's accepted commands that have not completed. -/
  | sysAsyncStatus (m : Msg)
  /-- MODE_SET (R433): Requests a transition to DARK, HOUSE, RUN, REHEARSAL or SAFE. -/
  | modeSet (m : Msg)
  /-- MODE_CHANGED (R510): A mode transition completes and is reported with old mode, new mode and cause. -/
  | modeChanged
  /-- MODE_STATUS (R435): Returns the 24-byte mode status record. -/
  | modeStatus (m : Msg)
  /-- STAGE_CREATE (R437): Creates a side stage with its ports, paddocks, cells and heads. -/
  | stageCreate (m : Msg)
  /-- STAGE_READY (R437): Every tile is ready; the new stage's mailbox is enabled and the create completes. -/
  | stageReady (k : Nat)
  /-- STAGE_RESIZE (R438): Gives a side stage new resource values. -/
  | stageResize (m : Msg)
  /-- STAGE_RESIZED (R438): The resize has finished writing and scrubbing tiles and completes. -/
  | stageResized (k : Nat)
  /-- STAGE_DISSOLVE (R439): Starts dissolving a side stage: disables its mailbox, flushes its lports and stops its rings. -/
  | stageDissolve (m : Msg)
  /-- STAGE_DISSOLVED (R439): After drain and scrub, every resource passes to S0. -/
  | stageDissolved (k : Nat)
  /-- STAGE_STATUS (R440): Returns the 32-byte stage records. -/
  | stageStatus (m : Msg)
  /-- PORT_CONFIG (R73): Sets the breakout, rates and sub-port settings of a port as one change. -/
  | portConfig (m : Msg)
  /-- PORT_STATUS (R74): Returns one status record per configured sub-port. -/
  | portStatus (m : Msg)
  /-- PORT_HEALTH (R75): Returns the 208-byte health record of an lport. -/
  | portHealth (m : Msg)
  /-- PORT_SERDES_BOUNDS (R69): Sets the equalisation bounds of lanes. -/
  | portSerdesBounds (m : Msg)
  /-- MODULE_STATUS (R531): Returns module status for a port or for every port of the stage. -/
  | moduleStatus (m : Msg)
  /-- MODULE_READ (R531): Reads bytes from a module page. -/
  | moduleRead (m : Msg)
  /-- MODULE_WRITE (R531): Writes bytes to a permitted module page. -/
  | moduleWrite (m : Msg)
  /-- MODULE_RESET (R531): Pulses CG_RST_N and runs bring-up again from step 2. -/
  | moduleReset (m : Msg)
  /-- PARSE_LOAD (R97): Receives a parse graph image chunk; the final chunk is accepted for validation. -/
  | parseLoad (m : Msg)
  /-- GRAPH_STAGED (R97): Validation and writing of a graph to every tile end with the graph staged, or with GRAPH_REJECTED. -/
  | graphStaged (k : Nat) (written : Bool)
  /-- PARSE_DISCARD (R98): Withdraws the staged graph. -/
  | parseDiscard (m : Msg)
  /-- PARSE_READ (R99): Returns the image of the graph that serves a version. -/
  | parseRead (m : Msg)
  /-- PARSE_STATUS (R99): Returns the stage's live and staged graphs. -/
  | parseStatus (m : Msg)
  /-- TABLE_CREATE (R107): Allocates a new table instance, staged for the next version. -/
  | tableCreate (m : Msg)
  /-- INSTANCE_READY (R107): Every tile has zeroed the paddocks of a staged instance. -/
  | instanceReady (k : Nat) (kind : Nat)
  /-- TABLE_PROFILE (R153): Stages the lookup profile. -/
  | tableProfile (m : Msg)
  /-- TABLE_DOMAIN (R154): Stages the domain map and the DEFAULT6 results. -/
  | tableDomain (m : Msg)
  /-- TABLE_PFX_ADD (R152): Stages prefix additions. -/
  | tablePfxAdd (m : Msg)
  /-- TABLE_PFX_DELETE (R152): Stages prefix deletions. -/
  | tablePfxDelete (m : Msg)
  /-- TABLE_ENTRY_WRITE (R428): Stages writes of exact and direct-indexed entries. -/
  | tableEntryWrite (m : Msg)
  /-- TABLE_ENTRY_DELETE (R428): Stages deletions of exact and direct-indexed entries. -/
  | tableEntryDelete (m : Msg)
  /-- TABLE_READ (R136): Returns the entries of one instance as one tile holds them. -/
  | tableRead (m : Msg)
  /-- TABLE_FLUSH_LEARNED (R129): Removes the matching learned entries in every tile of the stage. -/
  | tableFlushLearned (m : Msg)
  /-- TABLE_COMMIT (R184): Accepts a commit of the next version for a flip time and journals it. -/
  | tableCommit (m : Msg)
  /-- COMMIT_ARMING (R185): Once the staging writes are in place, root firmware loads the flip time into the time unit. -/
  | commitArming (k : Nat) (failed : Bool)
  /-- VERSION_FLIP (R185): At the armed time every tile of the stage flips its current version in one PCLK, and COMMIT_DONE is posted. -/
  | versionFlip (k : Nat)
  /-- TABLE_COMMIT_CANCEL (R187): Withdraws an accepted commit, or is refused according to STATE. -/
  | tableCommitCancel (m : Msg)
  /-- TABLE_ABORT (R183): Discards the stage's whole staged batch. -/
  | tableAbort (m : Msg)
  /-- TABLE_VSTATUS (R193): Returns the version record of the stage. -/
  | tableVstatus (m : Msg)
  /-- DRAIN_COMPLETE (R190): The retiring version's drain counters reach zero in every tile, and settle begins. -/
  | drainComplete (k : Nat)
  /-- DRAIN_EXPIRED (R190): At 100 µs after the flip, every held packet not yet transmitting is discarded. -/
  | drainExpired (k : Nat)
  /-- VERSION_RETIRED (R191): Settle ends; the retiring version retires and held staging writes proceed. -/
  | versionRetired (k : Nat)
  /-- SWEEP_PASS (R195): The consistency sweep compares tile words with the backing store and corrects them. -/
  | sweepPass (k : Nat)
  /-- RULE_BLOCK (R170): Assigns an empty, unreferenced block to a stage, with its layout and hole interval. -/
  | ruleBlock (m : Msg)
  /-- RULE_LAYOUT (R169): Stages a key layout. -/
  | ruleLayout (m : Msg)
  /-- RULE_RANGE (R169): Stages a range comparator. -/
  | ruleRange (m : Msg)
  /-- RULE_PRESELECT (R169): Stages a pre-selector entry. -/
  | rulePreselect (m : Msg)
  /-- RULE_DEFAULT (R169): Stages the default action words. -/
  | ruleDefault (m : Msg)
  /-- RULE_ADD (R166): Inserts a rule, valid in the next version only, shifting entries toward a hole. -/
  | ruleAdd (m : Msg)
  /-- RULE_DELETE (R166): Clears the next-version bit of a rule. -/
  | ruleDelete (m : Msg)
  /-- RULE_READ (R169): Returns the entries of a block range. -/
  | ruleRead (m : Msg)
  /-- RESPACED (R167): Background moves restore the hole spacing of a block. -/
  | respaced (b : Nat)
  /-- PATTERN_LOAD (R223): Receives a pattern set image chunk; the final chunk is accepted. -/
  | patternLoad (m : Msg)
  /-- PATTERN_STAGED (R223): Validation and writing of a pattern set end with the set staged, or with PATTERN_REJECTED. -/
  | patternStaged (k : Nat) (written : Bool)
  /-- PATTERN_DISCARD (R223): Withdraws the staged pattern set. -/
  | patternDiscard (m : Msg)
  /-- PATTERN_READ (R223): Returns the image of a pattern set. -/
  | patternRead (m : Msg)
  /-- PATTERN_STATUS (R223): Returns the pattern sets and the throttle state. -/
  | patternStatus (m : Msg)
  /-- PATTERN_BOUNDS (R216): Sets FLOOR and CAP of the pattern throttle. -/
  | patternBounds (m : Msg)
  /-- PATTERN_QUERY (R218): Creates a survey job over host-supplied bytes. -/
  | patternQuery (m : Msg)
  /-- PATTERN_STEP (R221): Returns further survey matches, resuming the job from its saved state. -/
  | patternStep (m : Msg)
  /-- EDIT_LOAD (R247): Writes a microcode image chunk into the inactive bank; the final chunk is accepted. -/
  | editLoad (m : Msg)
  /-- EDIT_STAGED (R258): An edit image was validated and written in every tile, or EDIT_REJECTED is posted. -/
  | editStaged (k : Nat) (written : Bool)
  /-- EDIT_SWAP (R247): Binds the inactive bank to the next version. -/
  | editSwap (m : Msg)
  /-- EDIT_READ (R256): Returns microcode words of the bank bound to a version. -/
  | editRead (m : Msg)
  /-- EDIT_STATUS (R256): Returns the banks and region of the stage. -/
  | editStatus (m : Msg)
  /-- EDIT_REGION (R246): Gives a stage its range of customer microcode words. -/
  | editRegion (m : Msg)
  /-- QUEUE_POLICER (R304): Writes policer records. -/
  | queuePolicer (m : Msg)
  /-- QUEUE_POLICER_READ (R304): Returns a policer's record, counters and buckets. -/
  | queuePolicerRead (m : Msg)
  /-- QUEUE_POLICER_RANGE (R295): Gives a stage its range of policers. -/
  | queuePolicerRange (m : Msg)
  /-- QUEUE_PRECOLOUR (R301): Sets the stage's colour map. -/
  | queuePrecolour (m : Msg)
  /-- QUEUE_SERVICE (R320): Sets the service and shaper of queues. -/
  | queueService (m : Msg)
  /-- QUEUE_LPORT (R321): Sets the lport shaper, refill period and gate padding. -/
  | queueLport (m : Msg)
  /-- QUEUE_CUESHEET (R318): Replaces the pending cue sheet of an lport. -/
  | queueCuesheet (m : Msg)
  /-- QUEUE_STATUS (R323): Returns queue, shaper and gate status for an lport. -/
  | queueStatus (m : Msg)
  /-- BUFFER_CLASS (R290): Sets admission and spill settings of classes. -/
  | bufferClass (m : Msg)
  /-- BUFFER_LPORT (R291): Sets lport reservations, headroom and pause watchdog. -/
  | bufferLport (m : Msg)
  /-- BUFFER_SESSION (R273): Sets mirror and sample session records. -/
  | bufferSession (m : Msg)
  /-- BUFFER_STATUS (R292): Returns fold occupancy for a tile. -/
  | bufferStatus (m : Msg)
  /-- MEM_CONFIG (R350): Sets DRAM speeds, efficiency and limits. -/
  | memConfig (m : Msg)
  /-- MEM_REGION (R330): Sets the DRAM region sizes. -/
  | memRegion (m : Msg)
  /-- MEM_SHARE (R346): Sets a stage's share of a region, with bandwidth admission. -/
  | memShare (m : Msg)
  /-- MEM_SPEED (R342): Requests a DRAM speed step. -/
  | memSpeed (m : Msg)
  /-- MEM_REPAIR (R350): Runs post-package repair of a DRAM row. -/
  | memRepair (m : Msg)
  /-- MEM_STATUS (R350): Returns DRAM channel, speed, region and share status. -/
  | memStatus (m : Msg)
  /-- TIME_STATUS (R581): Returns the 48-byte time record. -/
  | timeStatus (m : Msg)
  /-- TIME_CONFIG (R467): Selects the time source and sets the time parameters. -/
  | timeConfig (m : Msg)
  /-- TIME_SET (R469): Steps network time to a given value. -/
  | timeSet (m : Msg)
  /-- TIME_ADJUST_FREQ (R469): Sets the base frequency offset. -/
  | timeAdjustFreq (m : Msg)
  /-- TIME_ADJUST_SLEW (R469): Starts or replaces a slew of network time. -/
  | timeAdjustSlew (m : Msg)
  /-- TIME_ADJUST_STEP (R469): Steps network time by an offset. -/
  | timeAdjustStep (m : Msg)
  /-- TIME_PORT_CONFIG (R476): Sets PTP timestamping and delays of an lport. -/
  | timePortConfig (m : Msg)
  /-- TIME_PORT_READ (R476): Returns entries of an lport's timestamp ring. -/
  | timePortRead (m : Msg)
  /-- SLEW_END (R469): The outstanding slew offset is spent, and the slew frequency ends. -/
  | slewEnd
  /-- POWER_STATUS (R515): Returns the 64-byte power record. -/
  | powerStatus (m : Msg)
  /-- POWER_LIMIT (R516): Sets LIMIT and RESERVE. -/
  | powerLimit (m : Msg)
  /-- POWER_PRECEDENCE (R516): Replaces the port precedence list. -/
  | powerPrecedence (m : Msg)
  /-- POWER_BOUNDS (R516): Sets the AVS window of a die and TWARN. -/
  | powerBounds (m : Msg)
  /-- FAULT_STATUS (R582): Returns fault records, open entries and class counts. -/
  | faultStatus (m : Msg)
  /-- FAULT_ACK (R464): Acknowledges a fault, clears the records or restores an isolated unit. -/
  | faultAck (m : Msg)
  /-- FAULT_CONFIG (R464): Raises class severities and sets interrupt, quiet period and pin options. -/
  | faultConfig (m : Msg)
  /-- FAULT_PIN (R458): Releases FAULT_N, or asserts and holds it. -/
  | faultPin (m : Msg)
  /-- RECORD_CONFIG (R486): Configures record rings, capture sessions, flow sessions and SNAP_INTERVAL. -/
  | recordConfig (m : Msg)
  /-- RECORD_TRIGGER (R483): Triggers an armed capture session. -/
  | recordTrigger (m : Msg)
  /-- RECORD_STATUS (R486): Returns drives, shares, rings and sessions. -/
  | recordStatus (m : Msg)
  /-- RECORD_READ (R486): Reads records of a kind into a DUMP pair. -/
  | recordRead (m : Msg)
  /-- RECORD_DRIVE (R486): Formats or quiesces a drive, or sets a stage's share of extents. -/
  | recordDrive (m : Msg)
  /-- LIFE_READ (R491): Returns ledger log records. -/
  | lifeRead (m : Msg)
  /-- LIFE_STATUS (R491): Returns the life summary of the ledger. -/
  | lifeStatus (m : Msg)
  /-- LIFE_BACKUP (R490): Writes the whole ledger to the prompt book. -/
  | lifeBackup (m : Msg)
  /-- COUNTER_READ (R441): Returns entry counters summed over tiles, optionally clearing them. -/
  | counterRead (m : Msg)
  /-- COUNTER_SNAPSHOT (R442): Requests a snapshot, as a write to PMC_SNAP does. -/
  | counterSnapshot (m : Msg)
  /-- COUNTER_EVENTS (R443): Returns event counters of a tile and stage. -/
  | counterEvents (m : Msg)
  /-- COUNTER_SLOTS (R444): Returns the slot totals of every tile. -/
  | counterSlots (m : Msg)
  /-- COUNTER_LPORT (R445): Returns the 48 statistics of an lport in one view. -/
  | counterLport (m : Msg)
  /-- RING_ASSIGN (R411): Assigns a ring pair to a stage and kind. -/
  | ringAssign (m : Msg)
  /-- RING_POOLS (R405): Sets the buffer counts of the pools. -/
  | ringPools (m : Msg)
  /-- RING_QUOTA (R406): Sets a stage's pool quota. -/
  | ringQuota (m : Msg)
  /-- RING_CAP (R406): Sets an owner's cap and age limits. -/
  | ringCap (m : Msg)
  /-- RING_RELEASE (R407): Releases a retained buffer. -/
  | ringRelease (m : Msg)
  /-- RING_STATUS_CMD (R411): Returns pool, owner and ring pair status. -/
  | ringStatusCmd (m : Msg)
  /-- IDENTITY_CHAIN (R367): Returns the DeviceID and Alias certificates. -/
  | identityChain (m : Msg)
  /-- IDENTITY_QUOTE (R367): Returns the measurement list signed over a nonce. -/
  | identityQuote (m : Msg)
  /-- IDENTITY_OWNER_ENROL (R364): Writes an owner-key hash into the first empty fuse slot. -/
  | identityOwnerEnrol (m : Msg)
  /-- IDENTITY_ROLLBACK_COMMIT (R362): Raises the SVN fuse counters to the running images. -/
  | identityRollbackCommit (m : Msg)
  /-- TEST_LOOPBACK (R71): Starts or ends a loopback on an lport. -/
  | testLoopback (m : Msg)
  /-- TEST_PRBS (R71): Starts or stops a PRBS generator or checker on a lane. -/
  | testPrbs (m : Msg)
  /-- TEST_INJECT (R463): Arms a fault injector. -/
  | testInject (m : Msg)
  /-- TEST_STATUS (R72): Returns injector records and PRBS checker records. -/
  | testStatus (m : Msg)
  /-- COMMAND_TAKE (R414): Firmware takes a message from an intake queue, urgent lane or WORK ring and judges it in order. -/
  | commandTake (lane : Lane) (ext : Option (List Byte))
  /-- RESPONSE_DELIVERY (R386): Once the response area is free, firmware writes the next response of the lane and sets RSP_VALID. -/
  | responseDelivery (r : Nat) (urgent : Bool)
  /-- EVENT_POST (R389): An event record is written to a mailbox's event area, or dropped or held when the area is full. -/
  | eventPost (r : Nat)
  /-- FRAME_RECEIVE (R46): The receive MAC takes a frame, checks length and FCS, inserts a default tag and removes a peer tag. -/
  | frameReceive (l : Nat) (wire : List Byte) (rxErr : Bool) (full : Bool) (high : Bool)
  /-- PIPE_PLACEMENT (R21): A tile places waiting packets of its sources in pipes and assigns sequence numbers. -/
  | pipePlacement (t : Nat) (held : Nat)
  /-- PARSE_WALK (R80): The parser walks the graph node by node, waiting for bytes to arrive. -/
  | parseWalk (id : Nat) (corr : Nat) (ue : Nat)
  /-- CLASSIFY_AND_LOOK_UP (R146): The pipe makes the routed decision and the host, prefix, exact, next-hop and group lookups. -/
  | classifyAndLookUp (id : Nat) (room : Bool)
  /-- PADDOCK_READ (R104): A lookup read that waited for a paddock port is served. -/
  | paddockRead (id : Nat) (n : Nat)
  /-- SPEC_GRANT (R27): The egress scheduler answers a speculative request with a grant or a deferral. -/
  | specGrant (id : Nat)
  /-- PATTERN_SCAN (R208): A queued forwarding scan starts on an engine and runs its strides. -/
  | patternScan (t : Nat) (id : Nat) (start : Nat) (engine : Nat) (err : Nat)
  /-- SCAN_FALLBACK (R213): A scan still queued at its latest start falls back or is skipped. -/
  | scanFallback (id : Nat)
  /-- ORDERED_MATCH_SEARCH (R161): The key is searched in the selected blocks, and the winning action word is applied. -/
  | orderedMatchSearch (id : Nat) (wait : Nat)
  /-- CONFIRM (R28): At PCLK 45 the pipe checks known faults and sends a confirm or a cancel, and makes mirror and sample copies. -/
  | confirm (id : Nat) (sel : Bool)
  /-- SPEC_RETURN (R267): A cancel reaches the egress scheduler, which releases the lport and refunds the grant. -/
  | specReturn (x : Nat)
  /-- REORDER_RELEASE (R23): The reorder unit releases a source's packets in sequence once earlier numbers are returned. -/
  | reorderRelease (t : Nat) (src : Nat)
  /-- LATE_RELEASE (R23): After 256 PCLK the gap is closed; a missing packet later leaves out of order. -/
  | lateRelease (t : Nat) (src : Nat)
  /-- XOFF_REFRESH (R51): XOFF is sent again each time half its quanta time has elapsed. -/
  | xoffRefresh (l : Nat) (c : Nat)
  /-- XON_SEND (R278): XON is sent once headroom is empty and shared free cells reach XON_GAP. -/
  | xonSend (l : Nat) (c : Nat)
  /-- EGRESS_GRANT (R306): The egress scheduler chooses an eligible queue and grants a whole frame. -/
  | egressGrant (x : Nat) (wait : Nat) (room : Bool)
  /-- CELL_LAUNCH (R265): A granted cell is launched when its staging credit is available, and shapers are charged. -/
  | cellLaunch (id : Nat) (err : Nat) (cell : Nat)
  /-- CELL_ARRIVAL (R263): A cell reaches egress staging after crossbar transit. -/
  | cellArrival (id : Nat)
  /-- MULTICAST_REPLICATION (R272): An egress tile takes a multicast frame into its hold and makes its copies. -/
  | multicastReplication (k : Nat) (wait : Nat)
  /-- REENTRY_READ (R283): A spilled frame is read back into the fold when the reserve has room. -/
  | reentryRead (key : Nat) (ue : Option Nat)
  /-- DRESSER_ASSIGN (R227): A packet is assigned to a dresser whose load stage is free. -/
  | dresserAssign (id : Nat) (wait : Nat)
  /-- EDIT_PROGRAM (R232): The dresser runs the packet's program over the header window. -/
  | editProgram (id : Nat) (wait : Nat) (corr : Nat) (ue : Nat)
  /-- HAND_OFF (R48): The output stage hands a finished frame to the MAC tag stage. -/
  | handOff (id : Nat)
  /-- TRANSMIT_FRAME (R46): The transmit MAC sends the frame with a new FCS, timestamping PTP messages. -/
  | transmitFrame (id : Nat) (room : Bool)
  /-- TAIL_VERDICT (R33): A frame's tail arrives and its verdict is known. -/
  | tailVerdict (id : Nat)
  /-- PROVISION_VERDICT (R126): The sequencer makes a provisional entry firm or withdraws it. -/
  | provisionVerdict (t : Nat)
  /-- STATIC_LEARNED_REMOVAL (R128): After a static entry becomes valid, the learned entry with its key is removed. -/
  | staticLearnedRemoval (k : Nat)
  /-- MOVE_STORM (R128): Firm station moves of a stage exceed MOVE_LIMIT in a second. -/
  | moveStorm (t : Nat) (k : Nat)
  /-- AGEING_VISIT (R130): The sweep visits a learned entry, clearing HIT or removing it. -/
  | ageingVisit (t : Nat) (pad : Nat) (line : Nat) (word : Nat) (hit : Bool)
  /-- PADDOCK_SCRUB (R133): Scrub reads a paddock line. -/
  | paddockScrub (t : Nat) (pad : Nat) (line : Nat) (word : Nat) (found : Nat)
  /-- POISON_REPAIR (R133): A poisoned entry is rewritten from the backing store within 50 µs. -/
  | poisonRepair (t : Nat) (pad : Nat) (line : Nat) (word : Nat) (ok : Bool)
  /-- GRAPH_NODE_REPAIR (R93): A damaged node word is rewritten from the backing store. -/
  | graphNodeRepair (t : Nat) (w : Nat)
  /-- PATTERN_REPAIR (R224): A withdrawn engine is rewritten and returned. -/
  | patternRepair (t : Nat) (e : Nat)
  /-- EDIT_REPAIR (R250): A damaged microword is rewritten from the bank image. -/
  | editRepair (t : Nat) (bank : Nat) (w : Nat)
  /-- POLICER_REPAIR (R304): A damaged policer record is rewritten from the FW region. -/
  | policerRepair (t : Nat) (pol : Nat)
  /-- THROTTLE_READING (R214): The power manager reads die temperature and moves the throttle step. -/
  | throttleReading (die : Nat) (tj : Int)
  /-- SURVEY_JOB (R218): A survey job runs its strides in spare engine time and writes its record. -/
  | surveyJob (handle : Nat)
  /-- SURVEY_WAIT_EXPIRY (R219): A survey job still running at SURVEY_WAIT is stopped as incomplete. -/
  | surveyWaitExpiry (handle : Nat)
  /-- LPORT_FLUSH (R285): An lport's VOQs, requests, copies and staging are flushed in every tile. -/
  | lportFlush (l : Nat)
  /-- FLUSH_CELLS_FREED (R285): Flushed cells return to the free pool. -/
  | flushCellsFreed (t : Nat) (k : Nat)
  /-- FOLD_SCRUB (R281): Free fold cells are scrubbed. -/
  | foldScrub (t : Nat) (cell : Nat) (found : Nat)
  /-- PAUSE_FRAME_RECEIVE (R50): A received pause or PFC frame stops or resumes classes. -/
  | pauseFrameReceive (l : Nat) (pfc : Bool) (enabled : Nat) (quanta : List Nat)
  /-- PAUSE_EXPIRY (R287): A partner's pause time expires and the class resumes. -/
  | pauseExpiry (l : Nat) (c : Nat)
  /-- PAUSE_WATCHDOG (R287): A class paused for PAUSE_WD enters watchdog discard. -/
  | pauseWatchdog (l : Nat) (c : Nat)
  /-- SHAPER_REFILL (R309): The shapers of an lport and its queues are refilled. -/
  | shaperRefill (l : Nat)
  /-- GATE_CHANGE (R314): A cue sheet entry boundary opens and closes gates. -/
  | gateChange (l : Nat)
  /-- CUESHEET_SWITCH (R318): The pending cue sheet becomes operational at the switch time. -/
  | cuesheetSwitch (l : Nat)
  /-- PEER_HELLO_SEND (R55): A sub-port with PEER set sends a hello every 100 ms. -/
  | peerHelloSend (l : Nat)
  /-- PEER_HELLO_RECEIVE (R55): A received hello is consumed and may bring peer mode up. -/
  | peerHelloReceive (l : Nat) (flags : Nat)
  /-- PEER_TIMEOUT (R55): No hello for 300 ms takes peer mode down. -/
  | peerTimeout (l : Nat)
  /-- LANE_FAULT (R59): A receiver detects a lane fault and starts a width change. -/
  | laneFault (lane : Nat)
  /-- WIDTH_CHANGE_ORDERED_SET (R59): An end receives the width-change ordered set and holds transmission. -/
  | widthChangeOrderedSet (l : Nat) (pair : Nat)
  /-- WIDTH_CHANGE (R59): Both ends restart the wide PCS at the new width at an alignment marker. -/
  | widthChange (l : Nat)
  /-- RESTORE_HOLD_EXPIRY (R61): A removed pair has run for RESTORE_HOLD and is restored. -/
  | restoreHoldExpiry (l : Nat) (pair : Nat)
  /-- HEALTH_WINDOW_END (R63): A health window ends and DEGRADED is judged. -/
  | healthWindowEnd (l : Nat) (cw : Nat) (corr : Nat) (sym : Nat) (unc : Nat)
  /-- PROBATION_START (R64): The uncorrected count reaches WITHDRAW and the sub-port enters probation. -/
  | probationStart (l : Nat) (cw : Nat) (corr : Nat) (sym : Nat) (unc : Nat)
  /-- PROBATION_END (R65): Probation ends and the last window decides UP or DOWN. -/
  | probationEnd (l : Nat)
  /-- LINK_UP (R76): Training completes and the sub-port's link comes up. -/
  | linkUp (l : Nat)
  /-- LINK_DOWN (R67): Loss of link takes a sub-port down and flushes it. -/
  | linkDown (l : Nat) (cause : Nat)
  /-- LANE_RATE_FALLBACK (R68): Training fails and the sub-port steps its lanes down one rate. -/
  | laneRateFallback (l : Nat)
  /-- SERDES_ADAPTATION (R69): A lane's equalisation loop takes an adaptation step inside its bounds. -/
  | serdesAdaptation (lane : Nat) (field : Nat) (want : Nat)
  /-- STATE_COMPARISON (R462): Service firmware compares intended and observed state every 1 ms. -/
  | stateComparison
  /-- REFCLK_LANE_LOSS (R500): Loss of a lane reference clock takes its tile's sub-ports down. -/
  | refclkLaneLoss (k : Nat)
  /-- DRAM_ALERT (R335): ALERT_n is asserted and the sub-channel replays its retry buffer. -/
  | dramAlert (c : Nat) (sub : Nat) (again : Bool)
  /-- MEM_CHANNEL_RESET (R336): After three replays of one window the channel is reset and retrained. -/
  | memChannelReset (c : Nat) (ok : Bool)
  /-- PATROL_SCRUB (R337): The patrol scrub reads and corrects DRAM words. -/
  | patrolScrub (c : Nat) (sub : Nat) (found : Nat) (region : Nat) (a : Nat) (b : Nat) (rank : Nat) (device : Nat) (row : Nat) (copy : Bool)
  /-- CHANNEL_TRAINING (R339): A channel is trained and its unprotected regions zeroed. -/
  | channelTraining (c : Nat) (dimm : Option Machine.Dimm) (cachedOk : Bool)
  /-- DQS_OSCILLATOR_READ (R340): At each refresh a rank's oscillator is read and delays adjusted, with an eye step every RETRAIN_EVERY. -/
  | dqsOscillatorRead (c : Nat) (rank : Nat) (drift : Bool)
  /-- MEM_SPEED_STEP (R342): The DRAM speed changes through self-refresh and a timing set swap. -/
  | memSpeedStep
  /-- MR4_READ (R344): The refresh rate is read and deliverable bandwidth recomputed. -/
  | mr4Read (c : Nat) (hot : Nat)
  /-- RETAIN_SELF_REFRESH (R343): In RETAIN, a rank idle for 10 µs enters self-refresh. -/
  | retainSelfRefresh (c : Nat) (rank : Nat)
  /-- DIMM_TEMPERATURE_READ (R532): The module's temperature is read and may step the DRAM speed down. -/
  | dimmTemperatureRead (c : Nat) (temp : Int)
  /-- FRAME_SPILL (R356): A call with a full frame cache moves the outermost frame to the spill area. -/
  | frameSpill (i : Nat)
  /-- FRAME_FILL (R356): A return to a spilled caller moves its frame back into the cache. -/
  | frameFill (i : Nat)
  /-- FRAME_FAULT (R357): A nested frame exception or full spill area halts the thread, which is restarted. -/
  | frameFault (i : Nat) (nested : Bool)
  /-- THREAD_WAKE (R358): A thread is woken by a doorbell, timer or shared-register signal. -/
  | threadWake (i : Nat) (reason : Nat) (halt : Bool)
  /-- ROOT_WRITE (R360): A service thread's write to root resources is refused and the thread restarted. -/
  | rootWrite (i : Nat) (address : Nat) (write : Bool)
  /-- GENERATION_SEAL (R369): The lead writes changed pages and the seal word of a generation. -/
  | generationSeal
  /-- GENERATION_ADOPT (R370): The understudy checks a sealed generation and applies it. -/
  | generationAdopt (crcOk : Bool)
  /-- HEARTBEAT_WRITE (R372): Root firmware on the lead writes the heartbeat register. -/
  | heartbeatWrite (complex : Nat)
  /-- HEARTBEAT_MISS (R372): 100 µs without a beat counts a miss; the third flips LEAD_SEL. -/
  | heartbeatMiss
  /-- LEAD_YIELD (R372): The lead flips LEAD_SEL to the understudy at once. -/
  | leadYield
  /-- UNDERSTUDY_READY (R374): The reset old lead receives the state copy and becomes understudy. -/
  | understudyReady (selfTestOk : Bool)
  /-- CONTROL_RECOVERY_ATTEMPT (R375): With no complex serving, the control die resets a complex and waits 2 s for it. -/
  | controlRecoveryAttempt (started : Bool)
  /-- START_UP (R512): From VIN or reset, the device runs its start-up sequence to HOUSE. -/
  | startUp (b : Sys2Proof.Machine.BootInput)
  /-- PERST_N (R379): PERST_N resets the host path. -/
  | perstN (low : Bool)
  /-- FUNCTION_LEVEL_RESET (R379): A Function Level Reset resets the host path. -/
  | functionLevelReset
  /-- HOST_LINK_LOSS (R379): Loss of the PCIe link resets the host path. -/
  | hostLinkLoss
  /-- HOST_LINK_RESET (R379): The link is up again after a host path reset and this is posted. -/
  | hostLinkReset
  /-- IRQ_HOLDOFF_EXPIRY (R380): A vector's HOLDOFF expires after an unsignalled cause and the vector fires. -/
  | irqHoldoffExpiry (v : Nat)
  /-- MB_DOORBELL (R384): A doorbell write is checked and the message copied into the intake queue. -/
  | mbDoorbell (r : Nat) (value : Nat) (copy : Nat)
  /-- MB_UDOORBELL (R388): An urgent doorbell write is checked and the message copied. -/
  | mbUdoorbell (r : Nat) (value : Nat) (copy : Nat)
  /-- RSP_VALID_WRITE (R386): Writing 1 to RSP_VALID frees the response area. -/
  | rspValidWrite (r : Nat)
  /-- URSP_VALID_WRITE (R383): Writing 1 to URSP_VALID frees the urgent response area. -/
  | urspValidWrite (r : Nat)
  /-- MB_EVT_CONS_WRITE (R389): Host software advances the event consumer index, freeing records. -/
  | mbEvtConsWrite (r : Nat) (value : Nat)
  /-- SMBUS_SET_OFFSET (R390): SMBus command 0x10 sets the MB5 offset. -/
  | smbusSetOffset (offset : Nat) (pecOk : Bool)
  /-- SMBUS_BLOCK_WRITE (R390): SMBus command 0x11 writes at the offset and advances it. -/
  | smbusBlockWrite (data : List Byte) (pecOk : Bool) (copy : Nat)
  /-- SMBUS_BLOCK_READ (R390): SMBus command 0x12 reads at the offset and advances it. -/
  | smbusBlockRead (n : Nat) (pecOk : Bool)
  /-- RING_ENABLE (R394): Writing ENABLE 1 resets the indices and starts the ring, or sets ERROR with cause CFG. -/
  | ringEnable (p : Nat)
  /-- RING_DISABLE (R403): Clearing ENABLE stops fetching and turns the ring OFF once items complete. -/
  | ringDisable (p : Nat)
  /-- RING_FLUSH (R402): Writing FLUSH samples SQ_PROD and completes unstarted items FLUSHED. -/
  | ringFlush (p : Nat) (cqOk : Bool)
  /-- FLUSH_DONE (R402): A flush ends and FLUSH_DONE is set. -/
  | flushDone (p : Nat) (entries : List (List Byte)) (fetchOk : Bool) (cqOk : Bool)
  /-- RING_POLL (R395): The ring engine samples SQ_PROD and fetches entries with reserved completions. -/
  | ringPoll (p : Nat) (entries : List (List Byte)) (fetchOk : Bool) (cqOk : Bool)
  /-- INJECT_ITEM (R397): A fetched INJECT entry's frame is read and sent to its tile. -/
  | injectItem (p : Nat) (frame : List Byte) (dmaOk : Bool) (cqOk : Bool)
  /-- INJECT_COMPLETION (R397): The injected frame's fate is known and its completion written. -/
  | injectCompletion (p : Nat) (cqOk : Bool)
  /-- PUNT_WRITE (R398): A host-exit frame is written into a ready PUNT buffer and completed. -/
  | puntWrite (k : Nat) (q : Nat) (t : Nat) (c : Nat) (err : Nat) (cell : Nat) (dmaOk : Bool) (cqOk : Bool)
  /-- WORK_ITEM (R400): A WORK command is read from host memory and answered at RSP_ADDR. -/
  | workItem (p : Nat) (bytes : List Byte) (dmaOk : Bool) (cqOk : Bool)
  /-- DUMP_FILL (R400): A command's bulk data fills a posted DUMP buffer. -/
  | dumpFill (p : Nat) (dmaOk : Bool) (cqOk : Bool)
  /-- SHEEPDOG_VISIT (R408): The sheepdog visits buffers, warning on and reclaiming old ones. -/
  | sheepdogVisit (cqOk : Bool)
  /-- FAULT_REPORT (R447): A checker reports an error, which is counted, captured and given an entry. -/
  | faultReport (cls : Nat) (level : Nat) (unit : Nat) (stage : Nat) (master : Nat) (access : Nat) (address : Nat) (detail : Nat)
  /-- FAULT_WINDOW_EXPIRY (R449): An unacknowledged fault's window expires and it escalates. -/
  | faultWindowExpiry
  /-- FLT_ACK (R450): Firmware writes a SEQ to FLT_ACK to acknowledge a fault. -/
  | fltAck (seq : Nat)
  /-- FAULT_REPAIRED (R452): A repair completes or fails and the record is updated. -/
  | faultRepaired (cls : Nat) (level : Nat) (unit : Nat) (ok : Bool)
  /-- PIPE_STALL (R452): A pipe has not returned a sequence number within 4,096 PCLK. -/
  | pipeStall (tile : Nat) (pipe : Nat) (stage : Nat)
  /-- DRESSER_STALL (R452): A dresser has run no microword for 4,096 PCLK. -/
  | dresserStall (tile : Nat) (dresser : Nat) (stage : Nat)
  /-- QUIET_PERIOD_END (R457): The quiet period of a fault-driven SAFE ends and the device returns. -/
  | quietPeriodEnd
  /-- FAULT_N_PULSE_END (R458): The FAULT_N pulse ends and the pin follows PIN_MODE. -/
  | faultNPulseEnd
  /-- INJECTOR_CONSUMED (R463): An armed injector corrupts an access and counts down to consumed. -/
  | injectorConsumed (i : Nat) (word : Nat) (level : Nat) (unit : Nat) (stage : Nat) (master : Nat) (access : Nat) (address : Nat)
  /-- PPS_EDGE (R467): A 1PPS_IN edge is sampled and accepted or rejected by the servo. -/
  | ppsEdge (offset : Int) (servo : Int)
  /-- PPS_LOST (R467): No edge for 1.1 s enters HOLDOVER. -/
  | ppsLost
  /-- HOST_TIMEOUT (R467): No adjustment for HOST_TIMEOUT enters HOLDOVER. -/
  | hostTimeout
  /-- TOD_SENTENCE (R471): A ZDA sentence on TOD_IN names the second of an edge. -/
  | todSentence (utc : Nat) (checksumOk : Bool)
  /-- CALENDAR_WRITE (R472): While LOCKED, root firmware writes network seconds into the calendar hourly. -/
  | calendarWrite
  /-- JOURNAL_RECORD_WRITE (R481): Events and fault records are written as JOURNAL records to the prompt book. -/
  | journalRecordWrite
  /-- SNAP_INTERVAL_RECORD (R481): At SNAP_INTERVAL a SNAPSHOT record is written. -/
  | snapIntervalRecord
  /-- CAPTURE_TRIGGERED (R483): An event trigger moves an armed capture session to TRIGGERED. -/
  | captureTriggered (k : Nat) (j : Nat) (code : Nat)
  /-- CAPTURE_POST_END (R483): The post window ends and the session starts WRITING. -/
  | capturePostEnd (k : Nat) (j : Nat)
  /-- CAPTURE_DONE (R483): The capture is written and the session rearms or goes idle. -/
  | captureDone (k : Nat) (j : Nat) (ue : Option Nat)
  /-- FLOW_SAMPLE (R485): A sample frame updates or creates a flow entry. -/
  | flowSample (k : Nat) (q : Nat) (t : Nat) (c : Nat) (err : Nat) (cell : Nat)
  /-- FLOW_EXPORT (R485): A flow is exported at its idle or active timeout. -/
  | flowExport (k : Nat) (j : Nat) (i : Nat) (ue : Option Nat)
  /-- DRIVE_ADDED (R478): An inserted drive is identified and rejoins or waits for formatting. -/
  | driveAdded (i : Nat) (label : Nat) (pct : Nat) (extents : Nat) (serial : Nat) (critical : Bool)
  /-- DRIVE_REMOVED (R478): A removed drive's records are lost and writes are redirected. -/
  | driveRemoved (i : Nat)
  /-- SMART_READ (R477): Drive health is read hourly. -/
  | smartRead (i : Nat) (pct : Nat) (critical : Bool)
  /-- LEDGER_CHECKPOINT (R488): Every 10 min a CHECKPOINT record is written to the ledger. -/
  | ledgerCheckpoint (measured : List Byte) (energy : Nat)
  /-- LANE_TREND (R488): A daily LANE_TREND record is written. -/
  | laneTrend (trend : List Byte)
  /-- DRAM_ECS (R488): A daily DRAM_ECS record is written. -/
  | dramEcs (counts : List Byte)
  /-- LEDGER_COMPACTION (R489): Sectors near the tail are compacted and erased. -/
  | ledgerCompaction (failed : List Nat)
  /-- LEDGER_BACKUP (R490): Every 24 h the ledger is written to the prompt book. -/
  | ledgerBackup
  /-- VIN_BAND (R494): VIN crosses a threshold after its debounce. -/
  | vinBand (vin : Nat)
  /-- CURRENT_LIMIT_STEP (R498): IIN at or above LIMIT for the step time takes the next step. -/
  | currentLimitStep (iin : Nat)
  /-- CURRENT_LIMIT_RELEASE (R498): IIN below 0.9 × LIMIT for 1 s releases a step. -/
  | currentLimitRelease (iin : Nat)
  /-- AVS_STEP (R499): Every 1 ms a die's rail moves one step toward its lowest safe voltage. -/
  | avsStep (die : Nat) (up : Bool)
  /-- CLOCKING_CHANGE (R502): PCLK and XCLK change between full and lean clocking in sequence. -/
  | clockingChange
  /-- TEMPERATURE_READING (R503): Die temperatures are read against TWARN, TLEAN and THERM. -/
  | temperatureReading (die : Nat) (tj : Int)
  /-- THERMAL_TRIP (R504): A die reaches 115 °C and hardware takes the device to DARK. -/
  | thermalTrip (die : Nat)
  /-- THERMAL_DARK_EXIT (R504): After 60 s below 90 °C the device restarts from a thermal DARK. -/
  | thermalDarkExit
  /-- RESET_N (R577): A RESET_N low level resets the device or starts it from DARK. -/
  | resetN (lowNs : Nat) (taken : Bool)
  /-- MODULE_INSERTED (R525): CG_PRS_N stays low for 50 ms and bring-up begins. -/
  | moduleInserted (c : Nat)
  /-- MODULE_LOW_POWER (R525): Module State reads ModuleLowPwr; pages are read and applications selected. -/
  | moduleLowPower (c : Nat) (identifier : Nat) (cmis : Bool) (vendor : List Byte) (part : List Byte) (serial : Nat) (firmware : Nat) (power : Nat) (apps : List (Nat × Nat × Nat)) (pwrUpMs : Nat) (dpInitMs : Nat)
  /-- MODULE_POWER_UP (R525): The module reports ModuleReady and data paths are awaited. -/
  | modulePowerUp (c : Nat)
  /-- MODULE_READY (R525): Every selected lane reports DPActivated. -/
  | moduleReady (c : Nat)
  /-- MODULE_TIMEOUT (R529): A bring-up step exceeds its limit and the module returns to low power. -/
  | moduleTimeout (c : Nat)
  /-- MODULE_INTERRUPT (R527): CG_INT_N falls and the module's latched flags are read. -/
  | moduleInterrupt (c : Nat) (fault : Bool) (alarm : Bool)
  /-- MODULE_POLL (R527): Every second each module's flags and monitors are read. -/
  | modulePoll (c : Nat) (answers : Bool) (serial : Nat) (temp : Int) (fault : Bool) (alarm : Bool)
  /-- MODULE_REMOVED (R528): CG_PRS_N rises and the port goes down at once. -/
  | moduleRemoved (c : Nat)
  /-- MGMT_BUS_RECOVER (R518): A stuck management transfer ends with a bus recovery. -/
  | mgmtBusRecover (bus : Nat)
  /-- PMC_SNAP (R543): A write to PMC_SNAP requests a snapshot. -/
  | pmcSnap (value : Nat)
  /-- SNAPSHOT_EDGE (R543): At the snapshot edge every counter is copied into a bank. -/
  | snapshotEdge
  /-- SNAPSHOT_TAKEN (R543): The snapshot copy is complete. -/
  | snapshotTaken
  /-- PMC_SNAP_ID_READ (R560): Reading PMC_SNAP_ID pins the newest complete bank. -/
  | pmcSnapIdRead
  /-- STATISTICS_CLEARING_READ (R53): A low-word read in the CLEAR view returns, latches and clears a counter. -/
  | statisticsClearingRead (l : Nat) (i : Nat)
  /-- VIEW_LATCH_READ (R548): A read of a value's lowest DWORD latches its higher DWORDs. -/
  | viewLatchRead (addr : Nat)
  /-- UCS_WORDS_READ (R565): A read of UCS_WORDS returns and clears the count. -/
  | ucsWordsRead
  /-- DEV_RESET_KEY (R552): Writing the key arms DEV_RESET for 1 ms; any other value disarms it. -/
  | devResetKey (value : Nat)
  /-- DEV_RESET_DISARM (R552): The 1 ms arming of DEV_RESET lapses. -/
  | devResetDisarm
  /-- DEV_RESET (R552): A GO write while armed and unserved resets the device. -/
  | devReset (value : Nat)
  /-- DIAG_READ (R564): DIAG_CTRL OP READ reads one table word into DATA. -/
  | diagRead
  /-- DIAG_WRITE (R198): DIAG_CTRL OP WRITE writes one table word, optionally the backing copy first. -/
  | diagWrite (backingToo : Bool)
  /-- DIAG_COMPLETE (R564): A DIAG operation completes and BUSY clears. -/
  | diagComplete
  /-- UCS_DWORD_LOAD (R565): A write to DWORD 0–2 of a UCS word loads a holding register. -/
  | ucsDwordLoad (w : Nat) (k : Nat) (value : Nat) (be : Nat)
  /-- UCS_WORD_WRITE (R249): A write to DWORD 3 writes a whole microword to S0's inactive bank, or is refused. -/
  | ucsWordWrite (w : Nat) (value : Nat) (be : Nat)
  /-- INJ_ARM (R566): INJ_CTRL ARM checks and arms an injector. -/
  | injArm (i : Nat)
  /-- INJ_DISARM (R566): INJ_CTRL DISARM disarms an injector. -/
  | injDisarm (i : Nat)
  /-- REGISTER_WRITE (R546): A host write to a register without behaviour of its own, under its access type and R17. -/
  | registerWrite (addr : Nat) (value : Nat) (be : Nat)
  /-- PPS_OUT_PULSE (R471): 1PPS_OUT rises as the nanoseconds field of network time passes 0, and falls after PPS_WIDTH. -/
  | ppsOutPulse
  /-- REFCLK_LANE_RETURN (R500): A lost REFCLK_LANE[k] returns, and the sub-ports of tile Tk can train again. -/
  | refclkLaneReturn (k : Nat)
  /-- PRBS_LOCKED (R72): A lane's PRBS checker locks to the incoming pattern, first after TEST.PRBS and again by itself after a loss of lock. -/
  | prbsLocked (lane : Nat)
  /-- PRBS_LOCK_LOST (R72): A running PRBS checker loses lock and zeroes its BITS and ERRORS counts. -/
  | prbsLockLost (lane : Nat)
  /-- CG_RST_N_RELEASE (R525): CG_RST_N is released 10 ms after insertion is debounced, or 1 ms after MODULE.RESET drove it low. -/
  | cgRstNRelease (c : Nat)
  /-- SMBUS_TIMEOUT (R578): The MB5 SMBus target releases the bus after SCL has been held low for 25–35 ms. -/
  | smbusTimeout
  /-- SNAPSHOT_PIN_LAPSE (R560): A bank pin ends 10 ms after the PMC_SNAP_ID read that set it. -/
  | snapshotPinLapse
  /-- CHANNEL_ZEROING_DONE (R339): A channel finishes zeroing its unprotected regions and its state moves from ZEROING to READY, with the regions entering service. -/
  | channelZeroingDone (c : Nat)
  /-- TEST_ACCESS_PORT (R579): TCK edges drive the IEEE 1149.1 TAP, loading instructions such as EXTEST or IDCODE and shifting data and boundary-scan cells. -/
  | testAccessPort (trstLow : Bool) (tms : Bool) (tdi : Bool) (resetLow : Bool) (pins : List Bool)
  deriving DecidableEq, Repr

end Sys2Proof
end

