-- ==== Sys2Proof/Decode.lean ====
section
/-! DEFINITION. The commands that words spell by the opcode table's bits. No row of the table gives bits: a command reaches the device
as a doorbell, a register access, a frame or an event, not as an instruction word. -/
namespace Sys2Proof

/-- The command that a word of the table spells: none, since the table gives no row an encoding. -/
def decodeTableWord (_nbits _w : Nat) : Option Instr := none

end Sys2Proof
end

