-- ==== Sys2Proof/Machine/Bytes.lean ====
section
/-! DEFINITION. Byte order and checks: little-endian fields of messages, records and registers (R15), network-order fields of
packet headers, the checksums the spec names, and small list helpers. -/
namespace Sys2Proof

/-- The number a byte list spells, least significant byte first (R15). -/
def leNat : List Byte → Nat
  | [] => 0
  | b :: bs => b.toNat + 256 * leNat bs

/-- The `n` low bytes of a number, least significant first (R15). -/
def leBytes : Nat → Nat → List Byte
  | 0, _ => []
  | n + 1, v => BitVec.ofNat 8 v :: leBytes n (v / 256)

/-- The number a byte list spells, most significant byte first (R15: fields inside packet headers). -/
def beNat (bs : List Byte) : Nat := leNat bs.reverse

/-- The `n` low bytes of a number, most significant first. -/
def beBytes (n v : Nat) : List Byte := (leBytes n v).reverse

/-- `n` bytes of zero. -/
def zeros (n : Nat) : List Byte := List.replicate n 0

/-- Bytes `i` to `i + n - 1` of a list. -/
def sliceB (bs : List Byte) (i n : Nat) : List Byte := (bs.drop i).take n

/-- The little-endian field of `n` bytes at offset `i`. -/
def fieldLE (bs : List Byte) (i n : Nat) : Nat := leNat (sliceB bs i n)

/-- Every byte of a field is zero. -/
def zeroAt (bs : List Byte) (i n : Nat) : Bool := (sliceB bs i n).all (fun b => b == 0)

/-- Bits `lo` to `lo + n - 1` of a number. -/
def bitsOf (v lo n : Nat) : Nat := (v / 2 ^ lo) % 2 ^ n

/-- Bit `i` of a number. -/
def bitOf (v i : Nat) : Bool := v.testBit i

/-- The number with bit `i` set or cleared. -/
def setBit (v i : Nat) (b : Bool) : Nat :=
  if b then (if v.testBit i then v else v + 2 ^ i) else (if v.testBit i then v - 2 ^ i else v)

/-- 1 for true and 0 for false. -/
def flagNat (b : Bool) : Nat := if b then 1 else 0

/-- A number of `n` bits read as two's complement. -/
def signedOf (v n : Nat) : Int :=
  if v % 2 ^ n < 2 ^ (n - 1) then ((v % 2 ^ n : Nat) : Int) else ((v % 2 ^ n : Nat) : Int) - ((2 ^ n : Nat) : Int)

/-- The two's complement of an integer in `n` bits. -/
def unsignedOf (v : Int) (n : Nat) : Nat := (v % ((2 ^ n : Nat) : Int)).toNat

/-- An integer held to the range `lo` to `hi`. -/
def clampInt (v lo hi : Int) : Int := if v < lo then lo else if hi < v then hi else v

/-- A number held to a largest value. -/
def satNat (v hi : Nat) : Nat := if hi < v then hi else v

/-- One bit step of a left-shifting CRC of 16 bits. -/
def crc16Step (c : BitVec 16) : BitVec 16 := if c.getLsbD 15 then (c <<< 1) ^^^ 0x1021#16 else c <<< 1

/-- One byte of CRC-16/CCITT-FALSE. -/
def crc16Byte (c : BitVec 16) (b : Byte) : BitVec 16 :=
  let c0 := c ^^^ (BitVec.zeroExtend 16 b <<< 8)
  crc16Step (crc16Step (crc16Step (crc16Step (crc16Step (crc16Step (crc16Step (crc16Step c0)))))))

/-- CRC-16/CCITT-FALSE: polynomial 0x1021, initial value 0xFFFF, not reflected, no final XOR (R385). -/
def crc16 (bs : List Byte) : Nat := (bs.foldl crc16Byte 0xFFFF#16).toNat

/-- Take bytes into a running number, which is evaluated at each byte. -/
def takeBytes (f : Nat → Byte → Nat) : List Byte → Nat → Nat
  | [], c => c
  | b :: l, c => match f c b with
    | 0 => takeBytes f l 0
    | n + 1 => takeBytes f l (n + 1)

/-- One bit step of the reflected CRC-32. -/
def crc32Step (c : Nat) : Nat := if c % 2 = 1 then (c / 2) ^^^ 0xEDB88320 else c / 2

/-- One byte of the reflected CRC-32. -/
def crc32Byte (c : Nat) (b : Byte) : Nat :=
  crc32Step (crc32Step (crc32Step (crc32Step (crc32Step (crc32Step (crc32Step (crc32Step (c ^^^ b.toNat))))))))

/-- CRC-32 of IEEE 802.3: the frame check sequence, and the check of loaded images. -/
def crc32 (bs : List Byte) : Nat := takeBytes crc32Byte bs 0xFFFFFFFF ^^^ 0xFFFFFFFF

/-- One bit step of the reflected CRC-32C (Castagnoli). -/
def crc32cStep (c : Nat) : Nat := if c % 2 = 1 then (c / 2) ^^^ 0x82F63B78 else c / 2

/-- One byte of the reflected CRC-32C. -/
def crc32cByte (c : Nat) (b : Byte) : Nat :=
  crc32cStep (crc32cStep (crc32cStep (crc32cStep (crc32cStep (crc32cStep (crc32cStep (crc32cStep (c ^^^ b.toNat))))))))

/-- CRC-32C of images, playbill copies, records and the ledger (R94, R480, R487, R520). -/
def crc32c (bs : List Byte) : Nat := takeBytes crc32cByte bs 0xFFFFFFFF ^^^ 0xFFFFFFFF

/-- The XOR of every byte of a list. -/
def xorBytes (bs : List Byte) : Byte := bs.foldl (fun a b => a ^^^ b) 0

/-- Replace the element at a place, if the list has one. -/
def setAt {α : Type} : List α → Nat → α → List α
  | [], _, _ => []
  | _ :: l, 0, v => v :: l
  | a :: l, n + 1, v => a :: setAt l n v

/-- Replace the bytes at an offset by others (no longer than the list). -/
def overwrite (bs : List Byte) (i : Nat) (vs : List Byte) : List Byte :=
  (bs.take i ++ vs ++ bs.drop (i + vs.length)).take bs.length

/-- The first element that passes a test, with its index. -/
def findIdxVal {α : Type} (p : α → Bool) : List α → Nat → Option (Nat × α)
  | [], _ => none
  | a :: l, i => if p a then some (i, a) else findIdxVal p l (i + 1)

/-- The numbers `a, a+1, …, a+n-1`. -/
def range (a : Nat) : Nat → List Nat
  | 0 => []
  | n + 1 => a :: range (a + 1) n

/-- The sum of a function over a list of numbers. -/
def sumOver (l : List Nat) (f : Nat → Nat) : Nat := l.foldl (fun a k => a + f k) 0

/-- Put `n` units on a ring of size `m`. -/
def addMod (a n m : Nat) : Nat := (a + n) % m

/-- The distance from `b` up to `a` on a ring of size `m`. -/
def subMod (a b m : Nat) : Nat := (a + m - b % m) % m

end Sys2Proof
end

