-- ==== Sys2Proof/Machine/Maps.lean ====
section
/-! DEFINITION. The operations on sparse maps and byte memories. Every map of State is changed only through these, so that
equal maps are equal data: keys strictly rising, and (for maps with a default) no entry that holds the default. -/
namespace Sys2Proof

namespace SMap

/-- The entry at a key, if one is listed. -/
def find {α : Type} (k : Nat) : SMap α → Option α
  | [] => none
  | (j, v) :: m => if j = k then some v else find k m

/-- The value at a key: the default where nothing is listed. -/
def get {α : Type} (d : α) (k : Nat) (m : SMap α) : α := (find k m).getD d

/-- List a value at a key, in the place the rising order gives it. -/
def insert {α : Type} (k : Nat) (v : α) : SMap α → SMap α
  | [] => [(k, v)]
  | (j, w) :: m => if k < j then (k, v) :: (j, w) :: m else if k = j then (k, v) :: m else (j, w) :: insert k v m

/-- Remove a key. -/
def erase {α : Type} (k : Nat) : SMap α → SMap α
  | [] => []
  | (j, w) :: m => if j = k then m else (j, w) :: erase k m

/-- Write a value at a key of a map with a default: writing the default removes the entry. -/
def put {α : Type} [DecidableEq α] (d : α) (k : Nat) (v : α) (m : SMap α) : SMap α :=
  if v = d then erase k m else insert k v m

/-- Change the value at a key of a map with a default. -/
def upd {α : Type} [DecidableEq α] (d : α) (k : Nat) (f : α → α) (m : SMap α) : SMap α := put d k (f (get d k m)) m

/-- Change the entry at a key, if one is listed. -/
def adjust {α : Type} (k : Nat) (f : α → α) (m : SMap α) : SMap α :=
  match find k m with
  | some v => insert k (f v) m
  | none => m

/-- Is a key listed? -/
def has {α : Type} (k : Nat) (m : SMap α) : Bool := (find k m).isSome

/-- Every key listed is above `b` and the keys rise strictly. -/
def risingFrom {α : Type} (b : Nat) : SMap α → Bool
  | [] => true
  | (j, _) :: m => decide (b ≤ j) && risingFrom (j + 1) m

/-- The canonical form of a map without a default: the keys rise strictly. -/
def wf {α : Type} (m : SMap α) : Bool := risingFrom 0 m

/-- The canonical form of a map with a default: the keys rise strictly and no entry holds the default. -/
def wfd {α : Type} [DecidableEq α] (d : α) (m : SMap α) : Bool := wf m && m.all (fun e => decide (e.2 ≠ d))

/-- Keep the entries whose key and value satisfy a test. -/
def keep {α : Type} (p : Nat → α → Bool) (m : SMap α) : SMap α := m.filter (fun e => p e.1 e.2)

/-- Change every listed entry, keeping the keys. -/
def mapVals {α : Type} (f : Nat → α → α) (m : SMap α) : SMap α := m.map (fun e => (e.1, f e.1 e.2))

/-- Change every listed entry of a map with a default: what becomes the default is no longer listed. -/
def mapD {α : Type} [DecidableEq α] (d : α) (f : Nat → α → α) (m : SMap α) : SMap α :=
  (mapVals f m).filter (fun e => decide (e.2 ≠ d))

end SMap

namespace Memory

/-- What a byte that nothing has written reads as (log entry 2). -/
def blank : Byte := 0

/-- The canonical form of a byte memory. -/
def wf (m : Memory) : Bool := SMap.wfd blank m

/-- Read one byte. -/
def read (m : Memory) (a : Nat) : Byte := SMap.get blank a m

/-- Write one byte. -/
def write (m : Memory) (a : Nat) (v : Byte) : Memory := SMap.put blank a v m

/-- Read `n` bytes from an address up. -/
def readN (m : Memory) (a : Nat) : Nat → List Byte
  | 0 => []
  | n + 1 => read m a :: readN m (a + 1) n

/-- Write bytes from an address up. -/
def writeN (m : Memory) (a : Nat) : List Byte → Memory
  | [] => m
  | b :: bs => writeN (write m a b) (a + 1) bs

/-- Make `n` bytes from an address up read as nothing written. -/
def clear (m : Memory) (a n : Nat) : Memory := m.filter (fun e => decide (e.1 < a) || decide (a + n ≤ e.1))

end Memory
end Sys2Proof
end

