-- ==== Sys2Proof/Machine/Codes.lean ====
section
/-! DEFINITION. The codes every chapter uses: status codes (R425), ring completion codes (R426), event codes (R446), modes (R9),
fault classes (R452). -/
namespace Sys2Proof.Machine

namespace St
abbrev done : Nat := 0x0000
abbrev accepted : Nat := 0x0001
abbrev busy : Nat := 0x0002
abbrev badOpcode : Nat := 0x0003
abbrev badLength : Nat := 0x0004
abbrev badField : Nat := 0x0005
abbrev noSpace : Nat := 0x0006
abbrev notPermitted : Nat := 0x0007
abbrev wrongMode : Nat := 0x0008
abbrev versionConflict : Nat := 0x0009
abbrev timeout : Nat := 0x000A
abbrev restarted : Nat := 0x000B
abbrev hwFault : Nat := 0x000C
abbrev overcommitted : Nat := 0x000D
abbrev notFound : Nat := 0x000E
abbrev stale : Nat := 0x000F
end St

namespace Rc
abbrev ok : Nat := 0x0
abbrev malformed : Nat := 0x1
abbrev badBuffer : Nat := 0x2
abbrev noPool : Nat := 0x3
abbrev flushed : Nat := 0x4
abbrev dmaError : Nat := 0x5
abbrev stageDenied : Nat := 0x6
abbrev truncated : Nat := 0x7
end Rc

namespace Md
abbrev dark : Nat := 0
abbrev load : Nat := 1
abbrev house : Nat := 2
abbrev run : Nat := 3
abbrev lean : Nat := 4
abbrev interval : Nat := 5
abbrev rehearsal : Nat := 6
abbrev safe : Nat := 7
end Md

namespace Lv
abbrev lane : Nat := 0
abbrev port : Nat := 1
abbrev tile : Nat := 2
abbrev die : Nat := 3
abbrev device : Nat := 4
abbrev fabric : Nat := 5
end Lv

namespace Sev
abbrev corrected : Nat := 0
abbrev contained : Nat := 1
abbrev quarantine : Nat := 2
abbrev degrade : Nat := 3
abbrev fatal : Nat := 4
end Sev

namespace Ev
abbrev cmdDone : Nat := 0x0101
abbrev stateMismatch : Nat := 0x0102
abbrev loopAtLimit : Nat := 0x0103
abbrev threadRestart : Nat := 0x0110
abbrev takeover : Nat := 0x0111
abbrev understudyReady : Nat := 0x0112
abbrev understudyAbsent : Nat := 0x0113
abbrev fwStaged : Nat := 0x0114
abbrev fwActivated : Nat := 0x0115
abbrev fwActivateFailed : Nat := 0x0116
abbrev modeChanged : Nat := 0x0201
abbrev stageReady : Nat := 0x0301
abbrev stageResized : Nat := 0x0302
abbrev stageDissolved : Nat := 0x0303
abbrev linkUp : Nat := 0x0401
abbrev linkDown : Nat := 0x0402
abbrev degraded : Nat := 0x0403
abbrev degradedClear : Nat := 0x0404
abbrev probationStart : Nat := 0x0405
abbrev probationEnd : Nat := 0x0406
abbrev widthChange : Nat := 0x0407
abbrev peerUp : Nat := 0x0408
abbrev peerDown : Nat := 0x0409
abbrev moduleInserted : Nat := 0x0501
abbrev moduleRemoved : Nat := 0x0502
abbrev moduleReady : Nat := 0x0503
abbrev moduleFault : Nat := 0x0504
abbrev identityMismatch : Nat := 0x0505
abbrev graphStaged : Nat := 0x0601
abbrev graphRejected : Nat := 0x0602
abbrev graphNodeRepair : Nat := 0x0603
abbrev instanceReady : Nat := 0x0701
abbrev moveStorm : Nat := 0x0702
abbrev learnTableFull : Nat := 0x0703
abbrev tableRepairFail : Nat := 0x0704
abbrev filter6Full : Nat := 0x0705
abbrev commitDone : Nat := 0x0706
abbrev versionRetired : Nat := 0x0707
abbrev commitFailed : Nat := 0x0708
abbrev drainExpired : Nat := 0x0709
abbrev sweepMismatch : Nat := 0x070A
abbrev diagWritten : Nat := 0x070B
abbrev commitCancelled : Nat := 0x070C
abbrev holesExhausted : Nat := 0x0801
abbrev respaced : Nat := 0x0802
abbrev patternStaged : Nat := 0x0901
abbrev patternRejected : Nat := 0x0902
abbrev scanThrottle : Nat := 0x0903
abbrev scanFallbackOnset : Nat := 0x0904
abbrev patternRepair : Nat := 0x0905
abbrev surveyResult : Nat := 0x0906
abbrev editStaged : Nat := 0x0A01
abbrev editRejected : Nat := 0x0A02
abbrev editRepair : Nat := 0x0A03
abbrev editWriteRefused : Nat := 0x0A04
abbrev editExcOnset : Nat := 0x0A05
abbrev cuesheetSwitch : Nat := 0x0B01
abbrev gateOverrunOnset : Nat := 0x0B02
abbrev gateTooLongOnset : Nat := 0x0B03
abbrev policerRepair : Nat := 0x0B04
abbrev spillOnset : Nat := 0x0C01
abbrev spillRefusedOnset : Nat := 0x0C02
abbrev pauseWatchdog : Nat := 0x0C03
abbrev foldQuarantine : Nat := 0x0C04
abbrev headroomOverflowOnset : Nat := 0x0C05
abbrev stageRefused : Nat := 0x0C06
abbrev memCut : Nat := 0x0D01
abbrev memRestore : Nat := 0x0D02
abbrev memSpeedStep : Nat := 0x0D03
abbrev memRefreshRate : Nat := 0x0D04
abbrev memChannelReset : Nat := 0x0D05
abbrev memChannelLost : Nat := 0x0D06
abbrev memRowWeak : Nat := 0x0D07
abbrev timeLocked : Nat := 0x0E01
abbrev timeHoldover : Nat := 0x0E02
abbrev timeStepped : Nat := 0x0E03
abbrev ppsLost : Nat := 0x0E04
abbrev vinBand : Nat := 0x0F01
abbrev currentLimit : Nat := 0x0F02
abbrev thermalWarn : Nat := 0x0F03
abbrev portsHeld : Nat := 0x0F04
abbrev faultFirst : Nat := 0x1001
abbrev faultHigher : Nat := 0x1002
abbrev faultEscalated : Nat := 0x1003
abbrev faultRepaired : Nat := 0x1004
abbrev faultRepairFailed : Nat := 0x1005
abbrev captureTriggered : Nat := 0x1101
abbrev captureDone : Nat := 0x1102
abbrev driveAdded : Nat := 0x1103
abbrev driveRemoved : Nat := 0x1104
abbrev recordSpaceLow : Nat := 0x1105
abbrev ledgerBackup : Nat := 0x1201
abbrev ledgerWear : Nat := 0x1202
abbrev snapshotTaken : Nat := 0x1301
abbrev eventsLost : Nat := 0x1401
abbrev ringError : Nat := 0x1402
abbrev sheepdogStale : Nat := 0x1403
abbrev sheepdogReclaim : Nat := 0x1404
abbrev poolFallbackOnset : Nat := 0x1405
abbrev hostLinkReset : Nat := 0x1406
abbrev rollbackAdvanced : Nat := 0x1501
abbrev testDone : Nat := 0x1601
end Ev

namespace Fc
abbrev sramCe : Nat := 0x001
abbrev dramCe : Nat := 0x002
abbrev dramReplay : Nat := 0x003
abbrev tableUe : Nat := 0x010
abbrev learnedUe : Nat := 0x011
abbrev nodeUe : Nat := 0x012
abbrev ucodeUe : Nat := 0x013
abbrev engineUe : Nat := 0x014
abbrev policerUe : Nat := 0x015
abbrev foldUe : Nat := 0x016
abbrev poolUe : Nat := 0x017
abbrev dramUe : Nat := 0x018
abbrev backingUe : Nat := 0x019
abbrev memChannelReset : Nat := 0x01A
abbrev frameFault : Nat := 0x01B
abbrev rootWrite : Nat := 0x01C
abbrev controlLoss : Nat := 0x01D
abbrev peerLaneFault : Nat := 0x01E
abbrev laneFault : Nat := 0x01F
abbrev stageRefused : Nat := 0x020
abbrev shareViolation : Nat := 0x021
abbrev lockedWrite : Nat := 0x022
abbrev hostLinkReset : Nat := 0x023
abbrev pipeStall : Nat := 0x030
abbrev dresserStall : Nat := 0x031
abbrev threadStorm : Nat := 0x032
abbrev cellRegion : Nat := 0x033
abbrev memChannelLost : Nat := 0x040
abbrev controlLost : Nat := 0x041
abbrev bridgeError : Nat := 0x042
abbrev tileStateUe : Nat := 0x043
abbrev memPopulation : Nat := 0x044
abbrev phaseLoss : Nat := 0x045
abbrev rootClock : Nat := 0x050
abbrev railFault : Nat := 0x051
abbrev rootIntegrity : Nat := 0x052
abbrev fuseFault : Nat := 0x053

/-- The default severity of a class, where the class exists (R452). -/
def severity (c : Nat) : Option Nat :=
  if c = 0 then none
  else if c ≤ 0x003 then some Sev.corrected
  else if 0x010 ≤ c && c ≤ 0x023 then some Sev.contained
  else if 0x030 ≤ c && c ≤ 0x033 then some Sev.quarantine
  else if 0x040 ≤ c && c ≤ 0x045 then some Sev.degrade
  else if 0x050 ≤ c && c ≤ 0x053 then some Sev.fatal
  else none

/-- Classes the collector acknowledges at capture: AUTO (R452). -/
def auto (c : Nat) : Bool :=
  c == learnedUe || c == foldUe || c == poolUe || (decide (0x01E ≤ c) && decide (c ≤ 0x023))

/-- Classes whose acknowledger is NONE (R452). -/
def noAck (c : Nat) : Bool :=
  c == memChannelLost || c == controlLost || c == tileStateUe || c == memPopulation || (decide (0x050 ≤ c) && decide (c ≤ 0x053))
end Fc

end Sys2Proof.Machine
end

