-- ==== Sys2Proof/Machine/StControl.lean ====
section
/-! DEFINITION. The state of the control die: fault collector, control complexes and boot, the command set's settings and stages,
modes, power and clocks, network time, the prompt book, the ledger, modules and playbill, counters' snapshots, the windows of
BAR0 and the test access port (chapters 12, 14–21). -/
namespace Sys2Proof.Machine

/-! ### Faults (chapter 15) -/

/-- A fault record (R447). `master` is kind × 1,024 + instance; VALID is the record's being there at all. -/
structure FaultRec where
  sev : Nat
  cls : Nat
  level : Nat
  unit : Nat
  stage : Nat
  master : Nat
  access : Nat
  address : Nat
  time : Nat
  seq : Nat
  flags : Nat
  detail : Nat
  deriving DecidableEq, Repr

/-- An entry of the open-fault table (R449): the record it was opened with, its severity now and the end of its window
(`none`: FATAL has none). `taken` marks an entry firmware has taken for repair (R450). -/
structure OpenFault where
  record : FaultRec
  sev : Nat
  windowEnd : Option Nat
  taken : Bool
  /-- An injected fault whose escalation to SAFE or LOAD is reported and not applied (SUPPRESS, R463). -/
  suppress : Bool
  deriving DecidableEq, Repr

/-- How a fault that had a SEQ was closed (R464): by acknowledgement, or by its escalation; and the stage whose fault it was. -/
structure ClosedFault where
  escalated : Bool
  stage : Nat
  deriving DecidableEq, Repr

/-- The units a QUARANTINE escalation isolates (R455). -/
inductive IsoUnit where
  | paddockLine (tile paddock line : Nat)
  | microword (tile word : Nat)
  | nodeWord (tile word : Nat)
  | pipe (tile i : Nat)
  | dresser (tile i : Nat)
  | engine (tile i : Nat)
  | foldRegion (tile region : Nat)
  | thread (i : Nat)
  | lport (l : Nat)
  | other (cls unit : Nat)
  deriving DecidableEq, Repr

/-- A fault injector (R463, R566): its sixteen configuration bytes, STATE and the accesses remaining. -/
structure Injector where
  cfg : List Byte
  state : Nat
  remaining : Nat
  deriving DecidableEq, Repr

/-- An injector after reset (R566). -/
def Injector.reset : Injector := { cfg := List.replicate 16 0, state := 0, remaining := 0 }

/-- Intended against observed state of one unit (R462): comparisons in a row that disagreed, and MISMATCH raised. -/
structure Mismatch where
  count : Nat
  raised : Bool
  deriving DecidableEq, Repr

/-- The fault collector (R447–R464). -/
structure FaultSt where
  first : Option FaultRec
  higher : Option FaultRec
  prevFirst : Option FaultRec
  prevHigher : Option FaultRec
  opened : List OpenFault
  closed : SMap ClosedFault
  lastSeq : Nat
  /-- Class counters (R447), and the same per class and stage, keyed class × 8 + stage (R461). -/
  counts : SMap Nat
  stageCounts : SMap Nat
  /-- Lifetime counts for the ledger, real and injected apart (R463, R488). -/
  lifeReal : SMap Nat
  lifeInjected : SMap Nat
  overflow : Nat
  /-- FAULT.CONFIG: raised severities, classes with INTERRUPT, QUIET_PERIOD, PIN_ON_Q, PIN_MODE, CAPTURE_CE (R464). -/
  raised : SMap Nat
  interrupt : List Nat
  quietPeriod : Nat
  pinOnQ : Bool
  pinMode : Nat
  captureCe : Bool
  /-- FAULT_N: asserted, the earliest and the end of the pulse in progress, a release waiting for its end (R458). -/
  pinAsserted : Bool
  pulseEnd : Option Nat
  pinHeld : Bool
  releaseWaits : Bool
  isolated : List IsoUnit
  /-- Spare lines used per paddock and spare words used per store (R455). -/
  spares : SMap Nat
  /-- Persistent causes standing, as classes; TILE_STATE_UE as 0x1000 + tile (R456). -/
  standing : List Nat
  quietEnd : Option Nat
  injectors : SMap Injector
  mismatch : SMap Mismatch
  /-- The tick of the last comparison (R462). -/
  comparedAt : Nat
  deriving DecidableEq, Repr

/-- The fault collector after reset: everything empty, the defaults of R456 and R464. -/
def FaultSt.reset : FaultSt :=
  { first := none, higher := none, prevFirst := none, prevHigher := none, opened := [], closed := [], lastSeq := 0,
    counts := [], stageCounts := [], lifeReal := [], lifeInjected := [], overflow := 0, raised := [], interrupt := [],
    quietPeriod := 60, pinOnQ := false, pinMode := 0, captureCe := false, pinAsserted := false, pulseEnd := none,
    pinHeld := false, releaseWaits := false, isolated := [], spares := [], standing := [], quietEnd := none,
    injectors := [], mismatch := [], comparedAt := 0 }

/-! ### Control complexes and boot (chapter 12) -/

/-- A journal entry (R371): the ACCEPT of a command and, once written, its COMPLETE. `ring` is the WORK ring it came from. -/
structure JEntry where
  mb : Nat
  urgent : Bool
  ring : Option Nat
  opcode : Nat
  tag : Nat
  seq : Nat
  replaySafe : Bool
  async : Bool
  payload : List Byte
  complete : Option (Nat × List Byte)
  delivered : Bool
  generation : Nat
  deriving DecidableEq, Repr

/-- A Shepherd thread (R353–R358, R376), numbered 64 × complex + 16 × core + thread: halted, frames in its cache and in its spill
area, wakes latched while it was halted, its frame faults and restarts since LOAD, and the times of its restarts in the last second. -/
structure Thread where
  halted : Bool
  cached : Nat
  spilled : Nat
  wakes : List Nat
  faults : Nat
  restarts : Nat
  restartTimes : List Nat
  deriving DecidableEq, Repr

/-- A thread at its service entry: one frame cached, nothing spilled. -/
def Thread.reset : Thread :=
  { halted := false, cached := 1, spilled := 0, wakes := [], faults := 0, restarts := 0, restartTimes := [] }

/-- A chunked load in assembly (R97): TOTAL of the chunk that started it and the bytes received; `final` once it is complete. -/
structure Assembly where
  total : Nat
  bytes : List Byte
  final : Bool
  deriving DecidableEq, Repr

/-- An activation of service firmware in progress (R368). -/
structure Activation where
  returnMode : Nat
  since : Nat
  deriving DecidableEq, Repr

/-- The control complexes, the boot chain and identity (R353–R377). -/
structure ControlSt where
  lead : Nat
  understudy : Nat
  missCount : Nat
  lastBeat : Nat
  lateBeat : List Nat
  genReject : List Nat
  sealDelayed : List Nat
  threads : SMap Thread
  sealed : Nat
  adopted : Nat
  sealValid : Bool
  journal : List JEntry
  /-- Control recovery: no complex serves, attempts made, the time of the last (R375). -/
  noService : Bool
  attempts : Nat
  attemptAt : Nat
  /-- Slots of the flash as last read: root A, root B, service A, service B (R361). -/
  rootA : Option Image
  rootB : Option Image
  serviceA : Option Image
  serviceB : Option Image
  /-- Running images; what DEV_BOOT_SLOT shows (R363, R552). -/
  root : Option Image
  service : Option Image
  rootSlot : Nat
  serviceSlot : Nat
  bootFail : Bool
  bootCause : Nat
  rootSvn : Nat
  serviceSvn : Nat
  ownerKeys : List Nat
  deviceIdKnown : Bool
  /-- Service image chunks received, the image verified and held, the previous image (R368). -/
  fwAssembly : Option Assembly
  /-- Complete service images being verified (R368). -/
  fwChecking : List (List Byte)
  fwStaged : Option Image
  fwPrevious : Option Image
  activation : Option Activation
  /-- Debug state of the measurement list (R367). -/
  rehearsed : Bool
  mb7Used : Bool
  jtagUnlocked : Bool
  deriving DecidableEq, Repr

/-- The control complexes after reset: complex 0 leads, the understudy is ABSENT until it has its copy. -/
def ControlSt.reset : ControlSt :=
  { lead := 0, understudy := 2, missCount := 0, lastBeat := 0, lateBeat := [0, 0], genReject := [0, 0],
    sealDelayed := [0, 0], threads := [], sealed := 0, adopted := 0, sealValid := false, journal := [],
    noService := false, attempts := 0, attemptAt := 0, rootA := none, rootB := none, serviceA := none, serviceB := none,
    root := none, service := none, rootSlot := 0, serviceSlot := 0, bootFail := false, bootCause := 0, rootSvn := 0,
    serviceSvn := 0, ownerKeys := [], deviceIdKnown := false, fwAssembly := none, fwChecking := [], fwStaged := none, fwPrevious := none,
    activation := none, rehearsed := false, mb7Used := false, jtagUnlocked := false }

/-! ### Command set, stages and modes (chapters 14 and 17) -/

/-- A stage (R436–R440). STATE: 0 ABSENT, 1 CREATING, 2 READY, 3 RESIZING, 4 DISSOLVING. `ports` is a 48-bit map. -/
structure Stage where
  state : Nat
  scanWeight : Nat
  ports : Nat
  paddocks : Nat
  foldCells : Nat
  mcBase : Nat
  mcCount : Nat
  deriving DecidableEq, Repr

/-- A stage that does not exist. -/
def Stage.absent : Stage :=
  { state := 0, scanWeight := 0, ports := 0, paddocks := 0, foldCells := 0, mcBase := 0, mcCount := 0 }

/-- A reset scheduled by SYS.RESET or DEV_RESET (R430, R552): KIND, its due tick once the response doorbell was rung, the sender. -/
structure ResetPlan where
  cold : Bool
  due : Option Nat
  sender : Nat
  deriving DecidableEq, Repr

/-- A mode transition in progress (R433–R435): target, cause and, for a MODE.SET, the mailbox and tag it completes. -/
structure Transition where
  target : Nat
  cause : Nat
  mb : Option Nat
  tag : Nat
  deriving DecidableEq, Repr

/-- A staging command taken whose write is held until a retirement (R180), its stage, and whether it has been run again (R357). -/
structure Held where
  opcode : Nat
  stage : Nat
  msg : Msg
  rerun : Bool
  deriving DecidableEq, Repr

/-- Why the device is in DARK, for R504 and R513. -/
inductive DarkCause where
  | noVin
  | command
  | uvlo
  | ovp
  | trip
  deriving DecidableEq, Repr

/-- Commands, stages and modes (R429–R440, R508–R514). -/
structure CmdSt where
  /-- Settings of SYS.SET that differ from their defaults, keyed KEY × 512 + (lport or stage) (R431). -/
  settings : SMap Nat
  stages : SMap Stage
  /-- The values a RESIZE in progress asks for (R438). -/
  resizing : SMap Stage
  /-- When the dissolution of a stage was accepted (R439). -/
  dissolving : SMap Nat
  resetPlan : Option ResetPlan
  mode : Nat
  prevMode : Nat
  cause : Nat
  transition : Option Transition
  entered : Nat
  recoveries : Nat
  commandedSafe : Bool
  fwdIntent : Bool
  reason : Nat
  dark : DarkCause
  /-- A sealed resume generation: the measurements of the root and service images that sealed it, and FWD_INTENT as it then stood (R513). -/
  resume : Option (Nat × Nat × Bool)
  /-- Staging commands held, oldest first (R180). -/
  held : List Held
  deriving DecidableEq, Repr

/-- Commands and modes after reset: LOAD (R553 resets DEV_MODE to 1), no stage but S0, every setting at its default. -/
def CmdSt.reset : CmdSt :=
  { settings := [], stages := [], resizing := [], dissolving := [], resetPlan := none, mode := 1, prevMode := 0, cause := 0,
    transition := none, entered := 0, recoveries := 0, commandedSafe := false, fwdIntent := false, reason := 0,
    dark := DarkCause.noVin, resume := none, held := [] }

/-! ### Power and clocks (chapter 17) -/

/-- Adaptive voltage of one die (R499, R516), in mV: rail, window in force, fused limits; and when the loop was last pinned at a bound (R505). -/
structure Avs where
  mv : Nat
  lo : Nat
  hi : Nat
  fuseLo : Nat
  fuseHi : Nat
  pinned : Option Nat
  deriving DecidableEq, Repr

/-- A rail before its fuses are read. -/
def Avs.reset : Avs := { mv := 0, lo := 0, hi := 0, fuseLo := 0, fuseHi := 0, pinned := none }

/-- The power manager (R494–R507, R515). -/
structure PowerSt where
  vinMv : Nat
  iin : Nat
  band : Nat
  aonUp : Bool
  uvloOk : Bool
  ovp : Bool
  limit : Nat
  reserve : Nat
  precedence : List Nat
  /-- Ports not admitted, as a 48-bit map; `clHeld` those held by current-limit steps (R497, R498). -/
  held : Nat
  clHeld : List Nat
  clStep : Nat
  clAt : Nat
  clLow : Nat
  lean : Bool
  leanCause : Nat
  /-- A change of clocking in progress: to lean, and a change that waits (R502). -/
  changing : Option Bool
  changeWaits : Option Bool
  twarn : Nat
  tj : SMap Int
  warned : List Nat
  thermLow : Bool
  tlean : Bool
  tleanBelow : Option Nat
  trips : List Nat
  tripBelow : Option Nat
  avs : SMap Avs
  rootLock : Bool
  /-- Lane reference clocks lost, as an 8-bit map (R500). -/
  refLost : Nat
  pwrGood : Bool
  gated : Bool
  deriving DecidableEq, Repr

/-- The power manager after reset: full clocking dividers, LIMIT 130 A, RESERVE 20 W, TWARN 100 °C, pipes gated. -/
def PowerSt.reset : PowerSt :=
  { vinMv := 0, iin := 0, band := 0, aonUp := false, uvloOk := false, ovp := false, limit := 1300, reserve := 20,
    precedence := [], held := 0, clHeld := [], clStep := 0, clAt := 0, clLow := 0, lean := false,
    leanCause := 0, changing := none, changeWaits := none, twarn := 100, tj := [], warned := [], thermLow := false,
    tlean := false, tleanBelow := none, trips := [], tripBelow := none, avs := [], rootLock := false,
    refLost := 0, pwrGood := false, gated := true }

/-! ### Time, the prompt book and the ledger (chapter 16) -/

/-- An entry of a timestamp ring (R475). -/
structure TsEntry where
  serial : Nat
  sec : Nat
  ns : Nat
  type : Nat
  domain : Nat
  seqid : Nat
  portnum : Nat
  deriving DecidableEq, Repr

/-- PTP on one lport (R473–R476). -/
structure PtpPort where
  enabled : Bool
  oneStep : Bool
  rxDelay : Int
  txDelay : Int
  rx : List TsEntry
  tx : List TsEntry
  rxNext : Nat
  txNext : Nat
  overwritten : Nat
  deriving DecidableEq, Repr

/-- An lport's PTP state at reset: off, no delays, empty rings. -/
def PtpPort.reset : PtpPort :=
  { enabled := false, oneStep := false, rxDelay := 0, txDelay := 0, rx := [], tx := [], rxNext := 0, txNext := 0,
    overwritten := 0 }

/-- The time unit (R465–R476). Network time is `sec`, `ns` and 40 fraction bits; frequencies are parts in 10^12. -/
structure TimeSt where
  /-- The tick at which the time unit left reset; the local nanosecond count runs from it (R299, R465). -/
  zero : Nat
  sec : Nat
  ns : Nat
  frac : Nat
  freq : Int
  /-- Outstanding slew in units of 2^-40 ns, signed (R469). -/
  slew : Int
  source : Nat
  state : Nat
  lastEdge : Option Nat
  edgeOffset : Option Int
  servoFreqs : List Int
  rejects : Nat
  rejectRun : Nat
  goodRun : Nat
  lastAdjust : Nat
  setSeconds : Option Nat
  tod : Option Nat
  ppsOut : Nat
  ppsWidth : Nat
  stepThreshold : Nat
  hostTimeout : Nat
  utcOffset : Int
  freqBound : Nat
  todBaud : Nat
  servoPinned : Bool
  ppsHigh : Option Nat
  calendar : Nat
  calTick : Nat
  ptp : SMap PtpPort
  deriving DecidableEq, Repr

/-- The time unit after reset: both clocks at 0, FREE, the defaults of R476. -/
def TimeSt.reset : TimeSt :=
  { zero := 0, sec := 0, ns := 0, frac := 0, freq := 0, slew := 0, source := 0, state := 0, lastEdge := none,
    edgeOffset := none, servoFreqs := [], rejects := 0, rejectRun := 0, goodRun := 0, lastAdjust := 0,
    setSeconds := none, tod := none, ppsOut := 0, ppsWidth := 100, stepThreshold := 1000, hostTimeout := 4,
    utcOffset := 37, freqBound := 100000000, todBaud := 9600, servoPinned := false, ppsHigh := none, calendar := 0,
    calTick := 0, ptp := [] }

/-- A record of the prompt book (R480, R481), and the extent that holds it. -/
structure BookRec where
  kind : Nat
  stage : Nat
  rseq : Nat
  sec : Nat
  ns : Nat
  flags : Nat
  body : List Byte
  ext : Nat
  deriving DecidableEq, Repr

/-- An extent of a ring: its number in the ring, the drive it lies on, and the bytes written to it (R478). -/
structure Extent where
  serial : Nat
  drive : Nat
  used : Nat
  deriving DecidableEq, Repr

/-- A ring of records of one stage and kind (R479): LIMIT and RETAIN_HINT, the next RSEQ, the next extent's number, a loss not yet
marked by GAP, the extents and the records, oldest first. -/
structure BookRing where
  limit : Nat
  retainHint : Nat
  next : Nat
  nextExt : Nat
  gap : Bool
  exts : List Extent
  recs : List BookRec
  deriving DecidableEq, Repr

/-- A ring nothing has configured: LIMIT 1 extent (log entry 25), no hint, empty. -/
def BookRing.reset : BookRing := { limit := 1, retainHint := 0, next := 0, nextExt := 0, gap := false, exts := [], recs := [] }

/-- A drive of the record store (R477, R478). `label`: 0 own, 1 blank or foreign, 2 UNUSABLE. -/
structure Drive where
  present : Bool
  label : Nat
  pct : Nat
  critical : Bool
  quiesced : Bool
  extents : Nat
  serial : Nat
  deriving DecidableEq, Repr

/-- A frame held by a capture session (R483, R484): the linear network time at which the pool accepted it, its punt header and the
bytes kept of it. -/
structure CapFrame where
  at_ : Nat
  header : List Byte
  data : List Byte
  deriving DecidableEq, Repr

/-- A capture session (R483, R486). State: 0 IDLE, 1 ARMED, 2 TRIGGERED, 3 WRITING. -/
structure Capture where
  configured : Bool
  state : Nat
  hostq : Nat
  snapLen : Nat
  pre : Nat
  post : Nat
  postTime : Nat
  rearm : Bool
  triggers : List Nat
  before : List CapFrame
  after : List CapFrame
  triggeredAt : Nat
  truncated : Bool
  /-- A word of it was found damaged (R338). -/
  damaged : Bool
  deriving DecidableEq, Repr

/-- A capture session never configured. -/
def Capture.reset : Capture :=
  { configured := false, state := 0, hostq := 0, snapLen := 64, pre := 0, post := 0, postTime := 0, rearm := false,
    triggers := [], before := [], after := [], triggeredAt := 0, truncated := false, damaged := false }

/-- A flow entry (R485). -/
structure FlowEntry where
  key : List Byte
  inLport : Nat
  packets : Nat
  bytes : Nat
  firstT : Nat
  lastT : Nat
  startedAt : Nat
  deriving DecidableEq, Repr

/-- A flow session (R485, R486); `cap` entries of 128 bytes fit its part of the FLOW share. -/
structure FlowSession where
  configured : Bool
  hostq : Nat
  fields : List (Nat × Nat)
  keyLport : Bool
  idle : Nat
  active : Nat
  entries : List FlowEntry
  deriving DecidableEq, Repr

/-- A flow session never configured: the default timeouts of R485. -/
def FlowSession.reset : FlowSession :=
  { configured := false, hostq := 0, fields := [], keyLport := false, idle := 15, active := 60, entries := [] }

/-- A ledger log record (R487, R488). -/
structure LedgerRec where
  type : Nat
  lseq : Nat
  calendar : Nat
  sector : Nat
  body : List Byte
  deriving DecidableEq, Repr

/-- The prompt book and the ledger (R477–R491). -/
structure RecordSt where
  drives : SMap Drive
  shares : SMap Nat
  /-- Keyed stage × 8 + kind. -/
  rings : SMap BookRing
  /-- Keyed stage × 4 + session. -/
  captures : SMap Capture
  /-- Keyed stage × 2 + session. -/
  flows : SMap FlowSession
  snapInterval : Nat
  lastSnap : Nat
  /-- Events and fault records posted and not yet written as JOURNAL records (R481): the stage and the content. -/
  toJournal : List (Nat × List Byte)
  ledger : List LedgerRec
  nextLseq : Nat
  /-- The head as a byte of the LOG; the tail as a sector. -/
  head : Nat
  tail : Nat
  erases : SMap Nat
  retiredSectors : List Nat
  wearPosted : Bool
  torn : Nat
  /-- Training cache entries, keyed by channel (R339, R487). -/
  training : SMap Nat
  /-- The last backup: calendar seconds and status; the ticks of the last backup, CHECKPOINT, LANE_TREND and DRAM_ECS. -/
  lastBackup : Option (Nat × Nat)
  backupAt : Nat
  checkpointAt : Nat
  trendAt : Nat
  ecsAt : Nat
  /-- Powered seconds per mode, and the tick up to which they are counted. -/
  poweredSecs : SMap Nat
  accountedAt : Nat
  energy : Nat
  takeovers : Nat
  deriving DecidableEq, Repr

/-- The prompt book and the ledger of a device that has recorded nothing. The ledger itself outlives every reset. -/
def RecordSt.reset : RecordSt :=
  { drives := [], shares := [], rings := [], captures := [], flows := [], snapInterval := 0, lastSnap := 0, toJournal := [],
    ledger := [], nextLseq := 0, head := 0, tail := 512, erases := [], retiredSectors := [], wearPosted := false,
    torn := 0, training := [], lastBackup := none, backupAt := 0, checkpointAt := 0, trendAt := 0, ecsAt := 0, poweredSecs := [],
    accountedAt := 0, energy := 0, takeovers := 0 }

/-! ### Surroundings (chapter 18) -/

/-- A cage entry of the playbill (R522). -/
structure Cage where
  port : Nat
  txMap : Nat
  rxMap : Nat
  txPol : Nat
  rxPol : Nat
  maxPower : Nat
  deriving DecidableEq, Repr

/-- A zone of the playbill (R521). -/
structure Zone where
  number : Nat
  hot : Nat
  cages : Nat
  raised : Bool
  deriving DecidableEq, Repr

/-- What a module's pages say of it (R524–R526): SFF-8024 identifier, identity bytes, power in 0.25 W, serial, and the
Application Descriptors as (host interface ID, host lane count, host lane assignment mask). -/
structure ModuleId where
  identifier : Nat
  cmis : Bool
  vendor : List Byte
  part : List Byte
  serial : Nat
  firmware : Nat
  power : Nat
  apps : List (Nat × Nat × Nat)
  /-- MaxDurationModulePwrUp and MaxDurationDPInit, in ms. -/
  pwrUpMs : Nat
  dpInitMs : Nat
  deriving DecidableEq, Repr

/-- A module in a cage (R518–R531). `step` is the bring-up step of R525; `since` when it began. -/
structure Module where
  state : Nat
  step : Nat
  since : Nat
  /-- The limit of the step in progress, in ticks (R525). -/
  limit : Nat
  rstLow : Bool
  lpmHigh : Bool
  id : Option ModuleId
  temp : Int
  faultCause : Nat
  /-- The AppSel chosen for each sub-port, by its first lane; absent where none qualifies (R526). -/
  appSel : SMap Nat
  pages : SMap Byte
  deriving DecidableEq, Repr

/-- An empty cage: CG_RST_N low and CG_LPM high from power-up (R519). -/
def Module.absent : Module :=
  { state := 0, step := 0, since := 0, limit := 0, rstLow := true, lpmHigh := true, id := none, temp := 0, faultCause := 0,
    appSel := [], pages := [] }

/-- The playbill in use and the modules (R518–R534). -/
structure SurroundSt where
  /-- Cage entries that differ from the default, keyed by cage; `cagesGiven` says a CAGES record is in use. -/
  cagesGiven : Bool
  cages : SMap Cage
  zones : List Zone
  buses : List Nat
  smbusAddr : Nat
  bifurcation : Nat
  board : List Byte
  modules : SMap Module
  busRecover : SMap Nat
  deriving DecidableEq, Repr

/-- The surroundings before any playbill is read: the defaults of R523. -/
def SurroundSt.reset : SurroundSt :=
  { cagesGiven := false, cages := [], zones := [], buses := [1, 1, 1, 1, 1, 1, 1, 1], smbusAddr := 0x5D, bifurcation := 0,
    board := [], modules := [], busRecover := [] }

/-! ### Counters, snapshots and the windows of BAR0 (chapters 19, 20) and the test access port (21) -/

/-- One snapshot bank (R544): SNAP_ID, TIME, the event counters and lport statistics copied. -/
structure Bank where
  id : Nat
  time : Nat
  events : SMap Nat
  stats : SMap Nat
  deriving DecidableEq, Repr

/-- A bank before its first snapshot: zero (R544). -/
def Bank.reset : Bank := { id := 0, time := 0, events := [], stats := [] }

/-- A requester of a snapshot waiting for its SNAP_ID (R442, R543): mailbox lane and command identity, or the register. -/
structure SnapWaiter where
  mb : Nat
  urgent : Bool
  ring : Option Nat
  tag : Nat
  seq : Nat
  deriving DecidableEq, Repr

/-- Event counters, snapshots and windows (R535–R566, R579). -/
structure CountSt where
  /-- Event e of stage s in tile t (8: control die), keyed (t × 8 + s) × 256 + e; 48 bits (R540, R541). -/
  events : SMap Nat
  bank0 : Bank
  bank1 : Bank
  newest : Option Nat
  lastWritten : Option Nat
  nextId : Nat
  snapAt : Option Nat
  snapWaiters : List SnapWaiter
  copyEnd : Option Nat
  copyBank : Nat
  copyWaiters : List SnapWaiter
  pin : Option (Nat × Nat)
  pinned : Nat
  pinUsed : Bool
  pinLost : Bool
  scratch : Nat
  resetArmed : Option Nat
  /-- One latch a block view: the higher DWORDs last latched (R548). -/
  latches : SMap (List Nat)
  diagPermit : Bool
  diagTarget : Nat
  diagData : List Nat
  /-- A DIAG operation in progress: its status; and the word a READ took (R564). -/
  diagBusy : Option Nat
  diagStatus : Nat
  diagRead : Option Nat
  /-- Holding registers of the UCS window: word address and DWORD (R565). -/
  ucsHold : List (Option (Nat × Nat))
  ucsRefused : Bool
  ucsCause : Nat
  ucsWords : Nat
  /-- The DWORD that the last modelled read of BAR0 returned to the host. -/
  readData : Nat
  /-- The TAP controller (R579): its state, the kind of instruction in force, the register being shifted (the bit next to TDO first), the
  boundary cells in force, the level TDO drives, and whether the cells drive the balls. -/
  tapState : Nat
  tapInst : Nat
  tapShift : List Bool
  tapCells : List Bool
  tapTdo : Bool
  tapDrives : Bool
  deriving DecidableEq, Repr

/-- Counters and windows after reset: everything zero. -/
def CountSt.reset : CountSt :=
  { events := [], bank0 := Bank.reset, bank1 := Bank.reset, newest := none, lastWritten := none, nextId := 1, snapAt := none,
    snapWaiters := [], copyEnd := none, copyBank := 0, copyWaiters := [], pin := none, pinned := 0,
    pinUsed := false, pinLost := false, scratch := 0, resetArmed := none, latches := [], diagPermit := false, diagTarget := 0,
    diagData := [0, 0, 0, 0], diagBusy := none, diagStatus := 0, diagRead := none,
    ucsHold := [none, none, none], ucsRefused := false, ucsCause := 0, ucsWords := 0,
    readData := 0, tapState := 0, tapInst := 0, tapShift := [], tapCells := [], tapTdo := false, tapDrives := false }

end Sys2Proof.Machine
end

