-- ==== Sys2Proof/Machine/StHost.lean ====
section
/-! DEFINITION. The state of the host path: mailboxes, interrupt block, ring pairs and the buffer pool manager
(chapter 13, R378–R413). -/
namespace Sys2Proof.Machine

/-- A message in an intake queue (R384): the doorbell's SEQ and LEN, the bytes copied, and the time from which firmware sees it. -/
structure InMsg where
  seq : Nat
  len : Nat
  bytes : List Byte
  visibleAt : Nat
  deriving DecidableEq, Repr

/-- An event posted to a mailbox and not yet written to its area (R389). `completion` events are never dropped (R419). -/
structure EvRec where
  code : Nat
  level : Nat
  unit : Nat
  time : Nat
  tag : Nat
  status : Nat
  payload : List Byte
  completion : Bool
  deriving DecidableEq, Repr

/-- A response waiting for its response area (R386): the command's opcode, tag and SEQ, the stage, the status and the payload. -/
structure Rsp where
  opcode : Nat
  tag : Nat
  seq : Nat
  stage : Nat
  status : Nat
  payload : List Byte
  deriving DecidableEq, Repr

/-- A command answered ACCEPTED and not yet completed (R418, R419, R432). `pair` is the WORK ring it came from. -/
structure Outst where
  opcode : Nat
  tag : Nat
  seq : Nat
  acceptedAt : Nat
  pair : Option Nat
  replaySafe : Bool
  payload : List Byte
  deriving DecidableEq, Repr

/-- One mailbox (R381–R391). Its areas are bytes of BAR0 and stand in `HostSt.areas`. -/
structure Mailbox where
  /-- MB_STATUS ENABLED (R383, R391). -/
  enabled : Bool
  /-- MB_STATUS DB_REJECT and REJ_CAUSE (R383). -/
  dbReject : Bool
  rejCause : Nat
  /-- The times at which CMD_BUSY and UCMD_BUSY clear (R384). -/
  cmdBusyUntil : Nat
  ucmdBusyUntil : Nat
  /-- The intake queue, first in first out (R384). -/
  intake : List InMsg
  /-- The urgent intake of one message, and whether an urgent message is unanswered (R388). -/
  urgIntake : Option InMsg
  urgBusy : Bool
  /-- MB_STATUS RSP_VALID and URSP_VALID (R383). -/
  rspValid : Bool
  urspValid : Bool
  /-- MB_RSP and MB_URSP (R382). -/
  rspSeq : Nat
  rspLen : Nat
  urspSeq : Nat
  urspLen : Nat
  /-- MB_NEXT_SEQ and MB_NEXT_USEQ: ANY and the SEQ expected (R382). -/
  any : Bool
  nextSeq : Nat
  uany : Bool
  nextUseq : Nat
  /-- MB_EVT_PROD and MB_EVT_CONS (R382). -/
  evtProd : Nat
  evtCons : Nat
  /-- EVSEQ of the next record written (R389). -/
  evSeq : Nat
  /-- Events posted and not yet written, in order; events dropped since the last record written (R389). -/
  posted : List EvRec
  dropped : Nat
  /-- Responses waiting for the response area of each lane (R386). -/
  responses : List Rsp
  uresponses : List Rsp
  /-- Accepted and uncompleted commands (R419). -/
  outstanding : List Outst
  deriving DecidableEq, Repr

/-- A mailbox after reset (R382, R383, R389). -/
def Mailbox.reset : Mailbox :=
  { enabled := false, dbReject := false, rejCause := 0, cmdBusyUntil := 0, ucmdBusyUntil := 0, intake := [],
    urgIntake := none, urgBusy := false, rspValid := false, urspValid := false, rspSeq := 0, rspLen := 0,
    urspSeq := 0, urspLen := 0, any := true, nextSeq := 0, uany := true, nextUseq := 0, evtProd := 0, evtCons := 0,
    evSeq := 0, posted := [], dropped := 0, responses := [], uresponses := [], outstanding := [] }

/-- One MSI-X vector of the interrupt block (R380): its table entry, its pending bit, IRQ_CAUSE and IRQ_MOD, the causes
accumulated and the time of the first not yet signalled, and how often it has fired. -/
structure IrqVec where
  addr : Nat
  data : Nat
  masked : Bool
  pba : Bool
  cause : Nat
  holdoff : Nat
  count : Nat
  acc : Nat
  firstAt : Option Nat
  fired : Nat
  deriving DecidableEq, Repr

/-- A vector after reset: masked, IRQ_MOD 0 (R380). -/
def IrqVec.reset : IrqVec :=
  { addr := 0, data := 0, masked := true, pba := false, cause := 0, holdoff := 0, count := 0, acc := 0,
    firstAt := none, fired := 0 }

/-- What has become of a fetched ring item (R395–R402). -/
inductive ItemPhase where
  /-- Fetched; nothing started. -/
  | waiting
  /-- An INJECT frame handed to a tile. -/
  | inTile
  /-- An INJECT frame whose fate is known (FATE of R397). -/
  | fated (fate : Nat)
  /-- A WORK message fetched and not yet taken (R400). -/
  | reserved
  /-- A WORK command that firmware has taken and not yet answered (R400). -/
  | held
  deriving DecidableEq, Repr

/-- A fetched submission entry whose completion entry is reserved (R395). -/
structure Item where
  id : Nat
  entry : List Byte
  phase : ItemPhase
  /-- The handle of the pool buffer held, if any (R407). -/
  buffer : Option Nat
  deriving DecidableEq, Repr

/-- One ring pair (R392–R404). -/
structure Ring where
  sqBase : Nat
  cqBase : Nat
  stage : Nat
  kind : Nat
  hostq : Nat
  assigned : Bool
  logSize : Nat
  vector : Nat
  poll : Nat
  flush : Option Nat
  enable : Bool
  state : Nat
  errCause : Nat
  flushDone : Bool
  sqProd : Nat
  sqCons : Nat
  cqProd : Nat
  cqCons : Nat
  items : List Item
  /-- The response of a WORK item in service, until it is written to RSP_ADDR (R400). -/
  answer : Option Rsp
  /-- Completions written per code (R412). -/
  completions : SMap Nat
  fetched : Nat
  bytesMoved : Nat
  /-- The earliest tick of the next poll (R395). -/
  nextPoll : Nat
  deriving DecidableEq, Repr

/-- A ring pair after reset (R392–R394: RING_POLL 100, LOG_SIZE 6, everything else 0). -/
def Ring.reset : Ring :=
  { sqBase := 0, cqBase := 0, stage := 0, kind := 0, hostq := 0, assigned := false, logSize := 6, vector := 0,
    poll := 100, flush := none, enable := false, state := 0, errCause := 0, flushDone := false, sqProd := 0,
    sqCons := 0, cqProd := 0, cqCons := 0, items := [], answer := none, completions := [], fetched := 0, bytesMoved := 0, nextPoll := 0 }

/-- Bulk data of a command on its way into a DUMP pair's buffers (R400): the mailbox and opcode of the command it completes,
its TAG, the bytes left and the next fragment's number. -/
structure DumpJob where
  pair : Nat
  mb : Nat
  opcode : Nat
  tag : Nat
  left : List Byte
  fragment : Nat
  deriving DecidableEq, Repr

/-- An allocated pool buffer (R405–R410). Owners are numbered 0–63 ring pairs, 64–71 mailboxes, 72 the recorder. -/
structure Buffer where
  owner : Nat
  stage : Nat
  gen : Nat
  since : Nat
  retained : Bool
  warned : Bool
  quarantined : Bool
  data : List Byte
  deriving DecidableEq, Repr

/-- An owner's cap and age limits (R406, R408), in KiB and ms. -/
structure OwnerLimits where
  capKiB : Nat
  ageWarn : Nat
  ageReclaim : Nat
  deriving DecidableEq, Repr

/-- The buffer pool manager (R405–R410). Buffers are keyed by POOL × 16,384 + INDEX. -/
structure Pools where
  counts : List Nat
  buffers : SMap Buffer
  gens : SMap Nat
  /-- Quotas of the side stages in KiB; S0 holds the rest (R406). -/
  quotas : SMap Nat
  limits : SMap OwnerLimits
  /-- Time of each pool's last POOL_FALLBACK (R413). -/
  lastFallback : SMap Nat
  /-- POOL buffers withdrawn by an uncorrectable word until the next LOAD (R410). -/
  withdrawn : List Nat
  deriving DecidableEq, Repr

/-- The pools after reset: the default counts of R405, every quota and cap at its default. -/
def Pools.reset : Pools :=
  { counts := [16384, 8192, 1228, 256], buffers := [], gens := [], quotas := [], limits := [], lastFallback := [],
    withdrawn := [] }

/-- The host path (R378–R413). -/
structure HostSt where
  /-- Mailboxes by number, 0–7. -/
  mbs : SMap Mailbox
  /-- Bytes of the mailbox areas, keyed by BAR0 offset (R381). -/
  areas : Memory
  /-- IRQ_MAP of the sources (R380), reset 0. -/
  irqMap : SMap Nat
  /-- Vectors by number, 0–63. -/
  vecs : SMap IrqVec
  /-- Ring pairs by number, 0–63. -/
  rings : SMap Ring
  pools : Pools
  dumps : List DumpJob
  /-- Who took the last frame of a host queue (R398, R483): 0–63 ring pairs, 64–67 capture sessions, 68–69 flow sessions; keyed stage × 8 + queue. -/
  puntRot : SMap Nat
  /-- Captured frames that wait for their survey (R219): the buffer's key and stage × 4 + session. -/
  capWait : List (Nat × Nat)
  /-- Host memory as the device has written it (R401); unlisted bytes have not been written by the device. -/
  hostMem : Memory
  /-- The PCIe link is up; a host path reset whose link return is not yet reported (R379). -/
  linkUp : Bool
  resetUnreported : Bool
  perstLow : Bool
  /-- MB5's SMBus offset (R390), and the data of the last block read. -/
  smbOffset : Nat
  smbRead : List Byte
  smbHeld : Bool
  deriving DecidableEq, Repr

/-- The host path after reset. -/
def HostSt.reset : HostSt :=
  { mbs := [], areas := [], irqMap := [], vecs := [], rings := [], pools := Pools.reset, dumps := [], puntRot := [], capWait := [], hostMem := [], linkUp := false,
    resetUnreported := false, perstLow := false, smbOffset := 0, smbRead := [], smbHeld := false }

end Sys2Proof.Machine
end

