-- ==== Sys2Proof/Machine/StPort.lean ====
section
/-! DEFINITION. The state of ports, lanes and link health (chapter 2). -/
namespace Sys2Proof.Machine

/-- A width change in progress (R59–R61): the pairs that will be out once it completes, and whether it restores one. -/
structure WidthStep where
  target : Nat
  restoring : Bool
  deriving DecidableEq, Repr

/-- One window of the link-health counters (R62): codewords received, codewords corrected, symbols corrected, codewords not
corrected. Each saturates at 32 bits. -/
structure HealthWin where
  cw : Nat
  corr : Nat
  sym : Nat
  unc : Nat
  deriving DecidableEq, Repr

/-- An empty window. -/
def HealthWin.zero : HealthWin := { cw := 0, corr := 0, sym := 0, unc := 0 }

/-- One sub-port, by its lport (R66, R73, R74): its 64-bit configuration record as PORT.CONFIG gave it, none while no record
claims it; OPER and the cause of DOWN; the lane rate in use; the start of training. -/
structure Lport where
  cfg : Option Nat
  oper : Nat
  cause : Nat
  rate : Nat
  trainSince : Nat
  /-- Lane pairs removed (bit j), a change in progress, and since when each removed pair has run without a fault (R58–R61). -/
  lanesOut : Nat
  step : Option WidthStep
  pairSince : SMap Nat
  /-- Link health (R62, R63, R75): DEGRADED, the window in progress and its start, the last complete window and its end, windows. -/
  deg : Bool
  win : HealthWin
  winStart : Nat
  last : HealthWin
  lastEnd : Nat
  windows : Nat
  /-- Probation (R64, R65): its end, and whether the next link-up enters it at once. -/
  probEnd : Option Nat
  probOnUp : Bool
  /-- Peer mode (R55, R57): up, the tick of the last hello, of the last hello sent, SEQ, the partner's WIDTH_CAP, the last EPOCH. -/
  peerUp : Bool
  lastHello : Option Nat
  helloSent : Nat
  helloSeq : Nat
  peerWidth : Bool
  epoch : Nat
  /-- The hop-latency histogram (R57). -/
  hist : SMap Nat
  /-- A loopback (R71): 0 none, 1 near-end PCS, 2 far-end SerDes. -/
  loop : Nat
  /-- The last frame the transmit MAC put on the wire. -/
  lastTx : List Byte
  deriving DecidableEq, Repr

/-- A sub-port no record claims: DOWN. -/
def Lport.reset : Lport :=
  { cfg := none, oper := 0, cause := 0, rate := 0, trainSince := 0, lanesOut := 0, step := none, pairSince := [], deg := false,
    win := HealthWin.zero, winStart := 0, last := HealthWin.zero, lastEnd := 0, windows := 0, probEnd := none, probOnUp := false,
    peerUp := false, lastHello := none, helloSent := 0, helloSeq := 0, peerWidth := false, epoch := 0, hist := [], loop := 0,
    lastTx := [] }

/-- One lane (R68, R69, R72): its fused limits and bounds, in the order of PORT.SERDES_BOUNDS (TX_PRE2_MAX, TX_PRE1_MAX, TX_POST_MAX,
TX_MAIN_MIN, CTLE_MIN, CTLE_MAX, DFE_TAPS, DFE_MAX); the settings in use (pre-cursors, post-cursor, main cursor, peaking, taps enabled,
largest tap); when each loop was last pinned; PRBS pattern generated and checked (0 off), and the checker's lock and counts. -/
structure LaneSt where
  fuse : List Nat
  bounds : List Nat
  taps : List Nat
  pinned : SMap Nat
  gen : Nat
  chk : Nat
  locked : Bool
  bits : Nat
  errors : Nat
  deriving DecidableEq, Repr

/-- The widest codes of each field (R69). -/
def laneFull : List Nat := [31, 63, 63, 0, 0, 31, 12, 127]

/-- A lane at reset: bounds at the fused limits (log entry for the limits), taps at rest. -/
def LaneSt.reset : LaneSt :=
  { fuse := laneFull, bounds := laneFull, taps := [0, 0, 0, 0, 0, 0, 0], pinned := [], gen := 0, chk := 0, locked := false, bits := 0,
    errors := 0 }

/-- Ports, lanes and statistics. -/
structure PortSt where
  lports : SMap Lport
  lanes : SMap LaneSt
  /-- The 48 statistics of each lport, 64 bits each, keyed lport × 64 + index (R52). -/
  stats : SMap Nat
  deriving DecidableEq, Repr

/-- No port configured (R512). -/
def PortSt.reset : PortSt := { lports := [], lanes := [], stats := [] }

end Sys2Proof.Machine
end

