-- ==== Sys2Proof/Machine/StSwitch.lean ====
section
/-! DEFINITION. The state of packets, the switch core, queues, shapers and gates (chapters 1, 9 and 10). -/
namespace Sys2Proof.Machine

/-- The packet context (R25). -/
structure Ctx where
  stage : Nat
  ver : Nat
  inLport : Nat
  exit : Nat
  tc : Nat
  col : Nat
  seq : Nat
  len : Nat
  nhop : Nat
  editEntry : Nat
  pxCode : Nat
  ct : Bool
  spec : Bool
  mir : Bool
  smp : Bool
  unscanned : Bool
  learnProv : Bool
  px : Bool
  late : Bool
  mc : Bool
  tsIn : Nat
  deriving DecidableEq, Repr

/-- A context with nothing in it. -/
def Ctx.zero : Ctx :=
  { stage := 0, ver := 0, inLport := 0, exit := 0, tc := 0, col := 0, seq := 0, len := 0, nhop := 0, editEntry := 0, pxCode := 0,
    ct := false, spec := false, mir := false, smp := false, unscanned := false, learnProv := false, px := false, late := false,
    mc := false, tsIn := 0 }

/-- The parse result (R86) and the key vector (R85). -/
structure ParseRes where
  flags : Nat
  px : Bool
  pxCode : Nat
  nodes : Nat
  lastNode : Nat
  marked : Nat
  hdrOff : List Nat
  slotValid : Nat
  slots : SMap Nat
  deriving DecidableEq, Repr

/-- The parse result before a walk. -/
def ParseRes.zero : ParseRes :=
  { flags := 0, px := false, pxCode := 0, nodes := 0, lastNode := 0, marked := 0, hdrOff := [0, 0, 0, 0, 0, 0, 0, 0], slotValid := 0,
    slots := [] }

/-- What the lookups and matches found for a packet (R146, R157, R162, R211). -/
structure LookRes where
  /-- 0 bridged, 4, 6 (R138). -/
  routed : Nat
  rd : Nat
  hitKind : Nat
  plen : Nat
  rangeBits : Nat
  patternW : Nat
  action : Nat
  /-- The exit the lookup chose before any trap or redirect (R399). -/
  origExit : Nat
  /-- A next-hop TRAP took the packet to the host; REASON of R399. -/
  reason : Nat
  /-- Why the pipe drops it: 0 not, 1 rule, 2 next hop, 3 scan fallback, 4 recirculation limit, 5 policer, 6 bad tail, 7 multicast
  miss, 8 static action. -/
  drop : Nat
  /-- The MACs of the next hop (R119, R231). -/
  dmac : Nat
  smac : Nat
  /-- TILE_MAP of a multicast group (R121). -/
  tileMap : Nat
  /-- Counters to count (R122), and a host copy of FWD COPY (R162). -/
  ctrs : List Nat
  copyTo : Option Nat
  /-- The class before the host result and the rules (R164, R206). -/
  tc0 : Nat
  deriving DecidableEq, Repr

/-- Nothing found. -/
def LookRes.zero : LookRes :=
  { routed := 0, rd := 0, hitKind := 0, plen := 0, rangeBits := 0, patternW := 0, action := 0, origExit := 0, reason := 8, drop := 0,
    dmac := 0, smac := 0, tileMap := 0, ctrs := [], copyTo := none, tc0 := 0 }

/-- A forwarding scan (R206–R209): the window, strides, latest start, and 0 none, 1 queued, 2 done or decided. -/
structure Scan where
  st : Nat
  mode : Nat
  fallback : Nat
  hostq : Nat
  b : Nat
  e : Nat
  n : Nat
  latest : Nat
  add : Nat
  deriving DecidableEq, Repr

/-- No scan. -/
def Scan.none : Scan := { st := 0, mode := 0, fallback := 0, hostq := 0, b := 0, e := 0, n := 0, latest := 0, add := 0 }

/-- A metering to be adjusted when the tail arrives (R302): policer, the buckets charged (bit 0 C, bit 1 E or P), the substitute
length, and the policer's refill count when it was made. -/
structure Metered where
  policer : Nat
  buckets : Nat
  subst : Nat
  refills : Nat
  deriving DecidableEq, Repr

/-- Where a host-injected packet came from (R397): ring pair, item ID, LOOKUP, and the descriptor's RD. -/
structure Inj where
  ring : Nat
  id : Nat
  lookup : Bool
  rd : Nat
  deriving DecidableEq, Repr

/-- A packet's place in the device. -/
inductive Phase where
  /-- Waiting in the port FIFO, the recirculation input or the host-injection input. -/
  | fifo
  /-- In a pipe: placed, parsed, looked up, its scan decided and its key searched. -/
  | placed
  | parsed
  | lookedUp
  | matched
  /-- Confirmed at PCLK 45 and held by the reorder unit; `grant` for a confirmed speculative grant. -/
  | done
  /-- In a VOQ, in the fold or re-entered; in the far pasture. -/
  | queued
  | far
  /-- Granted: cells launch (from the ingress fold). -/
  | granted
  /-- Every cell launched and on its way or in egress staging. -/
  | crossed
  /-- A multicast frame in an egress tile's hold is replaced by its copies; a copy queued locally. -/
  | localCopy
  /-- In a dresser, its program not yet run; run, waiting in the output stage; with the MAC. -/
  | dresser
  | edited
  | mac
  /-- Dropped or discarded before its tail arrived: nothing of it is held, and its verdict is still awaited. -/
  | tail
  deriving DecidableEq, Repr

/-- A packet. -/
structure Pkt where
  phase : Phase
  /-- Ingress tile and source: 0–47 its lports, 48 recirculation, 49 host injection (R21); 50 for a mirror or sample copy (R274). -/
  tile : Nat
  src : Nat
  /-- The frame as presented to the tile, FCS included; will its tail prove bad; the PCLK of its last byte (R31); its verdict. -/
  frame : List Byte
  bad : Bool
  tailAt : Nat
  verdict : Option Bool
  /-- PCLK delay by the adders of R20; the pipe; recirculation passes; the peer tag's 48 bits; a default tag inserted. -/
  adder : Nat
  pipe : Nat
  passes : Nat
  peer : Option Nat
  tagIns : Bool
  inj : Option Inj
  /-- The context, and what it becomes at PCLK 45 (R28): until then the exit and class are those of the speculative request. -/
  ctx : Ctx
  fin : Ctx
  pr : ParseRes
  lk : LookRes
  scan : Scan
  /-- Speculation (R27–R29): 0 none, 1 issued, 2 granted, 3 deferred, 4 cancelled, 5 confirmed. -/
  spec : Nat
  metered : Option Metered
  /-- Tick at which the reorder unit began to hold it. -/
  heldAt : Nat
  /-- Cells charged: VOQ_MIN, LPORT_MIN, shared, headroom, re-entry reserve (R276, R283). -/
  cVoq : Nat
  cLport : Nat
  cShared : Nat
  cHead : Nat
  reentered : Bool
  /-- Egress (R265–R272): the tile that takes it, the multicast tiles still to take it, a copy of a replication entry. -/
  egress : Nat
  mcLeft : Nat
  copy : Bool
  launched : Nat
  arrived : Nat
  dresser : Nat
  /-- The frame's bytes without FCS after the edit; microword-cycles used; exception code and sub-code. -/
  out : List Byte
  cycles : Nat
  exc : Nat
  excSub : Nat
  /-- A stomp's cause (R254): 0 none, 1 bad tail, 2 flush, 3 cell error. -/
  stomp : Nat
  /-- Its lport was flushed, or its drain expired, while its cells were in transit. -/
  cut : Bool
  /-- A word of it was damaged in the far pasture (R338). -/
  damaged : Bool
  /-- What a grant must put back when it is returned (R267, R268): the lport's committed end, the queue's rotation, and whether another
  queue of the lport was passed over. -/
  busyBefore : Nat
  rotBefore : Nat
  passed : Bool
  /-- The multicast hold entry a copy reads (R272); 0 for none. -/
  hold : Nat
  /-- For a mirror or sample copy, 1 more than the number of the packet it was made of, whose verdict it shares (R274). -/
  origin : Nat
  deriving DecidableEq, Repr

/-- A packet nothing is known of. -/
def Pkt.zero : Pkt :=
  { phase := .fifo, tile := 0, src := 0, frame := [], bad := false, tailAt := 0, verdict := none, adder := 0, pipe := 0, passes := 0,
    peer := none, tagIns := false, inj := none, ctx := Ctx.zero, fin := Ctx.zero, pr := ParseRes.zero, lk := LookRes.zero, scan := Scan.none,
    spec := 0, metered := none, heldAt := 0, cVoq := 0, cLport := 0, cShared := 0, cHead := 0, reentered := false, egress := 0,
    mcLeft := 0, copy := false, launched := 0, arrived := 0, dresser := 0, out := [], cycles := 0, exc := 0, excSub := 0, stomp := 0,
    cut := false, damaged := false, busyBefore := 0, rotBefore := 8, passed := false, hold := 0, origin := 0 }

/-- A source of a tile (R21–R23): its pipe pointer, the next sequence number, the next to release, numbers returned or closed, and
gaps closed whose packets are late. -/
structure Source where
  pointer : Nat
  nextSeq : Nat
  release : Nat
  returned : List Nat
  closed : List Nat
  deriving DecidableEq, Repr

/-- A source at reset: everything zero (log entry 3). -/
def Source.reset : Source := { pointer := 0, nextSeq := 0, release := 0, returned := [], closed := [] }

/-- A shaper (R309–R311): SHAPE_EN, rate and burst as written and as in effect, tokens in 2^-16 bytes, the local time of the refill that
applied what is in effect, and the tick of a write not yet applied. -/
structure Shaper where
  en : Bool
  rate : Nat
  burst : Nat
  effEn : Bool
  effRate : Nat
  effBurst : Nat
  tokens : Int
  appliedAt : Nat
  writtenAt : Option Nat
  deriving DecidableEq, Repr

/-- A shaper at reset: disabled (R320, R321). -/
def Shaper.reset : Shaper :=
  { en := false, rate := 0, burst := 0, effEn := false, effRate := 0, effBurst := 0, tokens := 0, appliedAt := 0, writtenAt := none }

/-- An egress class queue (R264, R305–R307): LEVEL, QUANTUM, DC, its shaper, the rotation over source tiles (8: local copies), and
its local copies. -/
structure EQueue where
  level : Nat
  quantum : Nat
  dc : Int
  shaper : Shaper
  rot : Nat
  copies : List Nat
  deriving DecidableEq, Repr

/-- Queues 0–6 at reset: level 0, QUANTUM 6 (R305). -/
def EQueue.reset : EQueue := { level := 0, quantum := 6, dc := 0, shaper := Shaper.reset, rot := 8, copies := [] }

/-- A cue sheet (R313): BASE in linear nanoseconds, CYCLE, entries of GATES and DURATION; COUNT 0 holds every gate open. -/
structure CueSheet where
  base : Nat
  cycle : Nat
  entries : List (Nat × Nat)
  deriving DecidableEq, Repr

/-- The sheet of every lport at reset (R313). -/
def CueSheet.open_ : CueSheet := { base := 0, cycle := 1000, entries := [] }

/-- The egress of an lport (R265, R309, R315, R318, R321, R291). -/
structure Egress where
  shaper : Shaper
  /-- REFILL_EXP as written and as in effect, and the local time of the last refill. -/
  refillExp : Nat
  effExp : Nat
  refilledAt : Nat
  lineBytes : Bool
  gbPad : Nat
  /-- Rotation pointers of the four levels (R306). -/
  pointers : List Nat
  /-- The frame whose cells are being launched (R265), and the committed end in ticks (R315). -/
  frame : Option Nat
  busyUntil : Nat
  sheet : CueSheet
  /-- The pending sheet and its switch time S in linear nanoseconds (R318). -/
  pending : Option (CueSheet × Nat)
  gates : Nat
  /-- LPORT_MIN, HEADROOM, XON_GAP, PAUSE_WD (R291). -/
  lportMin : Nat
  headroom : Nat
  xonGap : Nat
  pauseWd : Nat
  /-- Frames in the output stage, in the order of assignment (R227). -/
  outOrder : List Nat
  deriving DecidableEq, Repr

/-- An lport's egress at reset: the defaults of R291 and R321, every gate open. -/
def Egress.reset : Egress :=
  { shaper := Shaper.reset, refillExp := 2, effExp := 2, refilledAt := 0, lineBytes := false, gbPad := 64, pointers := [0, 0, 0, 0], frame := none, busyUntil := 0,
    sheet := CueSheet.open_, pending := none, gates := 255, lportMin := 64, headroom := 0, xonGap := 64, pauseWd := 100,
    outOrder := [] }

/-- A class held paused by the partner (R50, R287): until when, since when, and whether watchdog discard has begun. -/
structure Pause where
  until_ : Nat
  since : Nat
  watchdog : Bool
  deriving DecidableEq, Repr

/-- Class settings of a stage (R290). -/
structure ClassCfg where
  voqMin : Nat
  alphaExp : Int
  dtMin : Nat
  dtMax : Nat
  spillEn : Bool
  spillOn : Nat
  spillOff : Nat
  deriving DecidableEq, Repr

/-- The defaults of R290. -/
def ClassCfg.reset : ClassCfg :=
  { voqMin := 4, alphaExp := 0, dtMin := 0, dtMax := 262143, spillEn := false, spillOn := 2048, spillOff := 1024 }

/-- A policer in one tile (R299, R304): the buckets in 2^-16 tokens, the local time of its last update, the fractions carried, its
refill count, and its counters (green, yellow, red packets and bytes; POL_DROP; TAIL_ADJUST). -/
structure Policer where
  c : Int
  e : Int
  last : Nat
  fracC : Nat
  fracE : Nat
  refills : Nat
  counts : List Nat
  deriving DecidableEq, Repr

/-- A policer nothing has metered. -/
def Policer.reset : Policer := { c := 0, e := 0, last := 0, fracC := 0, fracE := 0, refills := 0, counts := [0, 0, 0, 0, 0, 0, 0, 0] }

/-- A cancel on its way to the egress scheduler (R267): the exit, class and stage of the request, the packet, and what the grant must put
back. -/
structure GrantBack where
  exit : Nat
  cls : Nat
  stage : Nat
  pkt : Nat
  busyBefore : Nat
  rotBefore : Nat
  passed : Bool
  deriving DecidableEq, Repr

/-- The switch core, queues and packets. -/
structure SwitchSt where
  pkts : SMap Pkt
  nextPkt : Nat
  /-- Sources by tile × 50 + source; the rotation start of each tile (R21). -/
  sources : SMap Source
  rotation : SMap Nat
  /-- The pipes and the crossbar are ungated: the data path has started since LOAD (R512 step 11, R537). -/
  pipesUp : Bool
  /-- Pipe and dresser slots of the PCLK in progress, per tile: pipes entered (a map), back-starved slots owed, microword-cycles run and
  dresser waits owed. -/
  entered : SMap Nat
  backOwed : SMap Nat
  runOwed : SMap Nat
  dressBackOwed : SMap Nat
  /-- VOQ lanes (R259): packet ids in order, keyed ((tile × 408 + exit) × 8 + class) × 5 + lane; exits 400–407 are the multicast VOQs. -/
  voqs : SMap (List Nat)
  spilling : List Nat
  /-- Cells flushed and not yet free, per tile and stage, with the tick by which they are (R285). -/
  flushing : List (Nat × Nat × Nat × Nat)
  /-- Quarantined cells (tile, cell) (R281). -/
  quarantined : List (Nat × Nat)
  classes : SMap ClassCfg
  /-- Mirror and sample session records (R273), keyed stage × 32 + KIND × 16 + SESSION. -/
  sessions : SMap Nat
  /-- Grant and refill machinery. -/
  queues : SMap EQueue
  egress : SMap Egress
  pauses : SMap Pause
  /-- XOFF sent, by lport × 8 + class: the tick of the last one (R51). -/
  xoff : SMap Nat
  /-- T pinned at a bound, keyed (tile × 5 + stage) × 8 + class: the last tick pinned (R277). -/
  pinned : SMap Nat
  /-- Lports whose port FIFO stands above its high mark (R51). -/
  fifoHigh : List Nat
  /-- Frames in the multicast holds (R272): tile, cells and copies not yet handed off, by a number of the hold entry. -/
  holds : SMap (Nat × Nat × Nat)
  nextHold : Nat
  /-- Cancels of granted requests that have not reached the egress scheduler (R267). -/
  returns : List GrantBack
  /-- Rotations of the multicast scheduler (tile × 8 + class) and of recirculation exits; the dresser last assigned. -/
  mcRot : SMap Nat
  lastDresser : SMap Nat
  /-- Policer records (stage range), buckets by tile × 8,192 + policer, ranges as BASE × 65,536 + COUNT, colour maps. -/
  policers : SMap Nat
  buckets : SMap Policer
  polRange : SMap (Nat × Nat)
  colours : SMap (List Nat)
  /-- FLUSH_DROP and PAUSE_WD_DROP per exit and class (R293), GRANTS to GATE_OVERRUN per lport and queue (R324): arrays, not event types,
  keyed (kind × 8 + tile) × 4,096 + exit × 8 + class. -/
  arrays : SMap Nat
  deriving DecidableEq, Repr

/-- No packet in the device; S0 holds all 8,192 policers (R295). -/
def SwitchSt.reset : SwitchSt :=
  { pkts := [], nextPkt := 0, sources := [], rotation := [], pipesUp := false, entered := [], backOwed := [], runOwed := [], dressBackOwed := [],
    voqs := [], spilling := [], flushing := [], quarantined := [], classes := [], sessions := [], queues := [], egress := [], pauses := [],
    xoff := [], pinned := [], fifoHigh := [], holds := [], nextHold := 1, returns := [], mcRot := [], lastDresser := [], policers := [], buckets := [], polRange := [(0, (0, 8192))], colours := [],
    arrays := [] }

end Sys2Proof.Machine
end

