-- ==== Sys2Proof/Machine/StTable.lean ====
section
/-! DEFINITION. The state of versions, table memory, lookup configuration, rules, parse graphs, pattern sets and microcode
(chapters 3 to 8). -/
namespace Sys2Proof.Machine

/-- Something bound to versions: what serves the current version, what is staged for the next, and what serves the retiring version
where it differs (`split`). -/
structure Bind (α : Type) where
  cur : Option α
  next : Option α
  old : Option α
  split : Bool
  deriving DecidableEq, Repr

/-- Nothing bound. -/
def Bind.empty {α : Type} : Bind α := { cur := none, next := none, old := none, split := false }

/-! ### Versions (R174–R193) -/

/-- The version record of a stage (R193). STATE: 0 IDLE, 1 ARMING, 2 ARMED, 3 DRAINING, 4 SETTLING. -/
structure Ver where
  cur : Nat
  retiring : Option Nat
  state : Nat
  /-- FLAGS: BATCH, LATE, EXPIRED. -/
  batch : Bool
  late : Bool
  expired : Bool
  /-- The flip time in linear network nanoseconds, ASAP, and the tick at which the commit was armed. -/
  flipTime : Nat
  asap : Bool
  willLate : Bool
  flippedAt : Nat
  drainedAt : Nat
  drainNs : Nat
  settleNs : Nat
  /-- The mailbox whose commit it is. -/
  mb : Nat
  deriving DecidableEq, Repr

/-- A stage's version record at reset: version 0, IDLE (R512 starts the versions at 0). -/
def Ver.reset : Ver :=
  { cur := 0, retiring := none, state := 0, batch := false, late := false, expired := false, flipTime := 0, asap := false,
    willLate := false, flippedAt := 0, drainedAt := 0, drainNs := 0, settleNs := 0, mb := 0 }

/-! ### Tables (R102–R155) -/

/-- A table instance (R105–R107): its paddocks per tile (a SPLIT instance lists P/2 in each twin), and whether INSTANCE_READY. -/
structure Inst where
  kind : Nat
  split : Bool
  p : Nat
  seed1 : Nat
  seed2 : Nat
  pads : SMap (List Nat)
  ready : Bool
  deriving DecidableEq, Repr

/-- An entry of the backing store (R194): the content with VMASK and CHK zero, and its VMASK. -/
structure BEnt where
  vmask : Nat
  content : Nat
  deriving DecidableEq, Repr

/-- A bank of the banked lookup configuration of a stage (R165): the profile (R153), the domain map (R154) keyed by RD as
DOM4 + 256 × DOM6, DEFAULT6 keyed by domain as RKIND × 2^18 + RESULT, key layouts, comparators, pre-selector entries and default
action words. -/
structure LookCfg where
  profile : List Byte
  domains : SMap Nat
  default6 : SMap Nat
  layouts : SMap (List Nat)
  /-- Comparator k: source, BOFF, LOW, HIGH, INV. -/
  ranges : SMap (List Nat)
  /-- Entry i: value, mask, BLK_A, BLK_B. -/
  presel : SMap (List Nat)
  dflt : Nat
  dfltPx : Nat
  deriving DecidableEq, Repr

/-- A bank at stage creation: a profile of zeros, every RD NONE, default actions CONTINUE (R154, R163). -/
def LookCfg.reset : LookCfg :=
  { profile := [], domains := [], default6 := [], layouts := [], ranges := [], presel := [], dflt := 0, dfltPx := 0 }

/-- A rule of the ordered match array (R156, R162, R166, R167): the entry's parts, and firmware's PRIORITY, RULE_ID and arrival. -/
structure Rule where
  vmask : Nat
  stage : Nat
  chk : Nat
  value : Nat
  mask : Nat
  action : Nat
  prio : Nat
  ruleId : Nat
  arrival : Nat
  deriving DecidableEq, Repr

/-- A block (R156, R170). -/
structure Block where
  stage : Nat
  layout : Nat
  holeLog : Nat
  rules : SMap Rule
  exhausted : Bool
  deriving DecidableEq, Repr

/-- A block nobody has assigned: S0's, HOLE_INTERVAL 16 (R167). -/
def Block.reset : Block := { stage := 0, layout := 0, holeLog := 4, rules := [], exhausted := false }

/-- A provisional learning awaiting its frame's verdict (R125–R127): tile, stage, VLAN, station, the frame's source and sequence
number, whether it is a move, and the verdict once known. -/
structure Prov where
  tile : Nat
  stage : Nat
  vid : Nat
  mac : Nat
  lport : Nat
  seq : Nat
  verdict : Option Bool
  deriving DecidableEq, Repr

/-! ### Graphs, pattern sets and microcode (R77, R203, R245–R251) -/

/-- A parse graph (R77, R95). `words` names the node-store words that hold it in each tile. -/
structure Graph where
  image : List Byte
  nodes : List Nat
  entryLport : Nat
  entryRecirc : Nat
  entryHost : Nat
  maxNodes : Nat
  profiles : List Byte
  words : SMap (List Nat)
  deriving DecidableEq, Repr

/-- A pattern set (R203, R222). -/
structure PatSet where
  image : List Byte
  states : Nat
  patterns : Nat
  forward : Option (List Byte)
  survey : Option (List Byte)
  classes : List Nat
  deriving DecidableEq, Repr

/-- What one bank holds for a stage beside its words (R251): EXCEPTIONS, MAX_CYCLES, and LABEL and CRC of its last image. -/
structure EditBank where
  exceptions : List Nat
  maxCycles : Nat
  label : List Byte
  crc : Nat
  deriving DecidableEq, Repr

/-- Every exception DROP, MAX_CYCLES 64, no image loaded (R240, R251). -/
def EditBank.reset : EditBank := { exceptions := [0, 0, 0, 0, 0, 0, 0, 0], maxCycles := 64, label := List.replicate 32 0, crc := 0 }

/-- A stage's microcode (R245–R247): its range, the bank (0 A, 1 B) of its current and of its retiring version, a swap staged, the
first-load copy made, words written through the UCS window in this batch (R249), and both banks. -/
structure EditSt where
  base : Nat
  count : Nat
  curBank : Nat
  oldBank : Option Nat
  swap : Bool
  loaded : Bool
  window : List Nat
  bankA : EditBank
  bankB : EditBank
  deriving DecidableEq, Repr

/-- A side stage holds no words. -/
def EditSt.reset : EditSt :=
  { base := 6144, count := 0, curBank := 0, oldBank := none, swap := false, loaded := false, window := [], bankA := EditBank.reset,
    bankB := EditBank.reset }

/-- A survey job or record (R218–R221): tile, stage and VER, the bytes, the buffer's handle, the mailbox and tag of a PATTERN.QUERY,
the survey automaton that runs (empty: none), the record, and whether it has ended. -/
structure Survey where
  tile : Nat
  stage : Nat
  ver : Nat
  handle : Nat
  query : Option (Nat × Nat)
  data : List Byte
  auto : List Byte
  startedAt : Nat
  done : Bool
  record : List Byte
  deriving DecidableEq, Repr

/-- The tables side of the data plane. -/
structure TableSt where
  vers : SMap Ver
  /-- Table words, keyed ((tile × 96 + paddock) × 8,192 + line) × 4 + word (R102), and the poisoned ones. -/
  sram : SMap Nat
  poison : List Nat
  /-- Paddocks withdrawn from maintenance writes, keyed tile × 96 + paddock (R133), and rewrite attempts of poisoned words. -/
  withdrawn : List Nat
  tries : SMap Nat
  /-- Instances by stage × 16 + kind; the learned table is part of the L2 instance. -/
  insts : SMap (Bind Inst)
  /-- Backing store (R194), keyed (stage × 16 + kind) × 2^200 + key. -/
  backing : SMap (List BEnt)
  /-- Sequencer moves and the count at the start of the last walk, keyed (tile × 5 + stage) × 16 + kind (R136). -/
  moves : SMap Nat
  walks : SMap Nat
  provs : List Prov
  /-- Firm station moves in the second in progress (R128), keyed tile × 5 + stage: the second's number and the count. -/
  moveRate : SMap (Nat × Nat)
  /-- Ageing: local seconds and place of each visit are the sweep's; static keys awaiting removal of their learned twin (R128). -/
  staticNew : List (Nat × Nat × Nat)
  /-- Lost counter contents (R133, R441), keyed (stage × 8 + tile) × 2^20 + counter. -/
  ctrLost : SMap Nat
  /-- Banks 0 and 1 of the lookup configuration, keyed stage × 2 + bank; stages whose other bank has been started (R165). -/
  cfgs : SMap LookCfg
  cfgStarted : List Nat
  blocks : SMap Block
  /-- Words of the array that differ in one tile (DIAG writes), keyed tile × 32,768 + block × 1,024 + position; damaged entries. -/
  omaTile : SMap Rule
  omaBad : List Nat
  arrivals : Nat
  graphs : SMap (Bind Graph)
  /-- Node-store words that differ in one tile from the graph, keyed tile × 1,024 + word; damaged ones. -/
  nodeTile : SMap Nat
  nodeBad : List Nat
  /-- Image assemblies, keyed stage × 4 + kind (1 graph, 2 pattern set, 3 edit program): bytes received and TOTAL; and the complete
  images being validated, by the same key. -/
  loads : SMap (List Byte × Nat)
  checking : List (Nat × List Byte)
  sets : SMap (Bind PatSet)
  /-- Engines withdrawn, keyed tile × 4 + engine (R224). -/
  engBad : List Nat
  /-- Throttle steps by die: from temperature, and in force since a tick; FLOOR, CAP; the current limit's override, and that of LEAN
  clocking (R217); last time pinned (R214, R216). -/
  tempStep : SMap Nat
  step : SMap Nat
  stepSince : SMap Nat
  floor : Nat
  cap : Nat
  limitOff : Bool
  leanOff : Bool
  pinned : SMap Nat
  surveys : SMap Survey
  /-- Microcode words of the customer region, keyed bank × 8,192 + word (R245); damaged words, keyed (tile × 2 + bank) × 8,192 + word. -/
  ucode : SMap Nat
  ucodeBad : List Nat
  edits : SMap EditSt
  /-- Packets a dresser ran on each bank (R248), keyed (tile × 96 + dresser) × 2 + bank. -/
  bankPkts : SMap Nat
  /-- Ticks of the last of each onset kind, keyed kind × 512 + unit (R135, R226, R258, R294, R325). -/
  onsets : SMap Nat
  /-- A sweep pass in progress has posted its SWEEP_MISMATCH (R195), by stage. -/
  sweepPosted : List Nat
  deriving DecidableEq, Repr

/-- S0's share of the microcode store at reset: the whole customer region (R245). -/
def EditSt.s0 : EditSt := { EditSt.reset with count := 2048 }

/-- Tables and programs after reset: everything empty; S0 holds the whole customer region; throttles FULL, FLOOR OFF, CAP FULL. -/
def TableSt.reset : TableSt :=
  { vers := [], sram := [], poison := [], withdrawn := [], tries := [], insts := [], backing := [], moves := [], walks := [],
    provs := [], moveRate := [], staticNew := [], ctrLost := [], cfgs := [], cfgStarted := [], blocks := [], omaTile := [],
    omaBad := [], arrivals := 0, graphs := [], nodeTile := [], nodeBad := [], loads := [], checking := [], sets := [], engBad := [], tempStep := [],
    step := [], stepSince := [], floor := 3, cap := 0, limitOff := false, leanOff := false, pinned := [], surveys := [], ucode := [], ucodeBad := [],
    edits := [(0, EditSt.s0)], bankPkts := [], onsets := [], sweepPosted := [] }

end Sys2Proof.Machine
end

