-- ==== Sys2Proof/Machine/State.lean ====
section
/-! DEFINITION. The machine's state as plain data, its fault and refusal reasons, and the state right after reset. -/
namespace Sys2Proof.Machine
open Sys2Proof

/-- Why the machine stops with a fault. -/
inductive Fault where
  /-- Raised by any command or event whose operand names a unit the spec says does not exist (a tile above 7, an lport above
  383, a mailbox above 7 and so on, R6): there is no such thing to act on. Safe: the model stops. -/
  | noSuchUnit
  deriving DecidableEq, Repr

/-- Why a command has no meaning here. -/
inductive Refusal where
  /-- Raised by the dispatch for a row that has no meaning yet. Safe. -/
  | notModelled (mnemonic : String)
  deriving DecidableEq, Repr

/-- The whole block (see INVENTORY.md, State). -/
structure State where
  /-- Time in ticks of 1/66 ns, the common grid of PCLK, XCLK, CCLK and SCLK (R500). -/
  now : Nat
  /-- The model's own counter for free values. -/
  free : Nat
  host : HostSt
  fault : FaultSt
  ctl : ControlSt
  cmd : CmdSt
  power : PowerSt
  time : TimeSt
  book : RecordSt
  surr : SurroundSt
  count : CountSt
  port : PortSt
  tab : TableSt
  sw : SwitchSt
  mem : MemSt
  /-- Commands waiting, first in first out. -/
  pending : List Instr
  deriving DecidableEq, Repr

/-- The block right after reset. -/
def State.reset : State :=
  { now := 0, free := 0, host := HostSt.reset, fault := FaultSt.reset, ctl := ControlSt.reset, cmd := CmdSt.reset,
    power := PowerSt.reset, time := TimeSt.reset, book := RecordSt.reset, surr := SurroundSt.reset,
    count := CountSt.reset, port := PortSt.reset, tab := TableSt.reset, sw := SwitchSt.reset, mem := MemSt.reset, pending := [] }

end Sys2Proof.Machine
end

