-- ==== Sys2Proof/Machine/Ops.lean ====
section
/-! DEFINITION. The named operations every family shares: changing one part of the state, the unit check, clocks, stages and
settings, event counters, interrupt sources, posting events, and completing accepted commands. -/
namespace Sys2Proof.Machine
open Sys2Proof

/-! ### One part of the state -/

def State.onHost (s : State) (f : HostSt → HostSt) : State := { s with host := f s.host }
def State.onFault (s : State) (f : FaultSt → FaultSt) : State := { s with fault := f s.fault }
def State.onCtl (s : State) (f : ControlSt → ControlSt) : State := { s with ctl := f s.ctl }
def State.onCmd (s : State) (f : CmdSt → CmdSt) : State := { s with cmd := f s.cmd }
def State.onPower (s : State) (f : PowerSt → PowerSt) : State := { s with power := f s.power }
def State.onTime (s : State) (f : TimeSt → TimeSt) : State := { s with time := f s.time }
def State.onBook (s : State) (f : RecordSt → RecordSt) : State := { s with book := f s.book }
def State.onSurr (s : State) (f : SurroundSt → SurroundSt) : State := { s with surr := f s.surr }
def State.onCount (s : State) (f : CountSt → CountSt) : State := { s with count := f s.count }
def State.onPort (s : State) (f : PortSt → PortSt) : State := { s with port := f s.port }
def State.onTab (s : State) (f : TableSt → TableSt) : State := { s with tab := f s.tab }
def State.onSw (s : State) (f : SwitchSt → SwitchSt) : State := { s with sw := f s.sw }
def State.onMem (s : State) (f : MemSt → MemSt) : State := { s with mem := f s.mem }

/-- What every command and event answers (three outcomes). -/
abbrev Out := Host.Outcome State Fault Refusal

/-- A meaning whose operands name units: a fault where the spec gives the device no such unit (R6), the next state otherwise. -/
def onUnit (ok : Bool) (t : State) : Out := if ok then .next t else .fault .noSuchUnit

/-- Take a state where a condition holds, leave it unchanged where it does not: an event that is not due changes nothing. -/
def State.when (s : State) (c : Bool) (f : State → State) : State := if c then f s else s

/-- Apply a function once for each number of a list, in order. -/
def forEach (l : List Nat) (f : Nat → State → State) (s : State) : State := l.foldl (fun s k => f k s) s

/-! ### Clocks -/

/-- Ticks in a number of nanoseconds, microseconds, milliseconds and seconds. -/
def tkNs (n : Nat) : Nat := 66 * n
def tkUs (n : Nat) : Nat := 66000 * n
def tkMs (n : Nat) : Nat := 66000000 * n
def tkS (n : Nat) : Nat := 66000000000 * n

/-- Ticks in one PCLK and one XCLK at the clocking in force (R500). -/
def pclkTicks (s : State) : Nat := if s.power.lean then 40 else 30
def xclkTicks (s : State) : Nat := if s.power.lean then 50 else 40

/-- The local nanosecond count: it advances by 10 every 11 CCLK (R299, R465), and 11 CCLK are 660 ticks. -/
def State.localNs (s : State) : Nat := (10 * ((s.now - s.time.zero) / 660)) % 2 ^ 64

/-- The linear count of network time (R465). -/
def State.netLinear (s : State) : Nat := s.time.sec * 1000000000 + s.time.ns

/-- Seconds of the always-on calendar (R472). -/
def State.calSeconds (s : State) : Nat := s.time.calendar + (s.now - s.time.calTick) / 66000000000

/-! ### Units and stages -/

/-- The tile of a port (R2) and the port of an lport (R6). -/
def tileOfPort (p : Nat) : Nat := p / 6
def portOfLport (l : Nat) : Nat := l / 8
def tileOfLport (l : Nat) : Nat := l / 48
/-- The twin of a tile (R3). -/
def twinOf (t : Nat) : Nat := if t % 2 = 0 then t + 1 else t - 1
/-- The forwarding die of a tile (R2): F0 0, F1 1. -/
def dieOfTile (t : Nat) : Nat := if t < 4 then 0 else 1

/-- A side stage's record; S0 has none of its own. -/
def State.stage (s : State) (k : Nat) : Stage := SMap.get Stage.absent k s.cmd.stages

/-- Does a stage exist (R7)? S0 always does. -/
def State.stageLive (s : State) (k : Nat) : Bool := k == 0 || (decide (k ≤ 4) && (s.stage k).state != 0)

/-- The side stages that exist. -/
def State.sideStages (s : State) : List Nat := [1, 2, 3, 4].filter (fun k => (s.stage k).state != 0)

/-- Every stage that exists. -/
def State.liveStages (s : State) : List Nat := 0 :: s.sideStages

/-- The stage a port belongs to (R7): the side stage whose map names it, otherwise S0. -/
def State.portStage (s : State) (p : Nat) : Nat :=
  match s.sideStages.find? (fun k => (s.stage k).ports.testBit p) with
  | some k => k
  | none => 0

/-- The ports of a stage as a 48-bit map (R436). -/
def State.stagePorts (s : State) (k : Nat) : Nat :=
  if k = 0 then s.sideStages.foldl (fun a j => a - (a &&& (s.stage j).ports)) 0xFFFFFFFFFFFF else (s.stage k).ports

/-- The ports a 48-bit map names, in rising order. -/
def portsOf (map : Nat) : List Nat := (range 0 48).filter (fun p => map.testBit p)

/-- The tiles of a stage: the tiles of its ports (R436). S0 is present in every tile. -/
def State.stageTiles (s : State) (k : Nat) : List Nat :=
  if k = 0 then range 0 8 else (range 0 8).filter (fun t => (range (6 * t) 6).any (fun p => (s.stage k).ports.testBit p))

/-- The scan weight of a stage in a tile (R210, R436): S0 has what the side stages present there leave of 16. -/
def State.scanWeightIn (s : State) (k t : Nat) : Nat :=
  if k = 0 then (s.sideStages.filter (fun j => (s.stageTiles j).contains t)).foldl (fun a j => a - (s.stage j).scanWeight) 16
  else (s.stage k).scanWeight

/-- The stage a mailbox speaks for (R384): 1–4 for MB1–MB4, otherwise 0. -/
def stageOfMb (r : Nat) : Nat := if 1 ≤ r ∧ r ≤ 4 then r else 0

/-- The lports of a port. -/
def lportsOf (p : Nat) : List Nat := range (8 * p) 8

/-! ### Mailboxes, rings, settings -/

def State.mb (s : State) (r : Nat) : Mailbox := SMap.get Mailbox.reset r s.host.mbs

def State.onMb (s : State) (r : Nat) (f : Mailbox → Mailbox) : State :=
  s.onHost (fun h => { h with mbs := SMap.upd Mailbox.reset r f h.mbs })

def State.ring (s : State) (p : Nat) : Ring := SMap.get Ring.reset p s.host.rings

def State.onRing (s : State) (p : Nat) (f : Ring → Ring) : State :=
  s.onHost (fun h => { h with rings := SMap.upd Ring.reset p f h.rings })

/-- The default of a setting (R431). -/
def settingDefault (key : Nat) : Nat :=
  if key = 0x0001 then 1000 else if key = 0x0002 then 100 else if key = 0x0010 then 300 else if key = 0x0011 then 1000
  else if key = 0x0013 then 2048 else if key = 0x0014 then 1000 else if key = 0x0015 then 1024
  else if key = 0x0030 then 1 else if key = 0x0031 then 10 else if key = 0x0032 then 10000 else if key = 0x0033 then 4
  else if key = 0x0034 then 64 else if key = 0x0035 then 2000 else if key = 0x0036 then 10 else if key = 0x0037 then 10
  else if key = 0x0038 then 65535 else 0

/-- A setting's value; the index is the lport, the stage, or 0 (R431). -/
def State.setting (s : State) (key idx : Nat) : Nat := SMap.get (settingDefault key) (key * 512 + idx) s.cmd.settings

/-- Write a setting. -/
def State.putSetting (s : State) (key idx v : Nat) : State :=
  s.onCmd (fun c => { c with settings := SMap.put (settingDefault key) (key * 512 + idx) v c.settings })

/-- An adaptive loop that would leave its bounds begins a new episode when it has been inside them, unpinned, for 1 ms (R505). -/
def loopEpisodeNew (lastPinned : Option Nat) (now : Nat) : Bool :=
  match lastPinned with | some t => decide (t + 66000000 ≤ now) | none => true

/-- LOOP_AT_LIMIT (R446, R505): loop in the order of R506 from 0, the unit, the bound (0 lower, 1 upper). -/
def loopPayload (loop unit bound : Nat) : List Byte := leBytes 1 loop ++ leBytes 1 bound ++ leBytes 2 unit

/-! ### Free values -/

/-- The index of the next free value; the counter moves on. -/
def State.nextFree (s : State) : State := { s with free := s.free + 1 }

/-! ### Event counters (R540, R541) -/

/-- Where event e of stage k in tile t (8: the control die) is counted. -/
def evtKey (t k e : Nat) : Nat := (t * 8 + k) * 256 + e

/-- Count an event n times; 48-bit counters wrap. -/
def State.bumpN (s : State) (t k e n : Nat) : State :=
  s.onCount (fun c => { c with events := SMap.upd 0 (evtKey t k e) (fun v => (v + n) % 2 ^ 48) c.events })

def State.bump (s : State) (t k e : Nat) : State := s.bumpN t k e 1

/-- An event counter's value. -/
def State.evt (s : State) (t k e : Nat) : Nat := SMap.get 0 (evtKey t k e) s.count.events

/-- Does a unit's status carry MISMATCH (R462)? Units are numbered: sub-ports by lport, modules 1,000 + port, DRAM channels 2,000 + channel,
rings 3,000 + pair, stages 4,000 + stage, throttles 5,000 + die. -/
def State.mismatchOf (s : State) (key : Nat) : Bool := match SMap.find key s.fault.mismatch with | some x => x.raised | none => false

/-! ### Interrupts (R380) -/

/-- A vector fires: a masked vector sets its pending bit, another sends its message. -/
def IrqVec.fire (v : IrqVec) : IrqVec :=
  if v.masked then { v with pba := true, acc := 0, firstAt := none }
  else { v with fired := v.fired + 1, acc := 0, firstAt := none }

/-- A cause reaches a vector: it fires when COUNT + 1 causes have accumulated, or at once where HOLDOFF is 0. -/
def IrqVec.cause' (v : IrqVec) (src now : Nat) : IrqVec :=
  let v1 := { v with cause := setBit v.cause (src % 32) true, acc := v.acc + 1,
                     firstAt := some (v.firstAt.getD now) }
  if v1.count + 1 ≤ v1.acc || v1.holdoff == 0 then v1.fire else v1

/-- An interrupt source is raised: the vector IRQ_MAP names receives it. -/
def State.raiseIrq (s : State) (src : Nat) : State :=
  s.onHost (fun h => { h with
    vecs := SMap.upd IrqVec.reset (SMap.get 0 src h.irqMap % 64) (fun v => v.cause' src s.now) h.vecs })

/-! ### Events (R389, R418, R419) -/

/-- The 64 bytes of an event record (R389). -/
def EvRec.bytes (e : EvRec) (evseq : Nat) : List Byte :=
  let pay := e.payload.take 40
  leBytes 2 e.code ++ leBytes 2 evseq ++ leBytes 1 e.level ++ [0] ++ leBytes 2 e.unit ++ leBytes 8 e.time ++ leBytes 4 e.tag ++
    leBytes 2 e.status ++ leBytes 2 pay.length ++ pay ++ zeros (40 - pay.length)

/-- Post an event record to a mailbox: it waits to be written (EVENT_POST), and the JOURNAL takes it (R481). -/
def State.postRec (s : State) (r : Nat) (e : EvRec) : State :=
  (s.onMb r (fun m => { m with posted := m.posted ++ [e] })).onBook
    (fun b => { b with toJournal := b.toJournal ++ [(stageOfMb r, e.bytes 0)] })

/-- Post an event that completes no command. -/
def State.post (s : State) (r code level unit : Nat) (payload : List Byte) : State :=
  s.postRec r { code := code, level := level, unit := unit, time := s.localNs, tag := 0, status := 0, payload := payload,
                completion := false }

/-- Post an event to several mailboxes. -/
def State.postAll (s : State) (rs : List Nat) (code level unit : Nat) (payload : List Byte) : State :=
  forEach rs (fun r s => s.post r code level unit payload) s

/-- Post the completion event of a command (R387, R418). -/
def State.postDone (s : State) (r code level unit tag status : Nat) (payload : List Byte) : State :=
  s.postRec r { code := code, level := level, unit := unit, time := s.localNs, tag := tag, status := status,
                payload := payload, completion := true }

/-- The payload of CMD_DONE (R446): OPCODE, two zero bytes, DETAIL. -/
def cmdDonePayload (opcode detail : Nat) : List Byte := leBytes 2 opcode ++ zeros 2 ++ leBytes 4 detail

/-- The oldest accepted and uncompleted command of an opcode in a mailbox. -/
def State.findOut (s : State) (r opcode : Nat) : Option Outst := (s.mb r).outstanding.find? (fun o => o.opcode == opcode)

/-- A command is no longer outstanding. -/
def State.dropOut (s : State) (r : Nat) (o : Outst) : State :=
  s.onMb r (fun m => { m with outstanding := m.outstanding.erase o })

/-- Complete the oldest accepted command of an opcode in a mailbox with an event; without one nothing happens. -/
def State.finish (s : State) (r opcode code level unit status : Nat) (payload : List Byte) : State :=
  match s.findOut r opcode with
  | some o => (s.dropOut r o).postDone r code level unit o.tag status payload
  | none => s

/-- Complete the oldest accepted command of an opcode with CMD_DONE (R418). -/
def State.finishPlain (s : State) (r opcode status detail : Nat) : State :=
  s.finish r opcode Ev.cmdDone Lv.device 0 status (cmdDonePayload opcode detail)

/-- The newest accepted command of an opcode in a mailbox completes with CMD_DONE, `extra` after OPCODE and DETAIL. -/
def State.finishNewest (s : State) (r opcode status : Nat) (extra : List Byte) : State :=
  match (s.mb r).outstanding.reverse.find? (fun o => o.opcode == opcode) with
  | some o => (s.dropOut r o).postDone r Ev.cmdDone Lv.device 0 o.tag status (cmdDonePayload opcode 0 ++ extra)
  | none => s

/-- Powered seconds are counted into the mode they were spent in. -/
def State.accountSeconds (s : State) : State :=
  let n := (s.now - s.book.accountedAt) / 66000000000
  s.onBook (fun b => { b with
    poweredSecs := SMap.upd 0 s.cmd.mode (fun v => v + n) b.poweredSecs, accountedAt := b.accountedAt + n * 66000000000 })

/-! ### The ledger log (R487, R488) -/

/-- Bytes of the LOG: sectors 512–16,383 of 4 KiB (R487). -/
def ledgerLogBytes : Nat := 15872 * 4096

/-- Root firmware appends a log record at the head: a 16-byte header, the body and a CRC-32C. -/
def State.ledgerWrite (s : State) (type : Nat) (body : List Byte) : State :=
  s.onBook (fun b => { b with
    ledger := b.ledger ++ [{ type := type, lseq := b.nextLseq, calendar := s.calSeconds, sector := 512 + b.head / 4096,
                             body := body }],
    nextLseq := b.nextLseq + 1, head := (b.head + body.length + 20) % ledgerLogBytes })

end Sys2Proof.Machine
end

