-- ==== Sys2Proof/Machine/LportOps.lean ====
section
/-! DEFINITION. Sub-ports (chapter 2): their configuration fields, links, rates and statistics. -/
namespace Sys2Proof.Machine
open Sys2Proof

def State.lport (s : State) (l : Nat) : Lport := SMap.get Lport.reset l s.port.lports

def State.onLport (s : State) (l : Nat) (f : Lport → Lport) : State :=
  s.onPort (fun p => { p with lports := SMap.upd Lport.reset l f p.lports })

def State.lane (s : State) (n : Nat) : LaneSt := SMap.get LaneSt.reset n s.port.lanes
def State.onLane (s : State) (n : Nat) (f : LaneSt → LaneSt) : State :=
  s.onPort (fun p => { p with lanes := SMap.upd LaneSt.reset n f p.lanes })

/-! ### The configuration record (R73) -/

def cfgSub (c : Nat) : Nat := bitsOf c 61 3
def cfgLanes (c : Nat) : Nat := 2 ^ bitsOf c 59 2
def cfgRate (c : Nat) : Nat := bitsOf c 57 2
def cfgPeer (c : Nat) : Bool := bitOf c 56
def cfgFc (c : Nat) : Nat := bitsOf c 54 2
def cfgPfcEn (c : Nat) : Nat := bitsOf c 46 8
def cfgRxTag (c : Nat) : Nat := bitsOf c 44 2
def cfgDefPcp (c : Nat) : Nat := bitsOf c 41 3
def cfgDefVid (c : Nat) : Nat := bitsOf c 29 12
def cfgTxUntag (c : Nat) : Bool := bitOf c 28
def cfgMaxFrame (c : Nat) : Nat := bitsOf c 14 14
def cfgFallback (c : Nat) : Bool := bitOf c 13
def cfgFloor (c : Nat) : Nat := bitsOf c 11 2
def cfgAdmin (c : Nat) : Bool := bitOf c 10

def Lport.configured (p : Lport) : Bool := p.cfg.isSome
/-- The configuration record, zero where there is none. -/
def Lport.conf (p : Lport) : Nat := p.cfg.getD 0
def Lport.admin (p : Lport) : Bool := p.configured && cfgAdmin p.conf
def Lport.peer (p : Lport) : Bool := p.configured && cfgPeer p.conf
/-- Is the link up: UP, DEGRADED_WIDTH or PROBATION (R66)? -/
def Lport.linkUp (p : Lport) : Bool := p.oper == 2 || p.oper == 3 || p.oper == 4

/-- Removed pairs as a count (R58). -/
def pairsOut (map : Nat) : Nat := ((range 0 4).filter (fun j => map.testBit j)).length
/-- Lanes in use: the configured lanes less those of removed pairs (R58). -/
def Lport.lanesUsed (p : Lport) : Nat := if p.configured then cfgLanes p.conf - 2 * pairsOut p.lanesOut else 0
/-- The MAC rate in Gb/s of the current width and lane rate (R60). -/
def Lport.gbps (p : Lport) : Nat := p.lanesUsed * (100 * 2 ^ p.rate)

/-! ### Statistics (R52) -/

def State.statN (s : State) (l i n : Nat) : State :=
  s.onPort (fun p => { p with stats := SMap.upd 0 (l * 64 + i) (fun v => (v + n) % 2 ^ 64) p.stats })
def State.stat (s : State) (l i : Nat) : State := s.statN l i 1
def State.statOf (s : State) (l i : Nat) : Nat := SMap.get 0 (l * 64 + i) s.port.stats

end Sys2Proof.Machine
end

