-- ==== Sys2Proof/Config.lean ====
section
/-! DEFINITION. What one device fixes and the spec leaves open: constants without a body, so that no proof can lean on a value
(log entry 5). -/
namespace Sys2Proof.Config

/-- DEVICE_ID: the first 8 bytes of SHA-384 over the device's public key (R366). -/
opaque deviceId : BitVec 64
/-- The DeviceID and Alias certificates in X.509 DER (R367). -/
opaque certificateChain : List Byte
/-- The Alias-key signature over SHA-384 of a nonce and the measurement list (R367). -/
opaque quoteSignature : List Byte → List Byte

/-- The SFF-8024 host electrical interface code of a 100G or 200G lane rate (0, 1) and a width in lanes (R526 names the standard, not
the codes). -/
opaque hostInterface : Nat → Nat → Nat

/-- What a compiled forwarding automaton (R203, R222: its format is the compiler's) finds in a window: the number of the first match's
pattern and the offset of its last byte in the window. -/
opaque forwardMatch : List Byte → List Byte → Option (Nat × Nat)
/-- What a compiled survey automaton finds in a buffer: pattern numbers and end offsets. -/
opaque surveyMatches : List Byte → List Byte → List (Nat × Nat)
/-- The internal check of a compiled automaton (R222). -/
opaque automatonOk : List Byte → Bool
/-- The traffic class a packet starts with (R19 and R206 use it; no rule gives it), by stage, lport, pass and frame (taken modulo 8). -/
opaque startClass : Nat → Nat → Nat → List Byte → Nat
/-- The multicast group of a bridged packet whose destination is unknown or no unicast station (R133 floods it; no rule gives the group),
by stage, VID and destination MAC (taken modulo 65,536). -/
opaque missGroup : Nat → Nat → Nat → Nat
/-- The populated sub-channel (taken modulo their number) that a burst of a region lies in: no rule places a frame, flow or capture inside
its share (R329, R330), by the model's own counter and the burst's place in the access. -/
opaque burstUnit : Nat → Nat → Nat

/-- The kind of test access port instruction that an 8-bit code loads (R579 names the instructions, not their codes): 0 IDCODE, 1 BYPASS,
2 SAMPLE/PRELOAD, 3 EXTEST, 4 EXTEST_PULSE, 5 EXTEST_TRAIN, 6 the debug unlock; any other number is another debug instruction. -/
opaque tapKind : Nat → Nat

end Sys2Proof.Config
end

