-- ==== Sys2Proof/Machine/MemOps.lean ====
section
/-! DEFINITION. Shared operations of external memory (chapter 11): deliverable bandwidth, cuts and restorations, meters, speed steps. -/
namespace Sys2Proof.Machine
open Sys2Proof

def MemSt.channel (m : MemSt) (c : Nat) : Channel := SMap.get Channel.reset c m.channels
def State.onChannel (s : State) (c : Nat) (f : Channel → Channel) : State :=
  s.onMem (fun m => { m with channels := SMap.upd Channel.reset c f m.channels })

/-- The channels that hold a module. -/
def MemSt.populated (m : MemSt) : List Nat := (range 0 8).filter (fun c => (m.channel c).dimm.isSome)
/-- A channel is lost: every DRAM access has stopped (R336). -/
def MemSt.lost (m : MemSt) : Bool := (range 0 8).any (fun c => (m.channel c).state == 4)
/-- Every populated channel is in service. -/
def MemSt.inService (m : MemSt) : Bool := !m.lost && !m.populated.isEmpty && m.populated.all (fun c => (m.channel c).state == 3)

/-- The DCLK divider of the fastest speed modules of a rating support (R341). -/
def dividerOf (mts : Nat) : Nat := if 8800 ≤ mts then 3 else if 6600 ≤ mts then 4 else if 5280 ≤ mts then 5 else 6
/-- The divider of the slowest rating installed; 3 where nothing is known of the modules. -/
def MemSt.bestDivider (m : MemSt) : Nat :=
  m.populated.foldl (fun d c => match (m.channel c).dimm with | some x => max d (dividerOf x.speed) | none => d) 3
/-- RUN_SPEED and LEAN_SPEED in force (R341): RUN_SPEED defaults to the fastest the modules support, and LEAN_SPEED never exceeds it. -/
def MemSt.runDivider (m : MemSt) : Nat := if m.runSpeed = 0 then m.bestDivider else m.runSpeed
def MemSt.leanDivider (m : MemSt) : Nat := max m.leanSpeed m.runDivider

/-- Deliverable bandwidth D in GB/s at a divider (R344). -/
def MemSt.deliverableAt (m : MemSt) (divider : Nat) : Nat :=
  if m.lost then 0
  else
    let eff := if m.populated.any (fun c => (m.channel c).hot != 0) then m.eff2 else m.eff1
    m.populated.length * 2112 * eff / (divider * 1000)
/-- D, and while a speed step runs the lower of the two speeds'. -/
def MemSt.deliverable (m : MemSt) : Nat :=
  match m.step with
  | some st => min (m.deliverableAt m.speed) (m.deliverableAt st.1)
  | none => m.deliverableAt m.speed

def MemSt.share (m : MemSt) (k region : Nat) : Share := SMap.get Share.reset (k * 8 + region) m.shares
def State.onShare (s : State) (k region : Nat) (f : Share → Share) : State :=
  s.onMem (fun m => { m with shares := SMap.upd Share.reset (k * 8 + region) f m.shares })
/-- The reservations of a region's shares, in 0.1 GB/s, and the space given in it. -/
def MemSt.bwOf (m : MemSt) (region : Nat) : Nat := m.shares.foldl (fun a e => if e.1 % 8 = region then a + e.2.bw else a) 0
def MemSt.spaceOf (m : MemSt) (region : Nat) : Nat := m.shares.foldl (fun a e => if e.1 % 8 = region then a + e.2.space else a) 0
/-- The reserved sum, in 0.1 GB/s (R346). -/
def MemSt.reserved (m : MemSt) : Nat := 100 + m.bwOf 2 + m.bwOf 3 + m.bwOf 4
/-- FLOW and CAPTURE reservations in force. -/
def MemSt.othersInForce (m : MemSt) : Nat := (if m.flowOff then 0 else m.bwOf 3) + (if m.captureOff then 0 else m.bwOf 4)
/-- The reservations in force, in 0.1 GB/s, rounded up. -/
def MemSt.inForce (m : MemSt) : Nat := 100 + (m.bwOf 2 * m.scale + 65535) / 65536 + m.othersInForce

/-- The largest SCALE that fits a bandwidth beside what else is in force (R347). -/
def MemSt.fittingScale (m : MemSt) (d : Nat) : Nat :=
  if m.bwOf 2 = 0 then 65536 else min 65536 ((10 * d - 100 - m.othersInForce) * 65536 / m.bwOf 2)

/-- Cuts in their fixed order when D falls below what is in force (R347). -/
def MemSt.cut (m : MemSt) (d : Nat) : MemSt :=
  let m1 := if 10 * d < m.inForce then { m with captureOff := true } else m
  let m2 := if 10 * d < m1.inForce then { m1 with flowOff := true } else m1
  if 10 * d < m2.inForce then { m2 with scale := min m2.scale (m2.fittingScale d) } else m2

/-- Restorations in the reverse order (R348): a step that does not fit is not taken, nor any after it. -/
def MemSt.restore (m : MemSt) (d : Nat) : MemSt :=
  let m1 := { m with scale := max m.scale (m.fittingScale d) }
  if m1.scale < 65536 then m1
  else
    let m2 := if m1.flowOff && decide (m1.inForce + m1.bwOf 3 ≤ 10 * d) then { m1 with flowOff := false } else m1
    if m2.flowOff then m2
    else if m2.captureOff && decide (m2.inForce + m2.bwOf 4 ≤ 10 * d) then { m2 with captureOff := false } else m2

/-- The figures of MEM_CUT and MEM_RESTORE in MB0 (R349): D, SCALE, and whether FLOW and CAPTURE are suspended (log entry 20). -/
def MemSt.cutPayload (m : MemSt) (d : Nat) : List Byte :=
  leBytes 2 d ++ leBytes 1 (flagNat m.flowOff) ++ leBytes 1 (flagNat m.captureOff) ++ leBytes 4 m.scale

/-- A share's reservation in force, in 0.1 GB/s scaled by 65,536. -/
def MemSt.rateOf (m : MemSt) (k region : Nat) : Nat :=
  (m.share k region).bw * (if region = 2 then m.scale else if region = 3 then (if m.flowOff then 0 else 65536) else (if m.captureOff then 0 else 65536))

/-- A side stage's own figures: for each of SPILL, FLOW and CAPTURE its reservation and what is in force of it. -/
def MemSt.stagePayload (m : MemSt) (k : Nat) : List Byte :=
  ([2, 3, 4].map (fun r => leBytes 4 (m.share k r).bw ++ leBytes 4 (m.rateOf k r / 65536))).flatten

/-! ### Retention (R343) -/

/-- LEAN with LEAN_MEM 1: RETAIN. -/
def State.retain (s : State) : Bool := s.power.lean && s.mem.leanMem == 1

/-- Bytes of a stage's share of a region (2 SPILL, 3 FLOW, 4 CAPTURE). -/
def State.shareBytes (s : State) (region k : Nat) : Nat := (s.mem.share k region).space * 2 ^ 30
/-- Is a share suspended: cut, held by RETAIN, or its DRAM out of service? -/
def State.shareSuspended (s : State) (region k : Nat) : Bool :=
  if region = 3 then s.mem.flowOff || s.retain else if region = 4 then s.mem.captureOff || s.retain
  else s.mem.rateOf k region == 0

/-! ### Meters (R345) -/

/-- A share's tokens now, in the units of its meter: its rate for the time passed, at most 10 µs of it. -/
def State.shareTokens (s : State) (k region : Nat) : Nat :=
  let x := s.mem.share k region
  min (660000 * s.mem.rateOf k region) (x.tokens + (s.now - x.last) * s.mem.rateOf k region)
/-- What a number of bytes costs. -/
def meterCost (n : Nat) : Nat := n * 43253760

/-- Every share's tokens are counted at the rate so far, before a rate changes. -/
def State.settleShares (s : State) : State :=
  s.onMem (fun m => { m with shares := SMap.mapD Share.reset (fun key x => { x with
    tokens := s.shareTokens (key / 8) (key % 8), last := s.now }) m.shares })

/-! ### Cuts and restorations -/

/-- Cuts or restorations for a deliverable bandwidth, each announced in MB0 and in the mailboxes of the side stages it changes. -/
def State.rebalance (s : State) (d : Nat) : State :=
  let m := s.mem
  let cuts := decide (10 * d < m.inForce)
  let n := if cuts then m.cut d else m.restore d
  if n.scale = m.scale && n.flowOff == m.flowOff && n.captureOff == m.captureOff then s
  else
    let code := if cuts then Ev.memCut else Ev.memRestore
    let s1 := (s.settleShares.onMem (fun m => { m with scale := n.scale, flowOff := n.flowOff, captureOff := n.captureOff })).post 0 code Lv.device 0 (n.cutPayload d)
    forEach (s.sideStages.filter (fun k => [2, 3, 4].any (fun r => m.rateOf k r != n.rateOf k r))) (fun k s =>
      s.post k code Lv.device 0 (n.stagePayload k)) s1

/-! ### Bursts (R351) -/

/-- Control-die event numbers of external memory (R541): six for each sub-channel (unit: channel × 2 + sub-channel), in the order of R351. -/
def memEvt (unit i : Nat) : Nat := 0x20 + unit * 6 + i
/-- The sub-channel of a burst: a free choice among the populated ones. -/
def State.burstUnit (s : State) (i : Nat) : Nat :=
  let n := s.mem.populated.length
  let u := Config.burstUnit s.free i % (2 * n)
  ((s.mem.populated[u / 2]?).getD 0) * 2 + u % 2
/-- n bytes are read, or written, in bursts of 64 bytes. -/
def State.burstsRead (s : State) (n : Nat) : State :=
  (forEach (range 0 (n / 64)) (fun i x => x.bump 8 0 (memEvt (s.burstUnit i) 5)) s).nextFree
def State.burstsWritten (s : State) (n : Nat) : State :=
  (forEach (range 0 (n / 64)) (fun i x => x.onMem (fun m => { m with
    written := SMap.upd 0 (s.burstUnit i) (fun v => v + 1) m.written })) s).nextFree

/-! ### Spill -/

/-- The meters are held at zero while a speed step runs, and where DRAM is out of service (R342). -/
def State.metersHeld (s : State) : Bool := s.mem.step.isSome || !s.mem.inService

/-- May a stage write n bytes of spill (R284)? 0: it may; 1: RATE; 2: SPACE. -/
def State.spillRefusal (s : State) (k n : Nat) : Nat :=
  let x := s.mem.share k 2
  if s.retain then 2
  else if s.metersHeld || decide (s.shareTokens k 2 < meterCost n) then 1
  else if x.space * 2 ^ 30 < x.held + n then 2 else 0

/-- A share's meter pays for bytes written, which it then holds. -/
def State.spillWrite (s : State) (k n : Nat) : State :=
  let t := s.shareTokens k 2
  (s.onShare k 2 (fun x => { x with tokens := t - meterCost n, last := s.now, held := x.held + n, written := x.written + n })).burstsWritten n
/-- May a stage read n bytes of spill back now? -/
def State.spillReadable (s : State) (k n : Nat) : Bool := !s.metersHeld && decide (meterCost n ≤ s.shareTokens k 2)
/-- Bytes read back are paid for and held no more. -/
def State.spillRead (s : State) (k n : Nat) : State :=
  let t := s.shareTokens k 2
  (s.onShare k 2 (fun x => { x with tokens := t - meterCost n, last := s.now, held := x.held - n, read := x.read + n })).burstsRead n
/-- Bytes discarded are held no more. -/
def State.spillDrop (s : State) (k n : Nat) : State := s.onShare k 2 (fun x => { x with held := x.held - n })

/-- Bytes of FLOW or CAPTURE are read and written; an access refused by a suspended share is counted MEM_SUSPENDED (R347, R351). -/
def State.shareTraffic (s : State) (k region read written : Nat) : State :=
  ((s.onShare k region (fun x => { x with read := x.read + read, written := x.written + written })).burstsRead read).burstsWritten written
def State.shareRefused (s : State) (k region : Nat) : State := s.onShare k region (fun x => { x with refused := x.refused + 1 })

/-! ### Speed steps (R342) -/

/-- The payload of MEM_SPEED_STEP (R342, R507): old and new divider, cause (0 MEM.SPEED, 1 LEAN entered, 2 LEAN left, 3 module temperature),
OVERRIDE. -/
def speedPayload (old new cause override : Nat) : List Byte := leBytes 1 old ++ leBytes 1 new ++ leBytes 1 cause ++ leBytes 1 override

/-- A queued MEM.SPEED that a later request replaces ends with STALE (log entry 95). -/
def State.dropQueued (s : State) : State :=
  match s.mem.queued with
  | some q => if q.2 = 0 then s.finishNewest 0 0x0D04 St.stale [] else s
  | none => s

/-- A step begins: cuts first where bandwidth falls; one that runs lets the new one wait, the latest in place of another. -/
def State.speedStep (s : State) (target cause override : Nat) : State :=
  if s.mem.step.isSome then s.dropQueued.onMem (fun m => { m with queued := some (target, cause + 16 * override) })
  else
    let d := s.mem.deliverableAt target
    let s1 := if d < s.mem.deliverable then s.rebalance d else s
    s1.settleShares.onMem (fun m => { m with step := some (target, cause + 16 * override, s.now) })

/-- Leaving RETAIN (R343): the channels that stood in self-refresh are trained again, and what they did not retain is zeroed. -/
def State.leaveRetain (s : State) : State :=
  forEach s.mem.populated (fun c s =>
    if (s.mem.channel c).state = 3 ∧ (s.mem.channel c).selfRefresh ≠ 0 then s.onChannel c (fun x => { x with state := 0, selfRefresh := 0 }) else s) s

/-- What a change of clocking asks of the memory (R342, R343, R502): true to lean. -/
def State.clockingSpeed (s : State) (lean : Bool) (override : Nat) : State :=
  if s.mem.leanMem = 1 then (if lean then s else s.leaveRetain)
  else s.speedStep (if lean then s.mem.leanDivider else s.mem.runDivider) (if lean then 1 else 2) override

end Sys2Proof.Machine
end

