-- ==== Sys2Proof/Machine/QosOps.lean ====
section
/-! DEFINITION. Queues, shapers, gates and policers (chapter 10): shared operations. -/
namespace Sys2Proof.Machine
open Sys2Proof

/-! ### The egress of an lport and its queues -/

def State.eg (s : State) (l : Nat) : Egress := SMap.get Egress.reset l s.sw.egress
def State.onEg (s : State) (l : Nat) (f : Egress → Egress) : State :=
  s.onSw (fun w => { w with egress := SMap.upd Egress.reset l f w.egress })

/-- A queue at reset: queue 7 is at level 3 (R305). -/
def queueReset (q : Nat) : EQueue := if q = 7 then { EQueue.reset with level := 3 } else EQueue.reset
def State.queue (s : State) (l q : Nat) : EQueue := SMap.get (queueReset q) (l * 8 + q) s.sw.queues
def State.onQueue (s : State) (l q : Nat) (f : EQueue → EQueue) : State :=
  s.onSw (fun w => { w with queues := SMap.upd (queueReset q) (l * 8 + q) f w.queues })

/-- Add to a counter array (R293, R324): kind, tile, exit and class. -/
def State.arr (s : State) (kind t exit c n : Nat) : State :=
  s.onSw (fun w => { w with arrays := SMap.upd 0 ((kind * 8 + t) * 4096 + exit * 8 + c) (fun v => (v + n) % 2 ^ 64) w.arrays })
def State.arrOf (s : State) (kind t exit c : Nat) : Nat := SMap.get 0 ((kind * 8 + t) * 4096 + exit * 8 + c) s.sw.arrays

/-! ### Shapers (R309–R311) -/

/-- Tokens a refill adds: RATE × 64 kb/s × period ns, in 2^-16 bytes. -/
def refillTokens (rate period : Nat) : Nat := rate * period * 524288 / 1000000

/-- The refill period of an exponent in nanoseconds. -/
def refillPeriod (exp : Nat) : Nat := 32 * 2 ^ exp

/-- One refill at a local time; a write of the same PCLK waits for the next (R311), and a shaper just enabled starts full (R310). -/
def Shaper.refill (x : Shaper) (period localNs now pclk : Nat) : Shaper :=
  let due := match x.writtenAt with | some t => t / pclk != now / pclk | none => false
  let starts := due && x.en && !x.effEn
  let y : Shaper := if due then { x with
    effEn := x.en, effRate := x.rate, effBurst := x.burst, appliedAt := localNs, writtenAt := none } else x
  let cap : Int := (y.effBurst * 65536 : Nat)
  if !y.effEn then y
  else if starts then { y with tokens := cap }
  else { y with tokens := min cap (y.tokens + (refillTokens y.effRate period : Nat)) }

/-- A write of a shaper (R310, R311): a shaper taken off stops at once. -/
def Shaper.write (x : Shaper) (en : Bool) (rate burst now : Nat) : Shaper :=
  { x with en := en, rate := rate, burst := burst, effEn := x.effEn && en, writtenAt := some now }

/-- A charge in bytes (R310); a refund is clipped at BURST. -/
def Shaper.charge (x : Shaper) (n : Int) : Shaper :=
  if x.effEn then { x with tokens := min ((x.effBurst * 65536 : Nat) : Int) (x.tokens - n * 65536) } else x

/-- Does a shaper let its queue be eligible at a rate in Gb/s (R305, R309)? -/
def Shaper.allows (x : Shaper) (gbps : Nat) : Bool := !x.effEn || decide (0 < x.tokens) || decide (gbps * 1000000 < x.effRate * 64)

/-- Charge the shapers of a queue and of its lport. -/
def State.chargeShapers (s : State) (l q : Nat) (n : Int) : State :=
  (s.onQueue l q (fun x => { x with shaper := x.shaper.charge n })).onEg l (fun e => { e with shaper := e.shaper.charge n })

/-- The shapers of an lport and of its queues are refilled together. -/
def State.refillShapers (s : State) (l : Nat) : State :=
  let e := s.eg l
  let per := refillPeriod e.effExp
  let f (x : Shaper) : Shaper := x.refill per s.localNs s.now (pclkTicks s)
  let expDue := match e.shaper.writtenAt with | some t => t / pclkTicks s != s.now / pclkTicks s | none => false
  (forEach (range 0 8) (fun q s => s.onQueue l q (fun x => { x with shaper := f x.shaper })) s).onEg l (fun e => { e with
    shaper := f e.shaper, effExp := (if expDue then e.refillExp else e.effExp), refilledAt := s.localNs })

/-! ### Cue sheets (R312–R319) -/

/-- Network time in units of 1/66 ns. -/
def State.netU (s : State) : Int := ((s.netLinear * 66 + s.time.frac * 66 / 2 ^ 40 : Nat) : Int)

/-- The sheet entry at a phase of the cycle: its gates and where it ends; the last entry holds to the cycle's end, and the list is cut
there (R314). -/
def sheetAt (cycle phase : Nat) : List (Nat × Nat) → Nat → Nat × Nat
  | [], _ => (255, cycle)
  | [x], _ => (x.1, cycle)
  | x :: l, start => if phase < start + x.2 then (x.1, min (start + x.2) cycle) else sheetAt cycle phase l (start + x.2)

/-- Gates of a sheet at a network time in 1/66 ns, and the units until that entry ends (none: never). -/
def CueSheet.segment (sh : CueSheet) (t : Int) : Nat × Option Nat :=
  if sh.entries.isEmpty then (255, none)
  else
    let cyc := sh.cycle * 66
    let phase := ((t - ((sh.base * 66 : Nat) : Int)) % (cyc : Int)).toNat
    let r := sheetAt sh.cycle (phase / 66) sh.entries 0
    (r.1, some (r.2 * 66 - phase))

/-- The gates of an lport at a network time, a pending switch counted, and the units until they may change. -/
def Egress.segment (e : Egress) (t : Int) : Nat × Option Nat :=
  match e.pending with
  | some p =>
    let at_ : Int := ((p.2 * 66 : Nat) : Int)
    if at_ ≤ t then p.1.segment t
    else
      let r := e.sheet.segment t
      (r.1, some (match r.2 with | some n => min n (at_ - t).toNat | none => (at_ - t).toNat))
  | none => e.sheet.segment t

/-- Is the gate of a class open for a number of units from a time on (R315)? -/
def Egress.openFor (e : Egress) (c : Nat) : Nat → Int → Nat → Bool
  | 0, _, _ => false
  | fuel + 1, t, need =>
    let r := e.segment t
    if !r.1.testBit c then false
    else match r.2 with
      | none => true
      | some n => if need ≤ n then true else if n = 0 then false else e.openFor c fuel (t + (n : Int)) (need - n)

/-- Wire time of W bytes at a rate in Gb/s, in units of 1/66 ns, rounded up. -/
def wireUnits (w gbps : Nat) : Nat := if gbps = 0 then 0 else (w * 8 * 66 + gbps - 1) / gbps

/-- The entries of one cycle as (gates, nanoseconds) that fill it exactly. -/
def cycleParts (cycle : Nat) : List (Nat × Nat) → Nat → List (Nat × Nat)
  | [], _ => []
  | [x], start => if start < cycle then [(x.1, cycle - start)] else []
  | x :: l, start => if start < cycle then (x.1, min x.2 (cycle - start)) :: cycleParts cycle l (start + x.2) else []

/-- The longest open span of a class (R317), a span that wraps the cycle included; none where it has no limit. -/
def CueSheet.longest (sh : CueSheet) (c : Nat) : Option Nat :=
  let ps := cycleParts sh.cycle sh.entries 0
  if ps.all (fun p => p.1.testBit c) then none
  else
    let r := (ps ++ ps).foldl (fun (a : Nat × Nat) p => if p.1.testBit c then (a.1 + p.2, max a.2 (a.1 + p.2)) else (0, a.2)) (0, 0)
    some r.2

/-- The number of the entry in force and the phase, in nanoseconds (R323). -/
def CueSheet.position (sh : CueSheet) (t : Int) : Nat × Nat :=
  if sh.entries.isEmpty then (0, 0)
  else
    let phase := ((t - ((sh.base * 66 : Nat) : Int)) % ((sh.cycle * 66 : Nat) : Int)).toNat / 66
    ((sh.entries.foldl (fun (a : Nat × Nat × Bool) x =>
      if a.2.2 || decide (phase < a.2.1 + x.2) then (a.1, a.2.1, true) else (a.1 + 1, a.2.1 + x.2, false)) (0, 0, false)).1.min (sh.entries.length - 1), phase)

/-- The switch time of a pending sheet (R318). -/
def CueSheet.switchTime (operational : CueSheet) (setTime : Nat) : Nat :=
  if operational.entries.isEmpty then setTime
  else
    let d : Int := ((setTime : Int) - (operational.base : Int)) % (operational.cycle : Int)
    if d = 0 then setTime else setTime + operational.cycle - d.toNat

/-- The pending sheet becomes operational, and CUESHEET_SWITCH is posted with S (R318). -/
def State.switchSheet (s : State) (l : Nat) : State :=
  match (s.eg l).pending with
  | some p =>
    (s.onEg l (fun e => { e with sheet := p.1, pending := none, gates := (p.1.segment s.netU).1 })).post (s.portStage (l / 8)) Ev.cuesheetSwitch
      Lv.port l (leBytes 2 l ++ leBytes 2 p.1.entries.length ++ leBytes 6 (p.2 / 1000000000) ++ zeros 2 ++ leBytes 4 (p.2 % 1000000000))
  | none => s

/-- Gates as the operational sheet has them now. -/
def State.setGates (s : State) (l : Nat) : State := s.onEg l (fun e => { e with gates := (e.sheet.segment s.netU).1 })

/-- Gates after a step of network time (R319): switches that the step passed take effect, and gates follow the new time. -/
def State.gatesStepped (s : State) : State :=
  s.sw.egress.foldl (fun s e =>
    match (s.eg e.1).pending with
    | some p => if p.2 ≤ s.netLinear then s.switchSheet e.1 else s.setGates e.1
    | none => s.setGates e.1) s

/-! ### Policers (R297–R304) -/

def polAlg (r : Nat) : Nat := bitsOf r 254 2
def polAware (r : Nat) : Bool := bitOf r 253
def polUnits (r : Nat) : Nat := bitsOf r 251 2
def polYellow (r : Nat) : Nat := bitsOf r 249 2
def polRed (r : Nat) : Nat := bitsOf r 247 2
def polYellowTc (r : Nat) : Nat := bitsOf r 244 3
def polRedTc (r : Nat) : Nat := bitsOf r 241 3
def polCir (r : Nat) : Nat := bitsOf r 199 42
def polPir (r : Nat) : Nat := bitsOf r 157 42
def polCbs (r : Nat) : Nat := bitsOf r 125 32
def polEbs (r : Nat) : Nat := bitsOf r 93 32
def polDec (r : Nat) : Nat := bitsOf r 79 14

/-- A record within the ranges of R298. -/
def policerOk (r : Nat) : Bool :=
  polAlg r != 3 && polUnits r != 3 && polYellow r != 3 && polRed r != 3 && bitsOf r 0 79 == 0 && decide (1 ≤ polCir r) &&
    decide (polCir r ≤ 2400000000000) && decide (1 ≤ polCbs r) && decide (64 ≤ polDec r) && decide (polDec r ≤ 16000) &&
    (polAlg r != 2 || (decide (polCir r ≤ polPir r) && decide (1 ≤ polEbs r)))

def State.policerRec (s : State) (pol : Nat) : Nat := SMap.get 0 pol s.sw.policers
def State.bucket (s : State) (t pol : Nat) : Policer := SMap.get Policer.reset (t * 8192 + pol) s.sw.buckets
def State.onBucket (s : State) (t pol : Nat) (f : Policer → Policer) : State :=
  s.onSw (fun w => { w with buckets := SMap.upd Policer.reset (t * 8192 + pol) f w.buckets })

/-- Tokens in 2^-16 earned in a number of nanoseconds at a rate, with the fraction carried. -/
def earned (ns rate frac : Nat) : Nat × Nat := ((ns * rate * 65536 + frac) / 1000000000, (ns * rate * 65536 + frac) % 1000000000)

/-- Tokens are added for the time since the last metering (R299). -/
def Policer.fill (p : Policer) (r localNs : Nat) : Policer :=
  let ns := localNs - p.last
  let cbs : Int := (polCbs r * 65536 : Nat)
  let ebs : Int := (polEbs r * 65536 : Nat)
  let c := earned ns (polCir r) p.fracC
  let total : Int := p.c + (c.1 : Int)
  let q := { p with last := localNs }
  if polAlg r = 1 then
    { q with c := min cbs total, fracC := c.2, e := (if cbs < total then min ebs (p.e + (total - max cbs p.c)) else p.e) }
  else if polAlg r = 2 then
    let e := earned ns (polPir r) p.fracE
    { q with c := min cbs total, fracC := c.2, e := min ebs (p.e + (e.1 : Int)), fracE := e.2 }
  else q

/-- Every bucket full. -/
def Policer.full (p : Policer) (r localNs : Nat) : Policer :=
  { p with c := (polCbs r * 65536 : Nat), e := (polEbs r * 65536 : Nat), last := localNs, fracC := 0, fracE := 0, refills := p.refills + 1 }

/-- A write of a record to one tile's buckets (R299, R304): full where ALG, AWARE or UNITS change or at the first write, clipped otherwise. -/
def Policer.rewrite (p : Policer) (old : Option Nat) (new localNs : Nat) : Policer :=
  match old with
  | none => p.full new localNs
  | some o =>
    if polAlg o = polAlg new ∧ polAware o = polAware new ∧ polUnits o = polUnits new then
      let q := p.fill o localNs
      { q with c := min ((polCbs new * 65536 : Nat) : Int) q.c, e := min ((polEbs new * 65536 : Nat) : Int) q.e }
    else p.full new localNs

/-- The colour of a packet of B tokens (R300) and the buckets charged (bit 0 C, bit 1 E or P). -/
def Policer.colour (p : Policer) (r pre b : Nat) : Nat × Nat :=
  let need : Int := (b * 65536 : Nat)
  if polAlg r = 1 then
    (if pre = 0 ∧ need ≤ p.c then (0, 1) else if pre ≤ 1 ∧ need ≤ p.e then (1, 2) else (2, 0))
  else if polAlg r = 2 then
    (if pre = 0 ∧ need ≤ p.e ∧ need ≤ p.c then (0, 3) else if pre ≤ 1 ∧ need ≤ p.e then (1, 2) else (2, 0))
  else (0, 0)

/-- Charge tokens to the buckets of a mask; a refund is clipped at the burst (R302). -/
def Policer.chargeMask (p : Policer) (r mask : Nat) (n : Int) : Policer :=
  let cbs : Int := (polCbs r * 65536 : Nat)
  let ebs : Int := (polEbs r * 65536 : Nat)
  { p with
    c := if mask.testBit 0 then (if n < 0 then min cbs (p.c - n * 65536) else p.c - n * 65536) else p.c,
    e := if mask.testBit 1 then (if n < 0 then min ebs (p.e - n * 65536) else p.e - n * 65536) else p.e }

/-- Add to one of a policer's counters: packets of colour k at 2k, bytes at 2k + 1, POL_DROP at 6, TAIL_ADJUST at 7 (R304). -/
def Policer.countUp (p : Policer) (i n : Nat) : Policer :=
  { p with counts := setAt p.counts i (((p.counts[i]?).getD 0 + n) % 2 ^ 64) }

/-- The pre-colour that a stage's colour map gives (R301). -/
def State.preColour (s : State) (k : Nat) (slots : SMap Nat) : Nat :=
  match SMap.find k s.sw.colours with
  | some (src :: slot :: shift :: width :: map) =>
    if src = 0 then 0 else (map[bitsOf (SMap.get 0 slot slots) shift width]?).getD 0
  | _ => 0

/-- What a metering decides: colour, action (0 continue, 1 drop, 2 class), class, and what its tail must adjust. -/
structure MeterRes where
  col : Nat
  act : Nat
  tc : Nat
  later : Option Metered
  deriving DecidableEq, Repr

/-- Meter a packet (R297–R303): LEN, whether the tail has arrived, MAX_FRAME of the ingress sub-port. -/
def State.meter (s : State) (t k pol len : Nat) (tailIn : Bool) (maxFrame : Nat) (slots : SMap Nat) : MeterRes × State :=
  let r := s.policerRec pol
  let p := (s.bucket t pol).fill r s.localNs
  let extra := if polUnits r = 1 then 20 else 0
  let subst := min (polDec r) maxFrame + extra
  let b := if polUnits r = 2 then 1 else if tailIn then len + extra else subst
  let pre := if polAware r then s.preColour k slots else 0
  let x := p.colour r pre b
  let act := if x.1 = 0 then 0 else if x.1 = 1 then polYellow r else polRed r
  let p1 := ((p.chargeMask r x.2 (b : Int)).countUp (2 * x.1) 1).countUp (2 * x.1 + 1) len
  let p2 := if act = 1 then p1.countUp 6 1 else p1
  ({ col := x.1, act := act, tc := (if x.1 = 1 then polYellowTc r else polRedTc r),
     later := if !tailIn && polUnits r != 2 && x.2 != 0 then some { policer := pol, buckets := x.2, subst := subst, refills := p.refills } else none },
   s.onBucket t pol (fun _ => p2))

/-- The tail of a frame metered with the substitute length arrives (R302): a bad tail forgoes the refund; buckets refilled since are left. -/
def State.tailAdjust (s : State) (t len : Nat) (good : Bool) (m : Metered) : State :=
  let r := s.policerRec m.policer
  let p := s.bucket t m.policer
  let diff : Int := ((len + (if polUnits r = 1 then 20 else 0) : Nat) : Int) - (m.subst : Int)
  if p.refills != m.refills then s
  else if diff < 0 && !good then s
  else s.onBucket t m.policer (fun _ => ((p.fill r s.localNs).chargeMask r m.buckets diff).countUp 7 1)

end Sys2Proof.Machine
end

