-- ==== Sys2Proof/Machine/TableOps.lean ====
section
/-! DEFINITION. Table memory (chapters 4 and 5): version records, lookup banks, instances and their words, hashes, placement with its
moves, and lookups by key. -/
namespace Sys2Proof.Machine
open Sys2Proof

/-! ### Versions and bindings -/

def State.ver (s : State) (k : Nat) : Ver := SMap.get Ver.reset k s.tab.vers
def State.onVer (s : State) (k : Nat) (f : Ver → Ver) : State :=
  s.onTab (fun t => { t with vers := SMap.upd Ver.reset k f t.vers })

/-- The version after a version in the cycle of R174. -/
def nextVersion (v : Nat) : Nat := (v + 1) % 14

/-- Does a version of a stage differ from its current one: is it the retiring one (R175)? -/
def State.isOld (s : State) (k v : Nat) : Bool := (s.ver k).cur != v

/-- VMASK of the entries valid only in the current, and only in the next version (R178). -/
def State.curMask (s : State) (k : Nat) : Nat := 2 ^ ((s.ver k).cur % 2)
def State.nextMask (s : State) (k : Nat) : Nat := 2 ^ (1 - (s.ver k).cur % 2)

/-- A commit of the stage is accepted and has not flipped (R182). -/
def State.committing (s : State) (k : Nat) : Bool := (s.ver k).state == 1 || (s.ver k).state == 2

/-- The stage has a retiring version (R175). -/
def State.hasRetiring (s : State) (k : Nat) : Bool := (s.ver k).retiring.isSome

/-- What serves a version: the retiring one's own where it differs (R98, R108). -/
def Bind.serving {α : Type} (b : Bind α) (old : Bool) : Option α := if old && b.split then b.old else b.cur

/-- At a flip what is staged becomes current (R98, R108). -/
def Bind.flip {α : Type} (b : Bind α) : Bind α :=
  match b.next with
  | some x => { cur := some x, next := none, old := b.cur, split := true }
  | none => { b with old := none, split := false }

/-- At retirement what served only the retired version is released. -/
def Bind.retire {α : Type} (b : Bind α) : Bind α := { b with old := none, split := false }

/-- The stage's batch has a staged change (R193). -/
def State.setBatch (s : State) (k : Nat) : State := s.onVer k (fun v => { v with batch := true })

/-! ### The banked lookup configuration (R165) -/

def State.cfgBank (s : State) (k bank : Nat) : LookCfg := SMap.get LookCfg.reset (k * 2 + bank) s.tab.cfgs
/-- The bank a version uses. -/
def State.cfgOf (s : State) (k v : Nat) : LookCfg := s.cfgBank k (v % 2)
def State.putCfgBank (s : State) (k bank : Nat) (c : LookCfg) : State :=
  s.onTab (fun t => { t with cfgs := SMap.put LookCfg.reset (k * 2 + bank) c t.cfgs })
/-- The configuration of the stage's next version: the other bank once a change is staged, the current one before. -/
def State.nextCfg (s : State) (k : Nat) : LookCfg :=
  if s.tab.cfgStarted.contains k then s.cfgBank k (1 - (s.ver k).cur % 2) else s.cfgOf k (s.ver k).cur
/-- Stage a change of configuration: the first one of a batch copies the current bank. -/
def State.stageCfg (s : State) (k : Nat) (f : LookCfg → LookCfg) : State :=
  ((s.putCfgBank k (1 - (s.ver k).cur % 2) (f (s.nextCfg k))).onTab (fun t => { t with
    cfgStarted := if t.cfgStarted.contains k then t.cfgStarted else k :: t.cfgStarted })).setBatch k

/-! ### Instances (R105–R108) -/

def State.insts (s : State) (k kind : Nat) : Bind Inst := SMap.get Bind.empty (k * 16 + kind) s.tab.insts
def State.onInsts (s : State) (k kind : Nat) (f : Bind Inst → Bind Inst) : State :=
  s.onTab (fun t => { t with insts := SMap.upd Bind.empty (k * 16 + kind) f t.insts })
/-- The instance of a kind that serves a version of a stage. -/
def State.instOf (s : State) (k kind v : Nat) : Option Inst := (s.insts k kind).serving (s.isOld k v)
/-- The instance of a kind that serves the stage's next version. -/
def State.nextInst (s : State) (k kind : Nat) : Option Inst :=
  match (s.insts k kind).next with | some i => some i | none => (s.insts k kind).cur
/-- Every instance of a kind that holds paddocks. -/
def Bind.all {α : Type} (b : Bind α) : List α := b.cur.toList ++ b.next.toList ++ b.old.toList

/-- Paddocks used in a tile, of every stage. -/
def State.padsUsed (s : State) (t : Nat) : List Nat :=
  (s.tab.insts.map (fun e => (e.2.all.map (fun i => SMap.get [] t i.pads)).flatten)).flatten
/-- Paddocks used in a tile by one stage. -/
def State.padsUsedBy (s : State) (k t : Nat) : Nat :=
  ((s.tab.insts.filter (fun e => e.1 / 16 == k)).map (fun e => (e.2.all.map (fun i => (SMap.get [] t i.pads).length)).foldl (· + ·) 0)).foldl
    (· + ·) 0
/-- Paddocks a stage holds in a tile (R436). -/
def State.padsHeld (s : State) (k t : Nat) : Nat :=
  if k = 0 then 96 - sumOver (s.sideStages.filter (fun j => (s.stageTiles j).contains t)) (fun j => (s.stage j).paddocks)
  else if (s.stageTiles k).contains t then (s.stage k).paddocks else 0
def State.padsFree (s : State) (k t : Nat) : Nat := s.padsHeld k t - s.padsUsedBy k t
/-- Does a stage hold a multicast head (R121, R436)? -/
def State.ownsHead (s : State) (k h : Nat) : Bool :=
  let inRange (j : Nat) : Bool := decide ((s.stage j).mcBase ≤ h) && decide (h < (s.stage j).mcBase + (s.stage j).mcCount)
  if k = 0 then !s.sideStages.any inRange else inRange k
/-- The lowest `n` paddocks of a tile that no instance uses (log entry 37: which numbers an instance takes). -/
def State.takePads (s : State) (t n : Nat) : List Nat := ((range 0 96).filter (fun p => !(s.padsUsed t).contains p)).take n

/-- The stage that a paddock's instance belongs to. -/
def State.padStage (s : State) (t p : Nat) : Option Nat :=
  (s.tab.insts.find? (fun e => e.2.all.any (fun i => (SMap.get [] t i.pads).contains p))).map (fun e => e.1 / 16)

/-! ### Words (R102) -/

def wordKey (t pad line word : Nat) : Nat := ((t * 96 + pad) * 8192 + line) * 4 + word
def State.word (s : State) (w : Nat) : Nat := SMap.get 0 w s.tab.sram
/-- Write a word; a poisoned word is good again. -/
def State.putWord (s : State) (w v : Nat) : State :=
  s.onTab (fun t => { t with sram := SMap.put 0 w (v % 2 ^ 128) t.sram, poison := t.poison.filter (fun x => x != w) })

/-- A place in an instance: paddock of the instance, line, and bits of the line. -/
structure Loc where
  pad : Nat
  line : Nat
  lo : Nat
  w : Nat
  deriving DecidableEq, Repr

/-- The tile and paddock that hold a paddock of an instance, as a tile of the stage sees it (R111). -/
def Inst.place (i : Inst) (t pad : Nat) : Option (Nat × Nat) :=
  if i.split then
    let lower := t - t % 2
    let tt := if pad < i.p / 2 then lower else lower + 1
    ((SMap.get [] tt i.pads)[if pad < i.p / 2 then pad else pad - i.p / 2]?).map (fun x => (tt, x))
  else ((SMap.get [] t i.pads)[pad]?).map (fun x => (t, x))

/-- The words of a place. -/
def locWords (i : Inst) (t : Nat) (l : Loc) : List Nat :=
  match i.place t l.pad with
  | some (tt, p) => (range (l.lo / 128) ((l.lo + l.w + 127) / 128 - l.lo / 128)).map (fun j => wordKey tt p l.line j)
  | none => []

/-- Does a place lie in the twin (R132)? -/
def locTwin (i : Inst) (t : Nat) (l : Loc) : Bool := match i.place t l.pad with | some (tt, _) => tt != t | none => false

/-- The number that consecutive words spell, the first lowest. -/
def wordsNat (s : State) : List Nat → Nat
  | [] => 0
  | w :: ws => s.word w + 2 ^ 128 * wordsNat s ws

def State.readLoc (s : State) (i : Inst) (t : Nat) (l : Loc) : Nat := bitsOf (wordsNat s (locWords i t l)) (l.lo % 128) l.w
def State.locPoison (s : State) (i : Inst) (t : Nat) (l : Loc) : Bool := (locWords i t l).any (fun w => s.tab.poison.contains w)

/-- Write consecutive words from a number. -/
def putWords (s : State) : List Nat → Nat → State
  | [], _ => s
  | w :: ws, v => putWords (s.putWord w (v % 2 ^ 128)) ws (v / 2 ^ 128)

def State.writeLoc (s : State) (i : Inst) (t : Nat) (l : Loc) (v : Nat) : State :=
  let ws := locWords i t l
  let old := wordsNat s ws
  let sh := 2 ^ (l.lo % 128)
  putWords s ws (old - bitsOf old (l.lo % 128) l.w * sh + (v % 2 ^ l.w) * sh)

/-! ### Hashes (R110) -/

/-- H1: CRC-32C from a seed. -/
def hash1 (seed : Nat) (bs : List Byte) : Nat := takeBytes crc32cByte bs (seed % 2 ^ 32) ^^^ 0xFFFFFFFF
/-- H2: CRC-32 of IEEE 802.3 from a seed. -/
def hash2 (seed : Nat) (bs : List Byte) : Nat := takeBytes crc32Byte bs (seed % 2 ^ 32) ^^^ 0xFFFFFFFF

/-- Bytes of a kind's key. -/
def keyLen (kind : Nat) : Nat := if kind = 3 || kind = 5 then 18 else 8

/-- Buckets of an instance (R111, R144). -/
def Inst.buckets (i : Inst) : Nat := if i.kind = 3 then 4096 * i.p else if i.kind = 4 then 16384 * i.p else 8192 * i.p

/-- The candidate buckets of a key. -/
def Inst.cands (i : Inst) (key : Nat) : List Nat :=
  let bs := beBytes (keyLen i.kind) key
  let b1 := hash1 i.seed1 bs % i.buckets
  let b2 := hash2 i.seed2 bs % i.buckets
  if b1 = b2 then [b1] else [b1, b2]

/-! ### Entries of hashed kinds: 1 L2, 2 HOST4, 3 HOST6, 4 PFX4, 5 PFX6 (R115–R117, R144, R149) -/

/-- Slot j of bucket b; `long` for a PFX6 pair that starts there. -/
def Inst.slot (i : Inst) (b j : Nat) (long : Bool) : Loc :=
  let q := b / i.p
  if i.kind = 3 then { pad := b % i.p, line := 2 * q + j / 2, lo := 256 * (j % 2), w := 256 }
  else if i.kind = 4 then { pad := b % i.p, line := q / 2, lo := (if q % 2 = 0 then 448 else 192) - 64 * j, w := 64 }
  else { pad := b % i.p, line := q, lo := 128 * j, w := if long then 256 else 128 }

def entVmask (kind raw : Nat) : Nat := if kind = 4 then bitsOf raw 62 2 else bitsOf raw 126 2
def entSetVmask (kind raw m : Nat) : Nat :=
  let at_ := if kind = 4 then 62 else 126
  raw - bitsOf raw at_ 2 * 2 ^ at_ + m * 2 ^ at_
def entStage (kind raw : Nat) : Nat := if kind = 4 then bitsOf raw 59 3 else bitsOf raw 123 3
/-- A PFX6 entry of the long form. -/
def entLong (kind raw : Nat) : Bool := kind == 5 && bitOf raw 117
/-- The two CHK fields of a two-word entry; a single word has none. -/
def entChk (kind raw : Nat) : Nat × Nat :=
  if kind = 3 then (bitsOf raw 107 4, bitsOf raw 252 4) else if entLong kind raw then (bitsOf raw 113 4, bitsOf raw 252 4) else (0, 0)
def entTorn (kind raw : Nat) : Bool := (entChk kind raw).1 != (entChk kind raw).2
/-- Set both CHK fields. -/
def entSetChk (kind raw c : Nat) : Nat :=
  if kind = 3 then raw - bitsOf raw 107 4 * 2 ^ 107 - bitsOf raw 252 4 * 2 ^ 252 + c * 2 ^ 107 + c * 2 ^ 252
  else if entLong kind raw then raw - bitsOf raw 113 4 * 2 ^ 113 - bitsOf raw 252 4 * 2 ^ 252 + c * 2 ^ 113 + c * 2 ^ 252
  else raw
/-- The content of an entry: VMASK and CHK zero. -/
def entContent (kind raw : Nat) : Nat := entSetChk kind (entSetVmask kind raw 0) 0

/-- The hash key of an entry (R110, R144, R149). -/
def entKey (kind raw : Nat) : Nat :=
  let st := entStage kind raw
  if kind = 1 then st * 2 ^ 61 + bitsOf raw 108 12 * 2 ^ 48 + bitsOf raw 60 48
  else if kind = 2 then st * 2 ^ 61 + bitsOf raw 111 12 * 2 ^ 48 + bitsOf raw 79 32
  else if kind = 3 then st * 2 ^ 141 + bitsOf raw 111 12 * 2 ^ 128 + bitsOf raw 43 64 * 2 ^ 64 + bitsOf raw 188 64
  else if kind = 4 then st * 2 ^ 61 + bitsOf raw 54 5 * 2 ^ 56 + bitsOf raw 21 33
  else if entLong kind raw then st * 2 ^ 141 + bitsOf raw 118 5 * 2 ^ 136 + bitsOf raw 49 64 * 2 ^ 65 + bitsOf raw 187 65
  else st * 2 ^ 141 + bitsOf raw 118 5 * 2 ^ 136 + bitsOf raw 52 65 * 2 ^ 64

/-- A learned L2 entry (STATIC clear). -/
def entLearned (kind raw : Nat) : Bool := kind == 1 && !bitOf raw 122

/-- What stands in slot j of a bucket: 0 free, 1 an entry, 2 a long form, 3 the second word of one. -/
def State.slotState (s : State) (i : Inst) (t b j : Nat) : Nat :=
  if i.kind = 5 && j % 2 = 1 && entLong 5 (s.readLoc i t (i.slot b (j - 1) false)) &&
      entVmask 5 (s.readLoc i t (i.slot b (j - 1) false)) != 0 then 3
  else
    let raw := s.readLoc i t (i.slot b j false)
    if entVmask i.kind raw = 0 then 0 else if entLong i.kind raw then 2 else 1

/-- The entry in slot j of a bucket. -/
def State.slotRaw (s : State) (i : Inst) (t b j : Nat) : Nat :=
  s.readLoc i t (i.slot b j (s.slotState i t b j == 2))

/-- Room for an entry in a bucket whose four slots stand as listed. -/
def roomIn (long : Bool) (st : List Nat) : Option Nat :=
  if long then
    if st[0]? == some 0 && st[1]? == some 0 then some 0 else if st[2]? == some 0 && st[3]? == some 0 then some 2 else none
  else (findIdxVal (fun x => x == 0) st 0).map (fun e => e.1)

def State.bucketState (s : State) (i : Inst) (t b : Nat) : List Nat := (range 0 4).map (fun j => s.slotState i t b j)

/-- The slots of a bucket with an entry taken out of it. -/
def without (st : List Nat) (j : Nat) : List Nat :=
  if st[j]? == some 2 then setAt (setAt st j 0) (j + 1) 0 else setAt st j 0

/-- Write an entry into a free slot: CHK goes up by one in both words (R117). -/
def State.writeEnt (s : State) (i : Inst) (t b j raw : Nat) : State :=
  let l := i.slot b j (entLong i.kind raw)
  let c := ((entChk i.kind (s.readLoc i t { l with w := (if i.kind = 4 then 64 else 256) })).1 + 1) % 16
  s.writeLoc i t l (entSetChk i.kind raw c)

def State.clearEnt (s : State) (i : Inst) (t b j : Nat) : State :=
  s.writeLoc i t (i.slot b j (s.slotState i t b j == 2)) 0

/-! ### Insertion with moves (R113) -/

/-- The other candidate bucket of an entry. -/
def otherBucket (i : Inst) (b raw : Nat) : Option Nat := (i.cands (entKey i.kind raw)).find? (fun x => x != b)

/-- Entries of a bucket whose removal would make room for an entry. -/
def State.movers (s : State) (i : Inst) (t b : Nat) (long : Bool) : List (Nat × Nat) :=
  ((range 0 4).filter (fun j => let st := s.bucketState i t b
    ((st[j]? == some 1) || (st[j]? == some 2)) && (roomIn long (without st j)).isSome)).map (fun j => (b, j))

/-- A chain of moves, the first to be made at its head: breadth first over the entries that stand in the way. -/
def State.findChain (s : State) (i : Inst) (t : Nat) : Nat → List (List (Nat × Nat)) → Option (List (Nat × Nat))
  | 0, _ => none
  | n + 1, paths =>
    let ends : List (Nat × Nat) → Bool := fun p => match p with
      | (b, j) :: _ => match otherBucket i b (s.slotRaw i t b j) with
        | some o => (roomIn (s.slotState i t b j == 2) (s.bucketState i t o)).isSome
        | none => false
      | [] => false
    match paths.find? ends with
    | some p => some p
    | none =>
      s.findChain i t n ((paths.map (fun p => match p with
        | (b, j) :: _ => match otherBucket i b (s.slotRaw i t b j) with
          | some o => ((s.movers i t o (s.slotState i t b j == 2)).filter (fun x => !p.contains x)).map (fun x => x :: p)
          | none => []
        | [] => [])).flatten)

/-- Make one move: the new copy first, then the old slot is cleared. -/
def State.moveEnt (s : State) (i : Inst) (t : Nat) (x : Nat × Nat) : State :=
  let raw := s.slotRaw i t x.1 x.2
  match otherBucket i x.1 raw with
  | some o => match roomIn (entLong i.kind raw) (s.bucketState i t o) with
    | some j => ((s.writeEnt i t o j raw).clearEnt i t x.1 x.2).onTab (fun a => { a with
        moves := SMap.upd 0 ((t * 5 + entStage i.kind raw) * 16 + i.kind) (fun n => n + 1) a.moves })
    | none => s
  | none => s

/-- Put an entry into the first candidate bucket with room. -/
def State.placeEnt (s : State) (i : Inst) (t raw : Nat) : Option State :=
  match (i.cands (entKey i.kind raw)).find? (fun b => (roomIn (entLong i.kind raw) (s.bucketState i t b)).isSome) with
  | some b => (roomIn (entLong i.kind raw) (s.bucketState i t b)).map (fun j => s.writeEnt i t b j raw)
  | none => none

/-- Insert an entry in one tile, with at most `limit` moves; none when they do not suffice. -/
def State.insertEnt (s : State) (i : Inst) (t limit raw : Nat) : Option State :=
  match s.placeEnt i t raw with
  | some x => some x
  | none =>
    let roots := ((i.cands (entKey i.kind raw)).map (fun b => (s.movers i t b (entLong i.kind raw)).map (fun x => [x]))).flatten
    match s.findChain i t limit roots with
    | some p => (p.foldl (fun x m => x.moveEnt i t m) s).placeEnt i t raw
    | none => none

/-- The slots of a tile that hold an entry of a key, with what they hold. -/
def State.slotsOfKey (s : State) (i : Inst) (t key : Nat) : List (Nat × Nat × Nat) :=
  ((i.cands key).map (fun b => ((range 0 4).filter (fun j =>
    (s.slotState i t b j == 1 || s.slotState i t b j == 2) && entKey i.kind (s.slotRaw i t b j) == key)).map
      (fun j => (b, j, s.slotRaw i t b j)))).flatten

/-- The tiles whose memory a stage's instance is written in: each tile, or for a SPLIT instance the lower twin of each pair. -/
def State.instTiles (s : State) (k : Nat) (i : Inst) : List Nat :=
  if i.split then (s.stageTiles k).filter (fun t => t % 2 == 0) else s.stageTiles k

/-! ### Lookups of hashed kinds (R112, R132, R133) -/

/-- What a lookup found: the entry, whether a poisoned slot stood in its way, twin reads, torn reads. -/
structure Found where
  raw : Option Nat
  blocked : Bool
  twin : Bool
  torn : Nat
  deriving DecidableEq, Repr

/-- A lookup by key among the words of one instance, for a version's parity. A static L2 entry wins over a learned one. -/
def State.find (s : State) (i : Inst) (t key parity : Nat) : Found :=
  let bs := i.cands key
  let hits := (s.slotsOfKey i t key).filter (fun x => bitOf (entVmask i.kind x.2.2) parity)
  let good := hits.filter (fun x => !entTorn i.kind x.2.2 && !s.locPoison i t (i.slot x.1 x.2.1 (entLong i.kind x.2.2)))
  { raw := (match good.find? (fun x => !entLearned i.kind x.2.2) with
            | some x => some x.2.2
            | none => (good.map (fun x => x.2.2)).head?),
    blocked := bs.any (fun b => (range 0 4).any (fun j => s.locPoison i t (i.slot b j false))),
    twin := bs.any (fun b => locTwin i t (i.slot b 0 false)), torn := (hits.filter (fun x => entTorn i.kind x.2.2)).length }

/-- A lookup of a hashed kind for a packet: a poisoned slot is served by the twin's own instance where the stage owns both tiles and
the instance is LOCAL, and acts as a miss otherwise. Answers the entry, and the twin reads made. -/
def State.lookHash (s : State) (t k v kind key : Nat) : Option Nat × Nat × State :=
  match s.instOf k kind v with
  | none => (none, 0, s)
  | some i =>
    let f := s.find i t key (v % 2)
    let s1 := s.bumpN t k 0x32 f.torn
    if f.raw.isSome || !f.blocked then
      if f.twin then (f.raw, 1, s1.bump t k 0x3B) else (f.raw, 0, s1)
    else if !i.split && (s.stageTiles k).contains (twinOf t) then ((s.find i (twinOf t) key (v % 2)).raw, 1, s1.bump t k 0x3B)
    else (none, 0, s1.bump t k 0x3D)

/-! ### Direct-indexed kinds (R118–R122, R141, R143; log entry for their order in the paddocks) -/

/-- The place of index i of a direct kind: 9 NHOP, 11 MCAST_HEAD, 13 COUNTER, 10 GROUP descriptors, 12 MCAST_REPL. -/
def directLoc (kind idx : Nat) : Loc :=
  if kind = 12 then { pad := idx / 65536, line := idx % 65536 / 8, lo := 64 * (idx % 8), w := 64 }
  else { pad := idx / 32768, line := idx % 32768 / 4, lo := 128 * (idx % 4), w := 128 }
/-- A GROUP member word. -/
def memberLoc (w : Nat) : Loc := { pad := w / 131072, line := w % 131072 / 16, lo := 32 * (w % 16), w := 32 }
/-- Direct entry i of IPv4 domain d (R141), and its filter map (R143). -/
def directHalfLoc (d i : Nat) : Loc := { pad := d, line := i / 8, lo := 448 - 64 * (i % 8), w := 64 }
def filter4Loc (d i : Nat) : Loc :=
  { pad := d / 4, line := (d % 4 * 65536 + i) / 32, lo := 496 - 16 * ((d % 4 * 65536 + i) % 32), w := 16 }
/-- Filter entry e (0–2) of index i of a FILTER6 instance (R148). -/
def Inst.filter6Loc (i : Inst) (idx e : Nat) : Loc :=
  { pad := idx % i.p, line := idx / i.p, lo := (if e = 0 then 342 else if e = 1 then 172 else 2), w := 170 }
/-- The index of a /32 in a FILTER6 instance. -/
def Inst.filter6Idx (i : Inst) (k d top : Nat) : Nat := hash1 i.seed1 (beBytes 5 (k * 2 ^ 37 + d * 2 ^ 32 + top)) % (8192 * i.p)

/-- Capacity of a direct kind (R109). -/
def Inst.capacity (i : Inst) : Nat :=
  if i.kind = 10 then 16384 else if i.kind = 11 then 65536 else if i.kind = 12 then 65536 * i.p else 32768 * i.p

/-- Read a direct entry for a packet: a poisoned word is read in the twin's copy, or acts as a miss (R133). -/
def State.lookLoc (s : State) (t k v kind : Nat) (l : Loc) : Option Nat × Nat × State :=
  match s.instOf k kind v with
  | none => (none, 0, s)
  | some i =>
    if !s.locPoison i t l then
      if locTwin i t l then (some (s.readLoc i t l), 1, s.bump t k 0x3B) else (some (s.readLoc i t l), 0, s)
    else if !i.split && (s.stageTiles k).contains (twinOf t) then (some (s.readLoc i (twinOf t) l), 1, s.bump t k 0x3B)
    else (none, 0, s.bump t k 0x3D)

/-- An entry of NHOP, GROUP or MCAST_HEAD valid in a version. -/
def State.lookDirect (s : State) (t k v kind idx : Nat) : Option Nat × Nat × State :=
  let r := s.lookLoc t k v kind (directLoc kind idx)
  match r.1 with
  | some raw => if bitOf (bitsOf raw 126 2) (v % 2) && bitsOf raw 123 3 == k then r else (none, r.2.1, r.2.2)
  | none => r

/-! ### Group resolution and flow hash (R120) -/

/-- The flow hash: CRC-32C from GSEED over the slots of a hash profile, in slot order; GSEED and the profiles are settings (R431). -/
def State.flowHash (s : State) (k prof : Nat) (slots : SMap Nat) : Nat :=
  hash1 (s.setting 0x0020 k)
    (((range 0 64).filter (fun j => (s.setting (0x0018 + prof) k).testBit j)).map (fun j => beBytes 4 (SMap.get 0 j slots))).flatten

/-- The member word a descriptor and a flow hash select. -/
def memberWord (desc f : Nat) : Nat :=
  if bitOf desc 122 then bitsOf desc 92 20 + f % 2 ^ bitsOf desc 88 4
  else bitsOf desc 92 20 + (bitsOf f 16 16 * bitsOf desc 112 10) / 65536

/-- The next hop a group resolves to, and twin reads. -/
def State.resolveGroup (s : State) (t k v g : Nat) (slots : SMap Nat) : Option Nat × Nat × State :=
  let r := s.lookDirect t k v 10 g
  match r.1 with
  | none => r
  | some d =>
    let m := r.2.2.lookLoc t k v 10 (memberLoc (memberWord d (s.flowHash k (bitsOf d 85 3) slots)))
    (m.1.map (fun x => x % 2 ^ 18), r.2.1 + m.2.1, m.2.2)

/-! ### The backing store (R194) -/

def backKey (k kind key : Nat) : Nat := (k * 16 + kind) * 2 ^ 200 + key
def State.backs (s : State) (k kind key : Nat) : List BEnt := SMap.get [] (backKey k kind key) s.tab.backing
def State.putBacks (s : State) (k kind key : Nat) (l : List BEnt) : State :=
  s.onTab (fun t => { t with backing := SMap.put [] (backKey k kind key) l t.backing })
/-- Every backing entry of a kind of a stage, by key. -/
def State.backsOf (s : State) (k kind : Nat) : List (Nat × List BEnt) :=
  (s.tab.backing.filter (fun e => e.1 / 2 ^ 200 == k * 16 + kind)).map (fun e => (e.1 % 2 ^ 200, e.2))
/-- Keys of per-tile direct entries: MCAST_HEAD and MCAST_REPL hold a tile above the index, GROUP members a bit of their own. -/
def tileKey (t idx : Nat) : Nat := t * 2 ^ 24 + idx
def memberKey (w : Nat) : Nat := 2 ^ 30 + w

/-- Set the VMASK of the copy of an entry in every tile; 0 clears it. -/
def State.maskTiles (s : State) (k : Nat) (i : Inst) (key content old new : Nat) : State :=
  forEach (s.instTiles k i) (fun t s =>
    match (s.slotsOfKey i t key).find? (fun x => entVmask i.kind x.2.2 == old && entContent i.kind x.2.2 == content) with
    | some (b, j, raw) => if new = 0 then s.clearEnt i t b j else s.writeEnt i t b j (entSetVmask i.kind raw new)
    | none => s) s

/-- Insert an entry in every tile (R181); none when a tile has no room (R113). -/
def insertTiles (i : Inst) (raw : Nat) : List Nat → State → Option State
  | [], s => some s
  | t :: ts, s => match s.insertEnt i t 8 raw with
    | some x => insertTiles i raw ts x
    | none => none

/-- The instances that hold a kind's entries for the next version: the staged one and the current one; writes go to both, since the
current one serves if the batch is discarded. -/
def State.writeInsts (s : State) (k kind : Nat) : List Inst := (s.insts k kind).cur.toList ++ (s.insts k kind).next.toList

def insertAll (k raw : Nat) : List Inst → State → Option State
  | [], s => some s
  | i :: is, s => match insertTiles i raw (s.instTiles k i) s with
    | some x => insertAll k raw is x
    | none => none

/-- Stage the addition or replacement of a hashed entry (R179). -/
def State.stageHash (s : State) (k kind key content : Nat) : Option State :=
  let nb := s.nextMask k
  let cb := s.curMask k
  let is := s.writeInsts k kind
  let l := s.backs k kind key
  let mask (s : State) (c old new : Nat) : State := is.foldl (fun x i => x.maskTiles k i key c old new) s
  let s1 : State := match l.find? (fun e => e.vmask == 3) with
    | some e => mask s e.content 3 cb
    | none => s
  let s2 : State := match l.find? (fun e => e.vmask == nb) with
    | some e => mask s1 e.content nb 0
    | none => s1
  let kept := (l.filter (fun e => e.vmask != nb)).map (fun e => if e.vmask = 3 then { e with vmask := cb } else e)
  match insertAll k (entSetVmask kind content nb) is s2 with
  | some x => some ((x.putBacks k kind key (kept ++ [{ vmask := nb, content := content }])).setBatch k)
  | none => none

/-- Stage the deletion of a hashed entry; none when no entry of the key is valid in the next version. -/
def State.unstageHash (s : State) (k kind key : Nat) : Option State :=
  let nb := s.nextMask k
  let cb := s.curMask k
  let is := s.writeInsts k kind
  let l := s.backs k kind key
  match l.find? (fun e => e.vmask == 3 || e.vmask == nb) with
  | none => none
  | some e =>
    let new := if e.vmask = 3 then cb else 0
    let s1 := is.foldl (fun x i => x.maskTiles k i key e.content e.vmask new) s
    let l1 := (l.map (fun x => if x = e then { x with vmask := new } else x)).filter (fun x => x.vmask != 0)
    some ((s1.putBacks k kind key l1).setBatch k)

/-- Write a direct entry's bits in every tile of a stage, or in one. -/
def State.writeDirect (s : State) (k kind : Nat) (tile : Option Nat) (l : Loc) (raw : Nat) : State :=
  (s.writeInsts k kind).foldl (fun x i =>
    forEach ((x.instTiles k i).filter (fun t => match tile with | some u => u == t || (i.split && twinOf u == t) | none => true))
      (fun t y => y.writeLoc i t l raw) x) s

end Sys2Proof.Machine
end

