-- ==== Sys2Proof/Machine/PrefixOps.lean ====
section
/-! DEFINITION. Prefixes (R139–R155): their encoding, direct tables, length filters, and staging them for the next version. -/
namespace Sys2Proof.Machine
open Sys2Proof

/-! ### Encoding (R140) -/

/-- PKEY of a prefix of length L in a field of n bits. -/
def pkeyOf (n len a : Nat) : Nat := a / 2 ^ (n - len) * 2 ^ (n - len) * 2 + 2 ^ (n - len)

/-- The place of the lowest set bit, within `fuel` bits. -/
def lowBit : Nat → Nat → Nat
  | 0, _ => 0
  | n + 1, v => if v % 2 = 1 then 0 else 1 + lowBit n (v / 2)

/-- The length a PKEY of a field of n bits marks. -/
def pkeyLen (n pk : Nat) : Nat := n - lowBit (n + 1) pk

/-- The address (low bits clear) a PKEY holds. -/
def pkeyAddr (n pk : Nat) : Nat := pk / 2 / 2 ^ (n - pkeyLen n pk) * 2 ^ (n - pkeyLen n pk)

/-! ### Domains (R139) -/

/-- DOM4 and DOM6 of an RD; none for NONE. -/
def LookCfg.dom4 (c : LookCfg) (rd : Nat) : Option Nat :=
  match SMap.find rd c.domains with | some v => if v % 256 = 255 then none else some (v % 256) | none => none
def LookCfg.dom6 (c : LookCfg) (rd : Nat) : Option Nat :=
  match SMap.find rd c.domains with | some v => if v / 256 = 255 then none else some (v / 256) | none => none

/-- The domain count D4 of the stage's next version: the paddocks of its PFX4_DIRECT instance. -/
def State.d4 (s : State) (k : Nat) : Nat := match s.nextInst k 6 with | some i => i.p | none => 0

/-! ### Direct tables (R141, R142): kind 6 of the backing store holds lengths 0 to 16 -/

/-- Backing key and content of a short IPv4 prefix. -/
def directKey (d pk : Nat) : Nat := d * 2 ^ 33 + pk
def resultOf (rkind result : Nat) : Nat := rkind * 2 ^ 18 + result

/-- The short prefixes of a domain valid under a mask of VMASK bits: length, address, result. -/
def State.shortPrefixes (s : State) (k d mask : Nat) : List (Nat × Nat × Nat) :=
  ((s.backsOf k 6).filter (fun e => e.1 / 2 ^ 33 == d)).filterMap (fun e =>
    (e.2.find? (fun x => x.vmask &&& mask != 0)).map (fun x => (pkeyLen 32 (e.1 % 2 ^ 33), pkeyAddr 32 (e.1 % 2 ^ 33), x.content)))

/-- A half of a direct entry as content: LEN, RKIND and RESULT, 31 for NONE. -/
def coverOf (ps : List (Nat × Nat × Nat)) (i : Nat) : Nat :=
  let c := ps.filter (fun p => i * 65536 / 2 ^ (32 - p.1) == p.2.1 / 2 ^ (32 - p.1))
  let best := c.foldl (fun a p => match a with | some b => if b.1 < p.1 then some p else a | none => some p) (none : Option (Nat × Nat × Nat))
  match best with | some p => p.1 * 2 ^ 19 + p.2.2 | none => 31 * 2 ^ 19

/-- The parts of a direct entry: VMASK and content of H1 and of H0. -/
def halfOf (raw h : Nat) : Nat × Nat :=
  if h = 1 then (bitsOf raw 62 2, bitsOf raw 38 24) else (bitsOf raw 33 2, bitsOf raw 9 24)
def directWord (k : Nat) (h1 h0 : Nat × Nat) : Nat :=
  h1.1 * 2 ^ 62 + h1.2 * 2 ^ 38 + k * 2 ^ 35 + h0.1 * 2 ^ 33 + h0.2 * 2 ^ 9

/-- The new word of a direct entry: the half valid now keeps only its current-version bit where the next version differs, and the other
half takes the new content; where they agree one half is valid in both (R142, R179). -/
def restageDirect (k cb nb raw new : Nat) : Nat :=
  let h1 := halfOf raw 1
  let h0 := halfOf raw 0
  let curIs1 := h1.1 &&& cb != 0
  let cur := if curIs1 then h1 else h0
  if cur.1 &&& cb != 0 && cur.2 = new then
    (if curIs1 then directWord k (3, new) (0, 0) else directWord k (0, 0) (3, new))
  else if cur.1 &&& cb != 0 then
    (if curIs1 then directWord k (cb, cur.2) (nb, new) else directWord k (nb, new) (cb, cur.2))
  else directWord k (0, 0) (nb, new)

/-- Rewrite the indices a short prefix covers, in every tile, to what the next version holds. -/
def State.redoDirect (s : State) (k d len addr : Nat) : State :=
  let ps := s.shortPrefixes k d (s.nextMask k)
  let cb := s.curMask k
  let nb := s.nextMask k
  (s.writeInsts k 6).foldl (fun s i =>
    forEach (s.instTiles k i) (fun t s =>
      forEach (range (addr / 65536) (2 ^ (16 - len))) (fun x s =>
        s.writeLoc i t (directHalfLoc d x) (restageDirect k cb nb (s.readLoc i t (directHalfLoc d x)) (coverOf ps x))) s) s) s

/-! ### Filters (R143, R145, R148) -/

/-- Set a length's bit in the IPv4 filter map of a /16, in every tile of one instance. -/
def State.setFilter4In (s : State) (i : Inst) (k d top len : Nat) (b : Bool) : State :=
  forEach (s.instTiles k i) (fun t s =>
    s.writeLoc i t (filter4Loc d top) (setBit (s.readLoc i t (filter4Loc d top)) (len - 17) b)) s

/-- The same in every instance of the stage that takes writes. -/
def State.setFilter4 (s : State) (k d top len : Nat) (b : Bool) : State :=
  (s.writeInsts k 7).foldl (fun s i => s.setFilter4In i k d top len b) s

/-- The entry of a FILTER6 line that holds a /32 of a domain. -/
def State.filter6Slot (s : State) (i : Inst) (t k d top : Nat) : Option Nat :=
  [0, 1, 2].find? (fun e =>
    let raw := s.readLoc i t (i.filter6Loc (i.filter6Idx k d top) e)
    bitOf raw 169 && bitsOf raw 166 3 == k && bitsOf raw 161 5 == d && bitsOf raw 129 32 == top)

/-- IPv6 prefixes of a domain, whatever their VMASK: length and address. -/
def State.v6Prefixes (s : State) (k d : Nat) : List (Nat × Nat) :=
  ((s.backsOf k 5).filter (fun e => e.1 / 2 ^ 136 % 32 == d)).map (fun e => (pkeyLen 128 (e.1 % 2 ^ 129), pkeyAddr 128 (e.1 % 2 ^ 129)))

/-- Does a prefix cover or lie under a /32? -/
def touches (len addr top : Nat) : Bool :=
  if len ≤ 32 then top / 2 ^ (32 - len) == addr / 2 ^ (128 - len) else addr / 2 ^ 96 == top

/-- The union of lengths present in a domain (R148, R151). -/
def State.fallback6 (s : State) (k d : Nat) : Nat := (s.v6Prefixes k d).foldl (fun m p => if p.1 = 0 then m else m ||| 2 ^ (p.1 - 1)) 0
def State.fallback4 (s : State) (k d : Nat) : Nat :=
  ((s.backsOf k 4).filter (fun e => e.1 / 2 ^ 56 % 32 == d)).foldl (fun m e => m ||| 2 ^ (pkeyLen 32 (e.1 % 2 ^ 33) - 17)) 0

/-- The map of a /32: every length of the domain that covers it or lies under it. -/
def State.map6 (s : State) (k d top : Nat) : Nat :=
  ((s.v6Prefixes k d).filter (fun p => touches p.1 p.2 top)).foldl (fun m p => if p.1 = 0 then m else m ||| 2 ^ (p.1 - 1)) 0

/-- FILTER6_FULL is posted with the first overflow after a second without one (R173). -/
def State.onset (s : State) (kind unit : Nat) : Bool × State :=
  let key := kind * 512 + unit
  ((match SMap.find key s.tab.onsets with | some t => decide (t + tkS 1 ≤ s.now) | none => true),
   s.onTab (fun t => { t with onsets := SMap.insert key s.now t.onsets }))

/-- Give a /32 a filter entry in one tile, or count the overflow. -/
def State.addFilter6 (s : State) (i : Inst) (k d top t : Nat) : State :=
  let idx := i.filter6Idx k d top
  match s.filter6Slot i t k d top with
  | some e => s.writeLoc i t (i.filter6Loc idx e) (2 ^ 169 + k * 2 ^ 166 + d * 2 ^ 161 + top * 2 ^ 129 + s.map6 k d top)
  | none =>
    match [0, 1, 2].find? (fun e => !bitOf (s.readLoc i t (i.filter6Loc idx e)) 169) with
    | some e => s.writeLoc i t (i.filter6Loc idx e) (2 ^ 169 + k * 2 ^ 166 + d * 2 ^ 161 + top * 2 ^ 129 + s.map6 k d top)
    | none =>
      let o := (s.bump t k 0x47).onset 0 t
      if o.1 then o.2.post k Ev.filter6Full Lv.tile t (leBytes 1 t ++ leBytes 1 d ++ zeros 2) else o.2

/-- Every /32 of a domain that has or wants a filter entry: those some prefix of length 32 or more lies under. -/
def State.tops6 (s : State) (k d : Nat) : List Nat := (((s.v6Prefixes k d).filter (fun p => decide (32 ≤ p.1))).map (fun p => p.2 / 2 ^ 96)).eraseDups

/-- Bring the filter entries that a prefix touches up to date, in every tile. -/
def State.setFilter6 (s : State) (k d len addr : Nat) : State :=
  (s.writeInsts k 8).foldl (fun s i =>
    forEach (s.instTiles k i) (fun t s =>
      forEach ((s.tops6 k d).filter (fun top => touches len addr top)) (fun top s => s.addFilter6 i k d top t) s) s) s

/-- A retired IPv6 prefix leaves the maps of the entries it touched; an entry with an empty map is freed (R145). -/
def State.trimFilter6 (s : State) (k d len addr : Nat) : State :=
  (s.writeInsts k 8).foldl (fun s i =>
    forEach (s.instTiles k i) (fun t s =>
      forEach (((addr / 2 ^ 96) :: s.tops6 k d).eraseDups.filter (fun top => touches len addr top)) (fun top s =>
        match s.filter6Slot i t k d top with
        | some e =>
          let m := s.map6 k d top
          s.writeLoc i t (i.filter6Loc (i.filter6Idx k d top) e)
            (if m = 0 then 0 else 2 ^ 169 + k * 2 ^ 166 + d * 2 ^ 161 + top * 2 ^ 129 + m)
        | none => s) s) s) s

/-- After retirement the filter bits of lengths that left are cleared (R145): kind 4 or 5, the key that left. -/
def State.trimFilter (s : State) (k kind key : Nat) : State :=
  if kind = 4 then
    let d := key / 2 ^ 56 % 32
    let pk := key % 2 ^ 33
    let len := pkeyLen 32 pk
    let top := pk / 2 ^ 17
    if (s.backsOf k 4).any (fun e => e.1 / 2 ^ 56 % 32 == d && pkeyLen 32 (e.1 % 2 ^ 33) == len && e.1 % 2 ^ 33 / 2 ^ 17 == top) then s
    else s.setFilter4 k d top len false
  else if kind = 5 then
    let d := key / 2 ^ 136 % 32
    let pk := key % 2 ^ 129
    s.trimFilter6 k d (pkeyLen 128 pk) (pkeyAddr 128 pk)
  else s

/-! ### Staging prefixes (R152) -/

/-- The content of a PFX4 or PFX6 entry. -/
def pfx4Content (k d pk res : Nat) : Nat := k * 2 ^ 59 + d * 2 ^ 54 + pk * 2 ^ 21 + res * 2 ^ 2
def pfx6Content (k d len addr res : Nat) : Nat :=
  if len ≤ 64 then k * 2 ^ 123 + d * 2 ^ 118 + pkeyOf 64 len (addr / 2 ^ 64) * 2 ^ 52 + res * 2 ^ 33
  else k * 2 ^ 123 + d * 2 ^ 118 + 2 ^ 117 + addr / 2 ^ 64 * 2 ^ 49 + pkeyOf 64 (len - 64) (addr % 2 ^ 64) * 2 ^ 187 + res * 2 ^ 168
def pfx4Key (k d pk : Nat) : Nat := k * 2 ^ 61 + d * 2 ^ 56 + pk
def pfx6Key (k d pk : Nat) : Nat := k * 2 ^ 141 + d * 2 ^ 136 + pk

/-- Stage a short IPv4 prefix in the backing store: replaced in place where it is only staged. -/
def stageBack (cb nb content : Nat) (l : List BEnt) : List BEnt :=
  (l.filter (fun e => e.vmask != nb)).map (fun e => if e.vmask = 3 then { e with vmask := cb } else e) ++ [{ vmask := nb, content := content }]
def unstageBack (cb nb : Nat) (l : List BEnt) : List BEnt :=
  (l.filter (fun e => e.vmask != nb)).map (fun e => if e.vmask = 3 then { e with vmask := cb } else e)
/-- Is something in the list valid in the next version? -/
def inNext (nb : Nat) (l : List BEnt) : Bool := l.any (fun e => e.vmask == 3 || e.vmask == nb)

/-- Stage the addition of a prefix; none where an insertion finds no room. -/
def State.addPrefix (s : State) (k family len d addr res : Nat) : Option State :=
  if family = 4 then
    if len ≤ 16 then
      let key := directKey d (pkeyOf 32 len addr)
      some ((((s.putBacks k 6 key (stageBack (s.curMask k) (s.nextMask k) res (s.backs k 6 key))).setBatch k)).redoDirect k d len addr)
    else (s.setFilter4 k d (addr / 65536) len true).stageHash k 4 (pfx4Key k d (pkeyOf 32 len addr)) (pfx4Content k d (pkeyOf 32 len addr) res)
  else if len = 0 then some (s.stageCfg k (fun c => { c with default6 := SMap.insert d res c.default6 }))
  else (s.stageHash k 5 (pfx6Key k d (pkeyOf 128 len addr)) (pfx6Content k d len addr res)).map (fun x => x.setFilter6 k d len addr)

/-- Stage the deletion of a prefix; none where the next version does not hold it. -/
def State.dropPrefix (s : State) (k family len d addr : Nat) : Option State :=
  if family = 4 then
    if len ≤ 16 then
      let key := directKey d (pkeyOf 32 len addr)
      if inNext (s.nextMask k) (s.backs k 6 key) then
        some (((s.putBacks k 6 key (unstageBack (s.curMask k) (s.nextMask k) (s.backs k 6 key))).setBatch k).redoDirect k d len addr)
      else none
    else s.unstageHash k 4 (pfx4Key k d (pkeyOf 32 len addr))
  else if len = 0 then
    if SMap.has d (s.nextCfg k).default6 then some (s.stageCfg k (fun c => { c with default6 := SMap.erase d c.default6 })) else none
  else s.unstageHash k 5 (pfx6Key k d (pkeyOf 128 len addr))

end Sys2Proof.Machine
end

