-- ==== Sys2Proof/Machine/VersionOps.lean ====
section
/-! DEFINITION. Shared operations on versions (chapter 6): settling a batch, abandoning commits, the flip, drain counters, retirement. -/
namespace Sys2Proof.Machine
open Sys2Proof

/-! ### Settling and discarding a batch (R183, R191) -/

/-- VMASK after the bit that is not the current one is set equal to the current one. -/
def remask (cb m : Nat) : Nat := if m &&& cb != 0 then 3 else 0

/-- One backing entry and its tile copies take their settled VMASK; entries left at 00 are freed. -/
def State.remaskHash (s : State) (k kind : Nat) (e : Nat × List BEnt) : State :=
  let cb := s.curMask k
  let is := s.writeInsts k kind
  let s1 := e.2.foldl (fun s x => if remask cb x.vmask = x.vmask then s
    else is.foldl (fun s i => s.maskTiles k i e.1 x.content x.vmask (remask cb x.vmask)) s) s
  let l := (e.2.map (fun x => { x with vmask := remask cb x.vmask })).filter (fun x => x.vmask != 0)
  let s2 := s1.putBacks k kind e.1 l
  if l.isEmpty then s2.trimFilter k kind e.1 else s2

/-- The place of a direct entry of the backing store, and the tile it stands in where it is a tile's own. -/
def directPlace (kind key : Nat) : Option Nat × Loc :=
  if kind = 10 && 2 ^ 30 ≤ key then (none, memberLoc (key - 2 ^ 30))
  else if kind = 11 || kind = 12 then (some (key / 2 ^ 24), directLoc kind (key % 2 ^ 24))
  else (none, directLoc kind key)

def State.remaskDirect (s : State) (k kind : Nat) (e : Nat × List BEnt) : State :=
  let cb := s.curMask k
  let p := directPlace kind e.1
  match e.2.head? with
  | none => s
  | some x =>
    let m := remask cb x.vmask
    let s1 := if m = x.vmask then s else s.writeDirect k kind p.1 p.2 (if m = 0 then 0 else x.content + m * 2 ^ 126)
    s1.putBacks k kind e.1 (if m = 0 then [] else [{ x with vmask := m }])

/-- Kinds of the backing store whose entries carry a VMASK and are hashed, or direct. -/
def hashKinds : List Nat := [1, 2, 3, 4, 5]
def directKinds : List Nat := [9, 10, 11]

/-- The halves of a direct word take their settled masks. -/
def remaskHalves (k cb raw : Nat) : Nat :=
  let h1 := halfOf raw 1
  let h0 := halfOf raw 0
  let f (h : Nat × Nat) : Nat × Nat := if remask cb h.1 = 0 then (0, 0) else (3, h.2)
  directWord k (f h1) (f h0)

/-- Every direct half of a stage's tables settles. -/
def State.remaskDirects (s : State) (k : Nat) : State :=
  let cb := s.curMask k
  (s.writeInsts k 6).foldl (fun s i =>
    let mine (key : Nat) : Bool := (SMap.get [] (key / 4 / 8192 / 96) i.pads).contains (key / 4 / 8192 % 96)
    s.onTab (fun t => { t with
      sram := SMap.mapD 0 (fun key w => if mine key then
        remaskHalves k cb (bitsOf w 64 64) * 2 ^ 64 + remaskHalves k cb (bitsOf w 0 64) else w) t.sram })) s

/-- Short prefixes of the backing store settle. -/
def State.remaskShort (s : State) (k : Nat) : State :=
  (s.backsOf k 6).foldl (fun s e => s.putBacks k 6 e.1
    ((e.2.map (fun x => { x with vmask := remask (s.curMask k) x.vmask })).filter (fun x => x.vmask != 0))) s

/-- Rules settle; positions of rules no longer valid are free (R166). -/
def Block.remask (b : Block) (k cb : Nat) : Block :=
  if b.stage = k then
    { b with rules := (b.rules.map (fun e => (e.1, { e.2 with vmask := Sys2Proof.Machine.remask cb e.2.vmask }))).filter (fun e => e.2.vmask != 0) }
  else b

/-- Every versioned entry of a stage has its other bit set equal to its current bit. -/
def State.remaskAll (s : State) (k : Nat) : State :=
  let s1 := hashKinds.foldl (fun s kind => (s.backsOf k kind).foldl (fun s e => s.remaskHash k kind e) s) s
  let s2 := directKinds.foldl (fun s kind => (s.backsOf k kind).foldl (fun s e => s.remaskDirect k kind e) s) s1
  let s3 := (s2.remaskDirects k).remaskShort k
  let cb := s3.curMask k
  s3.onTab (fun t => { t with blocks := SMap.mapD Block.reset (fun _ b => b.remask k cb) t.blocks })

/-! ### Instances, graphs, sets and banks -/

/-- The paddocks of an instance are zeroed (R107, R108). -/
def State.zeroInst (s : State) (i : Inst) : State :=
  let mine (key : Nat) : Bool := (SMap.get [] (key / 4 / 8192 / 96) i.pads).contains (key / 4 / 8192 % 96)
  s.onTab (fun t => { t with sram := t.sram.filter (fun e => !mine e.1), poison := t.poison.filter (fun w => !mine w) })

def State.graphs (s : State) (k : Nat) : Bind Graph := SMap.get Bind.empty k s.tab.graphs
def State.onGraphs (s : State) (k : Nat) (f : Bind Graph → Bind Graph) : State :=
  s.onTab (fun t => { t with graphs := SMap.upd Bind.empty k f t.graphs })
def State.sets (s : State) (k : Nat) : Bind PatSet := SMap.get Bind.empty k s.tab.sets
def State.onSets (s : State) (k : Nat) (f : Bind PatSet → Bind PatSet) : State :=
  s.onTab (fun t => { t with sets := SMap.upd Bind.empty k f t.sets })
def State.edit (s : State) (k : Nat) : EditSt := SMap.get EditSt.reset k s.tab.edits
def State.onEdit (s : State) (k : Nat) (f : EditSt → EditSt) : State :=
  s.onTab (fun t => { t with edits := SMap.upd EditSt.reset k f t.edits })

/-- Kinds of instance. -/
def instKinds : List Nat := range 1 13

/-- The bank a version of a stage runs on (R247). -/
def EditSt.bankOf (e : EditSt) (old : Bool) : Nat := if old then e.oldBank.getD e.curBank else e.curBank
/-- The stage's inactive bank: none while the current and the retiring version are bound to different banks (R247). -/
def EditSt.inactive (e : EditSt) (retiring : Bool) : Option Nat :=
  if retiring && (match e.oldBank with | some b => b != e.curBank | none => false) then none else some (1 - e.curBank)
def EditSt.bank (e : EditSt) (b : Nat) : EditBank := if b = 0 then e.bankA else e.bankB
def EditSt.putBank (e : EditSt) (b : Nat) (x : EditBank) : EditSt := if b = 0 then { e with bankA := x } else { e with bankB := x }

/-- The stage's range of one bank becomes as in the other, with what travels with a bank (R247, R251). -/
def State.copyBank (s : State) (k from_ to_ : Nat) : State :=
  let e := s.edit k
  (s.onTab (fun t => { t with
    ucode := (range e.base e.count).foldl (fun u a => SMap.put 0 (to_ * 8192 + a) (SMap.get 0 (from_ * 8192 + a) u) u) t.ucode })).onEdit k
    (fun e => e.putBank to_ { e.bank from_ with label := (e.bank to_).label, crc := (e.bank to_).crc })

/-- Words loaded into the inactive bank are discarded (R183, R247). -/
def State.discardWords (s : State) (k : Nat) : State :=
  let e := s.edit k
  if e.loaded || !e.window.isEmpty then s.copyBank k e.curBank (1 - e.curBank) else s

/-- Discard the stage's whole staged batch (R183). -/
def State.abortBatch (s : State) (k : Nat) : State :=
  let s1 := s.remaskAll k
  let s2 := instKinds.foldl (fun s kind => match (s.insts k kind).next with
    | some i => (s.zeroInst i).onInsts k kind (fun b => { b with next := none })
    | none => s) s1
  let s3 := (((s2.onGraphs k (fun b => { b with next := none })).onSets k (fun b => { b with next := none })).discardWords k).onEdit k
    (fun e => { e with swap := false, loaded := false, window := [] })
  (s3.onTab (fun t => { t with cfgStarted := t.cfgStarted.filter (fun x => x != k) })).onVer k (fun v => { v with batch := false })

/-! ### Abandoning commits (R186, R187, R201) -/

/-- The payload and completion of a commit that is not made: cause 0 SAFE, 1 COMMAND, 2 RESTARTED. -/
def State.cancelCommit (s : State) (k cause : Nat) : State :=
  let v := s.ver k
  (s.onVer k (fun v => { v with state := 0 })).finish v.mb 0x070A Ev.commitCancelled Lv.device k
    (if cause = 0 then St.wrongMode else if cause = 1 then St.stale else St.restarted)
    (leBytes 1 (nextVersion v.cur) ++ leBytes 1 cause ++ zeros 2)

/-- Does a restart abandon a stage's commit: not armed, and not sent with REPLAY_SAFE (R186)? -/
def State.restartAbandons (s : State) (k : Nat) : Bool :=
  (s.ver k).state == 1 && !((s.findOut (s.ver k).mb 0x070A).map (fun o => o.replaySafe)).getD false

/-- Abandon every commit accepted and not flipped (R186); a restart abandons only those it must. -/
def State.abandonCommits (s : State) (cause : Nat) : State :=
  forEach s.liveStages (fun k s =>
    if s.committing k && (cause != 2 || s.restartAbandons k) then s.cancelCommit k cause else s) s

/-- Does any stage have a commit accepted and not flipped (R186)? -/
def State.anyCommitPending (s : State) : Bool := s.liveStages.any (fun k => s.committing k)

/-! ### The flip (R26, R98, R108, R165, R185, R247) -/

/-- Static L2 stations valid from this flip: their learned twins are to be removed (R128). -/
def State.newStatics (s : State) (k : Nat) : List (Nat × Nat × Nat) :=
  ((s.backsOf k 1).filter (fun e => e.2.any (fun x => x.vmask == s.nextMask k))).map (fun e => (k, bitsOf e.1 48 12, e.1 % 2 ^ 48))

/-- Everything staged for the next version becomes current at one PCLK, and the current version retires. -/
def State.flip (s : State) (k : Nat) : State :=
  let v := s.ver k
  let new := nextVersion v.cur
  let s0 := s.onTab (fun t => { t with staticNew := t.staticNew ++ s.newStatics k })
  let s1 := if s.tab.cfgStarted.contains k then s0 else s0.putCfgBank k (new % 2) (s.cfgOf k v.cur)
  let s2 := instKinds.foldl (fun s kind => s.onInsts k kind Bind.flip) s1
  let s3 := ((s2.onGraphs k Bind.flip).onSets k Bind.flip).onEdit k (fun e => { e with
    oldBank := some e.curBank, curBank := (if e.swap then 1 - e.curBank else e.curBank), swap := false, loaded := false, window := [] })
  let s4 := s3.onTab (fun t => { t with cfgStarted := t.cfgStarted.filter (fun x => x != k) })
  let s5 := s4.onVer k (fun x => { x with
    cur := new, retiring := some v.cur, state := 3, batch := false, late := v.willLate, expired := false, flipTime := s.netLinear,
    flippedAt := s.now, drainNs := 0xFFFFFFFF })
  forEach (s.stageTiles k) (fun t s => s.bump t k 0x70) s5

/-! ### Drain counters (R189) -/

/-- Does a tile hold a packet for drain? From its pipe entry, or as a recirculated packet, until its last cell leaves the tile's fold or the
far pasture; an egress tile from the grant of its first cell until it is handed on. -/
def Pkt.heldBy (p : Pkt) (t : Nat) : Bool :=
  let launching := p.tile == t && !p.copy && decide (p.launched < (p.ctx.len - 4 + 255) / 256)
  match p.phase with
  | .fifo => p.tile == t && decide (0 < p.passes)
  | .placed => p.tile == t && decide (0 < p.passes)
  | .parsed => p.tile == t
  | .lookedUp => p.tile == t
  | .matched => p.tile == t
  | .done => p.tile == t
  | .queued => p.tile == t
  | .far => p.tile == t
  | .granted => p.tile == t || p.egress == t
  | .localCopy => p.egress == t
  | .tail => false
  | _ => p.egress == t || launching

/-- The drain counter of a version of a stage in a tile. -/
def State.drain (s : State) (t k v : Nat) : Nat :=
  (s.sw.pkts.filter (fun e => e.2.ctx.stage == k && e.2.ctx.ver == v && e.2.heldBy t)).length

/-- Every tile's drain counter of a version is zero (R190). -/
def State.drained (s : State) (k v : Nat) : Bool := (range 0 8).all (fun t => s.drain t k v == 0)

/-! ### Retirement (R191) -/

/-- Nanoseconds between two ticks. -/
def nsBetween (a b : Nat) : Nat := (b - a) / 66

/-- Settle ends: the batch settles, what served only the retired version is released, and the stage is IDLE. -/
def State.retire (s : State) (k : Nat) : State :=
  let s1 := instKinds.foldl (fun s kind => match (s.insts k kind).old with
    | some i => (if (s.insts k kind).split then s.zeroInst i else s).onInsts k kind Bind.retire
    | none => s.onInsts k kind Bind.retire) s
  let s2 := (((s1.onGraphs k Bind.retire).onSets k Bind.retire).onEdit k (fun e => { e with oldBank := none })).remaskAll k
  s2.onVer k (fun v => { v with retiring := none, state := 0, settleNs := nsBetween v.drainedAt s.now })

/-- Is a staged write of a stage held (R180)? -/
def State.holdsWrites (s : State) (k : Nat) : Bool := s.hasRetiring k

/-- Hold a staging command: each write is counted STAGE_HELD in every tile of the stage. -/
def State.holdCommand (s : State) (opcode k writes : Nat) (m : Msg) : State :=
  (forEach (s.stageTiles k) (fun t s => s.bumpN t k 0x79 writes) s).onCmd (fun c => { c with
    held := c.held ++ [{ opcode := opcode, stage := k, msg := m, rerun := false }] })

end Sys2Proof.Machine
end

