-- ==== Sys2Proof/Machine/SwitchOps.lean ====
section
/-! DEFINITION. Shared operations of the switch core (chapter 9): packets and their queues, the cells of the fold, egress queues and staging,
discards and flushes. -/
namespace Sys2Proof.Machine
open Sys2Proof

/-! ### Packets -/

def State.pkt (s : State) (id : Nat) : Option Pkt := SMap.find id s.sw.pkts
def State.onPkt (s : State) (id : Nat) (f : Pkt → Pkt) : State := s.onSw (fun w => { w with pkts := SMap.adjust id f w.pkts })
/-- A packet in a pipe is delayed by n PCLK, which hold its pipe (R20, R538). -/
def State.delayPkt (s : State) (id n : Nat) : State :=
  match s.pkt id with
  | some p => (s.onSw (fun w => { w with backOwed := SMap.upd 0 p.tile (fun x => x + n) w.backOwed })).onPkt id (fun q => { q with adder := q.adder + n })
  | none => s
def State.addPkt (s : State) (p : Pkt) : State :=
  s.onSw (fun w => { w with pkts := SMap.insert w.nextPkt p w.pkts, nextPkt := w.nextPkt + 1 })
/-- Nothing is held of a packet any more; one whose tail has not arrived still awaits its verdict. -/
def State.erasePkt (s : State) (id : Nat) : State :=
  match s.pkt id with
  | some p =>
    if p.verdict.isSome || p.copy then s.onSw (fun w => { w with pkts := SMap.erase id w.pkts })
    else s.onPkt id (fun p => { p with
      phase := .tail, cVoq := 0, cLport := 0, cShared := 0, cHead := 0, reentered := false, spec := 0, hold := 0, cycles := 0 })
  | none => s

/-- The sum of a figure over every packet. -/
def State.sumPkts (s : State) (f : Pkt → Nat) : Nat := s.sw.pkts.foldl (fun a e => a + f e.2) 0
/-- Packets that pass a test, by number. -/
def State.pktsWhere (s : State) (f : Pkt → Bool) : List Nat := (s.sw.pkts.filter (fun e => f e.2)).map (fun e => e.1)

/-- Cells that hold a frame of a length (R261). -/
def cellsOf (len : Nat) : Nat := (len - 4 + 255) / 256
def Pkt.cells (p : Pkt) : Nat := cellsOf p.ctx.len
/-- The lport a packet arrived on, where it came from one. -/
def Pkt.inLport (p : Pkt) : Option Nat := if p.src < 48 then some (p.tile * 48 + p.src) else none
/-- A multicast frame that its copies have not yet replaced. -/
def Pkt.mcast (p : Pkt) : Bool := p.ctx.mc && !p.copy

/-! ### VOQs and lanes (R259) -/

def voqKey (t exit c lane : Nat) : Nat := ((t * 408 + exit) * 8 + c) * 5 + lane
/-- A front exit's VOQ has one lane; the others keep one per stage. -/
def laneOf (exit stage : Nat) : Nat := if exit < 384 then 0 else stage
/-- The VOQ lane of a unicast packet, and that of a multicast packet toward a tile. -/
def Pkt.voq (p : Pkt) : Nat := voqKey p.tile p.ctx.exit p.ctx.tc (laneOf p.ctx.exit p.ctx.stage)
def Pkt.mcVoq (p : Pkt) (k : Nat) : Nat := voqKey p.tile (400 + k) p.ctx.tc p.ctx.stage
/-- The lowest tile of a map. -/
def lowestTile (map : Nat) : Nat := ((range 0 8).find? (fun k => map.testBit k)).getD 0
/-- The VOQ lane a packet's cells are charged to: a multicast frame's cells are charged once (log entry 58). -/
def Pkt.chargeVoq (p : Pkt) : Nat := if p.mcast then p.mcVoq (lowestTile p.lk.tileMap) else p.voq

def State.voq (s : State) (key : Nat) : List Nat := SMap.get [] key s.sw.voqs
def State.onVoq (s : State) (key : Nat) (f : List Nat → List Nat) : State :=
  s.onSw (fun w => { w with voqs := SMap.upd [] key f w.voqs })
/-- A packet leaves every VOQ that holds it. -/
def State.leaveVoqs (s : State) (id : Nat) : State :=
  s.onSw (fun w => { w with voqs := SMap.mapD [] (fun _ l => l.filter (fun x => x != id)) w.voqs })

/-! ### Cells of the fold (R275–R277, R281, R285) -/

/-- Cells charged to a packet and not yet free. -/
def Pkt.charged (p : Pkt) : Nat := p.cVoq + p.cLport + p.cShared + p.cHead
/-- n of a packet's cells are free: headroom first, then shared, LPORT_MIN, VOQ_MIN (log entry 58). -/
def Pkt.uncharge (p : Pkt) (n : Nat) : Pkt :=
  let n1 := n - p.cHead
  let n2 := n1 - p.cShared
  let n3 := n2 - p.cLport
  { p with cHead := p.cHead - n, cShared := p.cShared - n1, cLport := p.cLport - n2, cVoq := p.cVoq - n3 }

/-- Cells a tile cannot use: quarantined ones, and isolated regions. -/
def State.cellsOut (s : State) (t : Nat) : Nat :=
  (s.sw.quarantined.filter (fun q => q.1 == t)).length +
    4096 * (s.fault.isolated.filter (fun u => match u with | .foldRegion t2 _ => t2 == t | _ => false)).length
/-- A stage's fold quota in a tile (R275). -/
def State.foldQuota (s : State) (k t : Nat) : Nat :=
  if k = 0 then 262144 - 12288 - s.cellsOut t - sumOver (s.sideStages.filter (fun j => (s.stageTiles j).contains t)) (fun j => (s.stage j).foldCells)
  else if (s.stageTiles k).contains t then (s.stage k).foldCells else 0

/-- The settings of a class of a stage (R290). -/
def State.classCfg (s : State) (k c : Nat) : ClassCfg := SMap.get ClassCfg.reset (k * 8 + c) s.sw.classes
/-- Does a class run priority flow control on an lport (R49, R73)? -/
def State.pfcOn (s : State) (l c : Nat) : Bool :=
  (s.lport l).configured && cfgFc (s.lport l).conf == 2 && (cfgPfcEn (s.lport l).conf).testBit c
/-- The configured sub-ports of a stage in a tile. -/
def State.tileLports (s : State) (k t : Nat) : List Nat :=
  (range (48 * t) 48).filter (fun l => (s.lport l).configured && s.portStage (l / 8) == k)
/-- What a stage reserves in a tile (R275): VOQ_MIN of its VOQs and lanes, LPORT_MIN and HEADROOM of its ingress lports there. -/
def State.reservedCells (s : State) (k t : Nat) : Nat :=
  let exits := 8 * (portsOf (s.stagePorts k)).length + 24
  sumOver (range 0 8) (fun c => (s.classCfg k c).voqMin * exits) +
    sumOver (s.tileLports k t) (fun l => (s.eg l).lportMin + (s.eg l).headroom * ((range 0 8).filter (fun c => s.pfcOn l c)).length)

/-- Cells flushed and not yet free, of a tile and stage (R285). -/
def State.flushingCells (s : State) (k t : Nat) : Nat :=
  s.sw.flushing.foldl (fun a f => if f.1 = t ∧ f.2.1 = k ∧ s.now < f.2.2.2 then a + f.2.2.1 else a) 0
/-- Shared cells of a stage in use in a tile. -/
def State.sharedUsed (s : State) (k t : Nat) : Nat := s.sumPkts (fun p => if p.tile = t ∧ p.ctx.stage = k then p.cShared else 0)
/-- F: the free cells of a stage's shared region (R277). -/
def State.sharedFree (s : State) (k t : Nat) : Nat :=
  s.foldQuota k t - s.reservedCells k t - s.sharedUsed k t - s.flushingCells k t
/-- Fold cells of a VOQ lane; those charged to its VOQ_MIN, and to the shared region. -/
def State.voqCells (s : State) (key : Nat) : Nat := s.sumPkts (fun p => if p.chargeVoq = key then p.charged else 0)
def State.voqMinUsed (s : State) (key : Nat) : Nat := s.sumPkts (fun p => if p.chargeVoq = key then p.cVoq else 0)
def State.voqShared (s : State) (key : Nat) : Nat := s.sumPkts (fun p => if p.chargeVoq = key then p.cShared else 0)
/-- LPORT_MIN cells of an ingress lport in use, and headroom of (lport, class) in use. -/
def State.lportMinUsed (s : State) (l : Nat) : Nat := s.sumPkts (fun p => if p.inLport = some l then p.cLport else 0)
def State.headUsed (s : State) (l c : Nat) : Nat := s.sumPkts (fun p => if p.inLport = some l ∧ p.ctx.tc = c then p.cHead else 0)

/-- Cells of the re-entry reserve in use in a tile, and of one VOQ (R283). -/
def Pkt.reentryCells (p : Pkt) : Nat := if p.reentered && p.phase != .mac then p.cells - p.launched else 0
def State.reentryUsed (s : State) (t : Nat) : Nat := s.sumPkts (fun p => if p.tile = t then p.reentryCells else 0)
def State.voqReentry (s : State) (key : Nat) : Nat := s.sumPkts (fun p => if p.voq = key then p.reentryCells else 0)

/-- Bytes of the SPILL region a frame occupies (R284). -/
def spillBytes (len : Nat) : Nat := 64 + 64 * ((len - 4 + 63) / 64)

/-! ### The multicast hold (R272) -/

/-- Hold cells in use in a tile. -/
def State.holdUsed (s : State) (t : Nat) : Nat := s.sw.holds.foldl (fun a e => if e.2.1 = t then a + e.2.2.1 else a) 0
/-- A copy of a hold entry has been handed off or discarded: the last one frees the cells. -/
def State.dropHold (s : State) (h : Nat) : State :=
  s.onSw (fun w => { w with holds := (match SMap.find h w.holds with
    | some x => if x.2.2 ≤ 1 then SMap.erase h w.holds else SMap.insert h (x.1, x.2.1, x.2.2 - 1) w.holds
    | none => w.holds) })

/-! ### Egress queues and staging (R263, R264, R307) -/

/-- The tile of an exit that an egress scheduler grants (R260). -/
def tileOfExit (x : Nat) : Nat := if x < 384 then x / 48 else x - 392
/-- The rate an exit is granted at, in Gb/s (R60, R260). -/
def State.exitGbps (s : State) (x : Nat) : Nat := if x < 384 then (s.lport x).gbps else 1600

/-- Does a packet keep an egress class queue from being empty (R264)? A deferred request counts as a request, and a granted one holds the
queue. -/
def Pkt.inQueue (p : Pkt) (x c : Nat) : Bool :=
  !p.mcast && p.ctx.exit == x && p.ctx.tc == c &&
    (match p.phase with
     | .queued => true
     | .granted => true
     | .crossed => true
     | .localCopy => true
     | .dresser => true
     | .edited => true
     | .fifo => false
     | .far => false
     | .mac => false
     | .tail => false
     | _ => p.spec == 2 || p.spec == 3 || p.spec == 5)
/-- Is an egress class queue empty (R264), leaving one packet out? -/
def State.queueEmptyBut (s : State) (x c : Nat) (id : Option Nat) : Bool := s.sw.pkts.all (fun e => !e.2.inQueue x c || id == some e.1)
def State.queueEmpty (s : State) (x c : Nat) : Bool := s.queueEmptyBut x c none

/-- A queue that has become empty keeps no positive deficit (R307). -/
def State.settleQueue (s : State) (x c : Nat) : State :=
  if s.queueEmpty x c then s.onQueue x c (fun q => { q with dc := min q.dc 0 }) else s

/-- Staging cells a packet holds (R263): those launched and not yet handed to the MAC, and the credit of a speculative grant. -/
def Pkt.stagingCells (p : Pkt) : Nat :=
  match p.phase with
  | .mac => p.launched - p.arrived
  | .lookedUp => if p.spec = 2 then 1 else 0
  | .matched => if p.spec = 2 then 1 else 0
  | .done => if p.spec = 5 then 1 else 0
  | .tail => 0
  | _ => p.launched
/-- Staging cells of an exit in use, the credits of grants not yet returned among them. -/
def State.stagingUsed (s : State) (x : Nat) : Nat :=
  s.sumPkts (fun p => if p.ctx.exit = x ∧ !p.mcast then p.stagingCells else 0) + (s.sw.returns.filter (fun r => r.exit == x)).length
/-- The exits of a tile. -/
def exitsOfTile (t : Nat) : List Nat := range (48 * t) 48 ++ [392 + t]
/-- May an exit be given a staging credit: one of its 16 cells, or a shared one of at most 256 (R263)? -/
def State.creditFree (s : State) (x : Nat) : Bool :=
  let t := tileOfExit x
  let used := s.stagingUsed x
  let configured := ((range (48 * t) 48).filter (fun l => (s.lport l).configured)).length
  let shared := sumOver (exitsOfTile t) (fun y => s.stagingUsed y - 16)
  decide (used < 16) || (decide (used - 16 < 256) && decide (shared < 2048 - 16 * (configured + 1)))

/-! ### Slots (R535, R536) -/

/-- A pipe-slot's fate is known: 0 RETIRED, 1 WASTED. -/
def State.pipeSlot (s : State) (t cat : Nat) : State := s.bump t 0 (0x18 + cat)
/-- Dresser-slots of a packet's cycles: 0 RETIRED, 1 WASTED, in its tile's totals and its dresser's own (R230, R257). -/
def State.dressSlots (s : State) (p : Pkt) (cat : Nat) : State :=
  if p.cycles = 0 then s else (s.bumpN p.egress 0 (0x1C + cat) p.cycles).arr 8 p.egress p.dresser cat p.cycles

/-! ### Discarding a packet behind the pipes -/

/-- The egress of a packet: the committed frame, the output order and the queue's copies no longer name it. -/
def State.leaveEgress (s : State) (id x c : Nat) : State :=
  (s.onEg x (fun e => { e with frame := (if e.frame = some id then none else e.frame), outOrder := e.outOrder.filter (fun j => j != id) })).onQueue
    x c (fun q => { q with copies := q.copies.filter (fun j => j != id) })

/-- The exit is no longer committed to a frame. -/
def State.freeExit (s : State) (x id : Nat) : State := s.onEg x (fun e => if e.frame = some id then { e with frame := none } else e)

/-- Fold cells of a packet go: to the free pool, or among the flushed cells for at most 8,192 PCLK (R285). -/
def State.releaseCells (s : State) (p : Pkt) (flushed : Bool) : State :=
  if flushed && p.charged != 0 then
    s.onSw (fun w => { w with flushing := w.flushing ++ [(p.tile, p.ctx.stage, p.charged, s.now + 8192 * pclkTicks s)] })
  else s

/-- A packet admitted is discarded wherever it stands; its dresser cycles are WASTED. -/
def State.discard (s : State) (id : Nat) (p : Pkt) (flushed : Bool) : State :=
  let s1 := if p.phase = .far then s.spillDrop p.ctx.stage (spillBytes p.ctx.len) else s.releaseCells p flushed
  let s2 := if p.hold = 0 then s1 else s1.dropHold p.hold
  let s3 := s2.dressSlots p 1
  (((s3.leaveVoqs id).leaveEgress id p.ctx.exit p.ctx.tc).erasePkt id).settleQueue p.ctx.exit p.ctx.tc

/-! ### Tail stomping (R254) -/

/-- The first stomp of a frame decides how it ends; it is counted when the frame is sent. -/
def State.stompPkt (s : State) (id : Nat) (cause : Nat) : State :=
  s.onPkt id (fun p => if p.stomp = 0 then { p with stomp := cause } else p)

/-! ### Flushes (R285, R308) -/

/-- A VOQ that no longer holds a far part and whose fold occupancy is at or below SPILL_OFF stops spilling (R283). -/
def State.settleSpill (s : State) (k key : Nat) : State :=
  let c := key / 5 % 8
  let farLeft := s.sw.pkts.any (fun e => e.2.phase == .far && e.2.voq == key)
  if s.sw.spilling.contains key && !farLeft && decide (s.voqCells key ≤ (s.classCfg k c).spillOff) then
    s.onSw (fun w => { w with spilling := w.spilling.filter (fun x => x != key) })
  else s

/-- A frame flushed from a VOQ, or a local copy: FLUSH_DROP of its exit and class in the tile that held it, and in probation also
PROBATION_DROP. -/
def State.countFlush (s : State) (t x c : Nat) : State :=
  let s1 := s.arr 0 t x c 1
  if (s.lport x).oper = 4 then s1.stat x 27 else s1

/-- What a flush does to one packet of the exit. -/
def State.flushPkt (s : State) (id : Nat) : State :=
  match s.pkt id with
  | none => s
  | some p =>
    let x := p.ctx.exit
    let c := p.ctx.tc
    let cutFrame := p.ctx.ct && decide (p.launched < p.cells)
    match p.phase with
    | .queued => ((s.countFlush p.tile x c).discard id p true).settleSpill p.ctx.stage p.voq
    | .far => ((s.countFlush p.tile x c).discard id p true).settleSpill p.ctx.stage p.voq
    | .localCopy => (s.countFlush p.egress x c).discard id p true
    | .granted =>
      if p.launched = 0 then (s.countFlush (if p.copy then p.egress else p.tile) x c).discard id p true
      else if cutFrame then (((s.releaseCells p true).stompPkt id 2).onPkt id (fun p => { p.uncharge p.charged with cut := true })).freeExit x id
      else s
    | .crossed => (s.bump p.egress p.ctx.stage 0xC2).discard id p true
    | .dresser => (s.bump p.egress p.ctx.stage 0xC2).discard id p true
    | .edited => (s.bump p.egress p.ctx.stage 0xC2).discard id p true
    | .mac =>
      if cutFrame then (((s.releaseCells p true).stompPkt id 2).onPkt id (fun p => { p.uncharge p.charged with cut := true })).freeExit x id
      else s
    | .fifo => s
    | .tail => s
    | _ => if p.spec = 2 ∨ p.spec = 3 ∨ p.spec = 5 then (s.leaveEgress id x c).onPkt id (fun p => { p with spec := 0 }) else s

/-- Flush the VOQs, requests, local copies, staging and dressers of an lport in the classes of a mask (R64, R285). -/
def State.flushClasses (s : State) (l mask : Nat) : State :=
  let ids := s.pktsWhere (fun p => !p.mcast && p.ctx.exit == l && mask.testBit p.ctx.tc)
  let s0 := (s.sw.returns.filter (fun r => r.exit == l && mask.testBit r.cls)).foldl (fun s r => s.leaveEgress r.pkt l r.cls) s
  let s1 := forEach ids (fun id s => s.flushPkt id) (s0.onSw (fun w => { w with
    returns := w.returns.filter (fun r => !(r.exit == l && mask.testBit r.cls)) }))
  forEach ((range 0 8).filter (fun c => mask.testBit c)) (fun c s => s.onQueue l c (fun q => { q with dc := 0 })) s1

/-- Flush an lport in every class (R285). -/
def State.flushLport (s : State) (l : Nat) : State := s.flushClasses l 255

end Sys2Proof.Machine
end

