-- ==== Sys2Proof/Machine/PortOps.lean ====
section
/-! DEFINITION. Shared operations on sub-ports (chapter 2): OPER, health, tests, the power a port takes. -/
namespace Sys2Proof.Machine
open Sys2Proof

/-- A lane's power in units of 10 mW (R496). -/
def laneFigure (rate : Nat) : Nat := if rate = 2 then 185 else if rate = 1 then 110 else 70

/-- A port's figure: the sum of its configured lanes (R496). -/
def State.portFigure (s : State) (p : Nat) : Nat :=
  sumOver (lportsOf p) (fun l => match (s.lport l).cfg with | some c => cfgLanes c * laneFigure (cfgRate c) | none => 0)

/-! ### Modules behind a port (R522–R526) -/

/-- The cage wired to a port: an entry of the playbill, or by default the cage of its number (R522, R523). -/
def State.cageOf (s : State) (p : Nat) : Option Nat :=
  if s.surr.cagesGiven then (s.surr.cages.find? (fun e => e.2.port == p && e.2.maxPower != 0)).map (fun e => e.1) else some p

def State.module (s : State) (c : Nat) : Module := SMap.get Module.absent c s.surr.modules

/-- Why a sub-port with ADMIN UP cannot train (R44, R500, R523, R526): the cause of R66, or none. -/
def State.cannotTrain (s : State) (l : Nat) : Option Nat :=
  if s.power.refLost.testBit (tileOfLport l) then some 3
  else match s.cageOf (l / 8) with
    | none => some 1
    | some c => if (s.module c).state != 4 then some 1 else if SMap.has (l % 8) (s.module c).appSel then none else some 2

/-! ### OPER (R66) -/

/-- Peer mode goes down (R55): PEER_DOWN, 0 hello timeout or 1 link loss. -/
def State.peerDown (s : State) (l why : Nat) : State :=
  if (s.lport l).peerUp then
    (s.onLport l (fun x => { x with peerUp := false, lastHello := none, peerWidth := false })).post (s.portStage (l / 8)) Ev.peerDown Lv.port l
      (leBytes 1 why ++ zeros 3)
  else s.onLport l (fun x => { x with lastHello := none })

/-- Probation ends with the sub-port going down (R65): PROBATION_END, outcome DOWN. -/
def State.probationLost (s : State) (l : Nat) : State :=
  if (s.lport l).probEnd.isSome then
    (s.onLport l (fun x => { x with probEnd := none, probOnUp := true })).post (s.portStage (l / 8)) Ev.probationEnd Lv.port l (leBytes 1 1 ++ zeros 3)
  else s

/-- What every sub-port that stops running loses: peer mode, a width change, its probation; and its VOQs are flushed (R67). -/
def State.stopLport (s : State) (l : Nat) : State :=
  (((s.probationLost l).peerDown l 1).onLport l (fun x => { x with step := none, lanesOut := 0, pairSince := [], deg := false })).flushLport l

/-- A sub-port goes DOWN with a cause (R66, R67): LINK_DOWN is posted when it was not DOWN before. -/
def State.downLport (s : State) (l cause : Nat) : State :=
  let was := (s.lport l).oper
  let s1 := (s.stopLport l).onLport l (fun x => { x with oper := 0, cause := cause, trainSince := s.now })
  if was = 0 then s1 else s1.post (s.portStage (l / 8)) Ev.linkDown Lv.port l (leBytes 1 cause ++ zeros 3)

/-- A sub-port is HELD (R66, R497): lanes off, VOQs flushed, ADMIN kept. -/
def State.holdLport (s : State) (l : Nat) : State :=
  if (s.lport l).configured then (s.stopLport l).onLport l (fun x => { x with oper := 5, cause := 0 }) else s

/-- A sub-port begins to train; with ADMIN DOWN it stays DOWN with cause ADMIN, and without what training needs it is DOWN with the
cause of R66. Training begins at the configured lane rate. -/
def State.trainLport (s : State) (l : Nat) : State :=
  let p := s.lport l
  if !p.configured then s
  else if !p.admin then s.onLport l (fun x => { x with oper := 0, cause := 5 })
  else match s.cannotTrain l with
    | some c => s.onLport l (fun x => { x with oper := 0, cause := c })
    | none => s.onLport l (fun x => { x with oper := 1, cause := 0, rate := cfgRate x.conf, trainSince := s.now })

/-- May a port's sub-ports run: the mode lets them and the port is admitted (R9, R497)? -/
def State.portAdmitted (s : State) (p : Nat) : Bool := decide (3 ≤ s.cmd.mode) && !s.power.held.testBit p

/-- A sub-port that stops or starts as its ADMIN, the mode and the budget say. -/
def State.settleLport (s : State) (l : Nat) : State :=
  if s.portAdmitted (l / 8) then s.trainLport l else if (s.lport l).admin then s.holdLport l else s.onLport l (fun x => { x with oper := 0, cause := 5 })

/-! ### Tests (R70–R72, R510) -/

/-- The sub-port whose lanes include a lane, if any. -/
def State.lportOfLane (s : State) (n : Nat) : Option Nat :=
  (lportsOf (n / 8)).find? (fun l => match (s.lport l).cfg with
    | some c => decide (l ≤ n) && decide (n < l + cfgLanes c) | none => false)

/-- Does a loopback or a pattern run on a sub-port? -/
def State.inTest (s : State) (l : Nat) : Bool :=
  (s.lport l).loop != 0 || (range l (s.lport l).lanesUsed).any (fun n => (s.lane n).gen != 0 || (s.lane n).chk != 0)

/-- TEST_DONE (R463): KIND 1 LOOPBACK or 2 PRBS; OUTCOME 0 ended by command, 1 by leaving REHEARSAL; the lport or lane. -/
def State.testEnded (s : State) (kind outcome unit : Nat) : State :=
  s.post 0 Ev.testDone (if kind = 1 then Lv.port else Lv.lane) unit (leBytes 1 kind ++ leBytes 1 outcome ++ leBytes 2 unit ++ zeros 4)

/-- A loopback ends, and the sub-port retrains. -/
def State.endLoop (s : State) (outcome l : Nat) : State :=
  ((s.onLport l (fun x => { x with loop := 0 })).testEnded 1 outcome l).settleLport l

/-- A lane's patterns end, and its sub-port retrains. -/
def State.endPattern (s : State) (outcome n : Nat) : State :=
  let s1 := (s.onLane n (fun x => { x with gen := 0, chk := 0, locked := false, bits := 0, errors := 0 })).testEnded 2 outcome n
  match s.lportOfLane n with
  | some l => if s1.inTest l then s1 else s1.settleLport l
  | none => s1

/-- Every loopback and test pattern ends, and the sub-ports concerned retrain (R510). -/
def State.endTests (s : State) : State :=
  let s1 := forEach (s.port.lports.map (fun e => e.1)) (fun l s => if (s.lport l).loop != 0 then s.endLoop 1 l else s) s
  forEach (s.port.lanes.map (fun e => e.1)) (fun n s => if (s.lane n).gen != 0 || (s.lane n).chk != 0 then s.endPattern 1 n else s) s1

/-! ### Link health (R62–R65) -/

/-- Add to a window; its counters saturate (R62). -/
def HealthWin.add (w : HealthWin) (cw corr sym unc : Nat) : HealthWin :=
  { cw := satNat (w.cw + cw) 0xFFFFFFFF, corr := satNat (w.corr + corr) 0xFFFFFFFF, sym := satNat (w.sym + sym) 0xFFFFFFFF,
    unc := satNat (w.unc + unc) 0xFFFFFFFF }

/-- The FEC of a sub-port reports codewords: they count in R52 and, but for uncorrectable ones of a width change (WIDTH_LOSS_CW), in
the window in progress (R59, R61, R62). -/
def State.fecCount (s : State) (l cw corr sym unc : Nat) : State :=
  let changing := (s.lport l).step.isSome
  let s1 := ((s.statN l 28 corr).statN l 29 sym).statN l 30 unc
  let s2 := if changing then s1.statN l 31 unc else s1
  s2.onLport l (fun x => { x with win := x.win.add cw corr sym (if changing then 0 else unc) })

/-- Is a window one of R63's: the corrected symbol ratio reaches DEG_SER, or uncorrected codewords reach DEG_UNCORR? -/
def State.degradedBy (s : State) (l : Nat) (w : HealthWin) : Bool :=
  (w.cw != 0 && decide (s.setting 0x32 l * w.cw * 544 ≤ w.sym * 1000000000)) || decide (s.setting 0x33 l ≤ w.unc)

def State.postPort (s : State) (l code : Nat) (pay : List Byte) : State := s.post (s.portStage (l / 8)) code Lv.port l pay

/-- DEGRADED or DEGRADED_CLEAR (R63). -/
def State.setDegraded (s : State) (l : Nat) (d : Bool) : State :=
  if (s.lport l).deg = d then s
  else (s.onLport l (fun x => { x with deg := d })).postPort l (if d then Ev.degraded else Ev.degradedClear) []

end Sys2Proof.Machine
end

