-- ==== Sys2Proof/Machine/ModeOps.lean ====
section
/-! DEFINITION. Changing the major mode (R9, R391, R404, R433–R435, R508–R511, R583). -/
namespace Sys2Proof.Machine
open Sys2Proof

/-- Is a mailbox enabled in a mode (R391)? -/
def mbEnabledIn (s : State) (mode r : Nat) : Bool :=
  decide (2 ≤ mode) && (r != 7 || mode == Md.rehearsal) &&
    (!(decide (1 ≤ r) && decide (r ≤ 4)) || (s.stage r).state == 2 || (s.stage r).state == 3)

/-- ENABLED of every mailbox follows the mode and the stages (R391). -/
def State.enableMailboxes (s : State) : State :=
  forEach (range 0 8) (fun r s => s.onMb r (fun b => { b with enabled := mbEnabledIn s s.cmd.mode r })) s

/-- A ring whose kind the mode holds (R404). INTERVAL holds INJECT and PUNT only when it was entered from HOUSE (R368). -/
def ringHeldIn (s : State) (mode kind : Nat) : Bool :=
  if mode = Md.house then kind == 0 || kind == 1
  else if mode = Md.interval then
    kind == 2 || ((kind == 0 || kind == 1) && (match s.ctl.activation with | some a => a.returnMode == Md.house | none => false))
  else false

/-- A ring that the mode turns OFF abandons its items without completions (R379, R404). -/
def Ring.off (g : Ring) : Ring :=
  { g with enable := false, state := 0, errCause := 0, flush := none, items := [], answer := none }

/-- A ring's STATE in a mode (R404): RUN or HELD while it is enabled and neither flushing nor in error. -/
def Ring.inMode (g : Ring) (held : Bool) : Ring :=
  if g.enable && (g.state == 1 || g.state == 4) then { g with state := if held then 4 else 1 } else g

/-- Buffers a ring pair holds are freed (R379): those of the owners listed, retained ones among them. -/
def Pools.freeOwned (p : Pools) (owner : Nat) : Pools :=
  { p with buffers := SMap.keep (fun _ b => b.owner != owner || b.quarantined) p.buffers }

/-- Every ring is set OFF and its buffers are freed. -/
def State.ringsOff (s : State) : State :=
  s.onHost (fun h => { h with rings := SMap.mapD Ring.reset (fun _ g => g.off) h.rings, dumps := [],
                              pools := (range 0 64).foldl (fun p r => p.freeOwned r) h.pools })

/-- Rings follow the mode (R404). -/
def State.ringsForMode (s : State) : State :=
  if s.cmd.mode ≤ 1 then s.ringsOff
  else s.onHost (fun h => { h with rings := SMap.mapD Ring.reset (fun _ g => g.inMode (ringHeldIn s s.cmd.mode g.kind)) h.rings })

/-- Every armed injector is disarmed on leaving REHEARSAL, each with TEST_DONE (R463, R566). -/
def State.disarmInjectors (s : State) : State :=
  forEach (range 0 16) (fun i s =>
    let j := SMap.get Injector.reset i s.fault.injectors
    if j.state = 1 then
      (s.onFault (fun f => { f with injectors := SMap.put Injector.reset i { j with state := 0, remaining := 0 } f.injectors })).post
        0 Ev.testDone Lv.device i (leBytes 1 0 ++ leBytes 1 2 ++ leBytes 2 i ++ zeros 4)
    else s) s

/-- The payload of MODE_CHANGED (R583). -/
def modeChangedPayload (old new cause flags override recoveries : Nat) : List Byte :=
  leBytes 1 old ++ leBytes 1 new ++ leBytes 1 cause ++ leBytes 1 flags ++ leBytes 1 override ++ zeros 3 ++ leBytes 4 recoveries

/-- Does the data path run in a mode: RUN, LEAN, REHEARSAL, SAFE, and INTERVAL unless it was entered from HOUSE (R9, R368)? -/
def dataUpIn (s : State) (mode : Nat) : Bool :=
  decide (3 ≤ mode) &&
    !(mode == Md.interval && (match s.ctl.activation with | some a => a.returnMode == Md.house | none => false))

/-- The pipes are ungated and sub-ports of admitted ports train when the data path starts (R512 steps 11 and 12) and are HELD when it stops (R66). -/
def State.portsForMode (s : State) (old new : Nat) : State :=
  if dataUpIn s new && !dataUpIn s old then
    forEach (range 0 48) (fun p s => if s.power.held.testBit p then s else forEach (lportsOf p) (fun l s => s.trainLport l) s)
      (s.onSw (fun w => { w with pipesUp := true }))
  else if new == Md.house && dataUpIn s old then forEach (range 0 384) (fun l s => s.holdLport l) s
  else s

/-- What a change of mode does beside its report: PREV_MODE, ENTERED and CAUSE; ENABLED of the mailboxes; the rings; PERMIT of
DIAG (R562); the end of tests on leaving REHEARSAL; FWD_INTENT and the debug state on entering it; pipes ungated once the
device forwards (R512 step 11). -/
def State.setMode (s : State) (new cause : Nat) : State :=
  let old := s.cmd.mode
  let s1 := if old == Md.rehearsal && new != Md.rehearsal then s.accountSeconds.disarmInjectors.endTests else s.accountSeconds
  let s2 := s1.onCmd (fun c => { c with
    prevMode := old, mode := new, cause := cause, entered := s.localNs, transition := none,
    commandedSafe := (if new == Md.safe then cause == 0 else false),
    fwdIntent := (if new == Md.rehearsal then false else c.fwdIntent) })
  let s3 := s2.onCount (fun c => { c with diagPermit := new == Md.rehearsal || new == Md.safe })
  let s4 := if new == Md.rehearsal then s3.onCtl (fun c => { c with rehearsed := true }) else s3
  let s5 := s4.onPower (fun p => { p with gated := if new ≤ 1 then true else if new == Md.house then p.gated else false })
  let s6 := s5.onFault (fun f => { f with
    quietEnd := if new == Md.safe && cause != 0 && f.standing.isEmpty then some (s.now + tkS f.quietPeriod) else none })
  ((s6.enableMailboxes.ringsForMode).portsForMode old new).raiseIrq 89

/-- A commanded transition that a hardware transition overtakes completes with CMD_DONE and WRONG_MODE (R434). -/
def State.abandonTransition (s : State) : State :=
  match s.cmd.transition with
  | some t =>
    let s1 := s.onCmd (fun c => { c with transition := none })
    match t.mb with
    | some r => s1.finishPlain r 0x0201 St.wrongMode 0xFFFFFFFF
    | none => s1
  | none => s

/-- Report a change of mode that no command caused: MODE_CHANGED to MB0 with TAG 0 (R583). -/
def State.reportMode (s : State) (old flags override : Nat) : State :=
  s.post 0 Ev.modeChanged Lv.device 0 (modeChangedPayload old s.cmd.mode s.cmd.cause flags override s.cmd.recoveries)

/-- A transition made by hardware or firmware: a pending command gives way to it, the mode changes, MODE_CHANGED reports it. -/
def State.moveMode (s : State) (new cause override : Nat) : State :=
  ((s.abandonTransition).setMode new cause).reportMode s.cmd.mode 0 override

/-- Are any ports admitted (R497)? A port counts when it has a configured sub-port and is not held. -/
def State.anyAdmitted (s : State) : Bool :=
  (range 0 48).any (fun p => !s.power.held.testBit p &&
    (lportsOf p).any (fun l => (s.lport l).configured))

/-- The mode that FWD_INTENT, clocking and admitted ports permit (R508); an illegal population stops the device in HOUSE (R326). -/
def State.intendedMode (s : State) : Nat :=
  if !s.cmd.fwdIntent || !s.anyAdmitted || s.fault.standing.contains Fc.memPopulation then Md.house else if s.power.lean then Md.lean else Md.run

/-- Entry to SAFE by a fault (R453, R456): HOUSE, LOAD and DARK stay, SAFE restarts its quiet period, every other mode enters
SAFE, and commits accepted and not flipped are abandoned with cause SAFE. -/
def State.enterSafe (s : State) (override : Nat) : State :=
  if s.cmd.mode == Md.safe then
    (if s.cmd.commandedSafe then s
     else s.onFault (fun f => { f with quietEnd := if f.standing.isEmpty then some (s.now + tkS f.quietPeriod) else none }))
  else if s.cmd.mode == Md.run || s.cmd.mode == Md.lean || s.cmd.mode == Md.interval || s.cmd.mode == Md.rehearsal then
    (s.abandonCommits 0).moveMode Md.safe 4 override
  else s

end Sys2Proof.Machine
end

