-- ==== Sys2Proof/Machine/ResetOps.lean ====
section
/-! DEFINITION. Resets (R430, R454, R512–R514, R552): what each kind of reset keeps. -/
namespace Sys2Proof.Machine
open Sys2Proof

/-- Fault records survive every reset but removal of VIN: they become the previous records, and the live ones start empty (R448).
Lifetime counts belong to the ledger. -/
def FaultSt.overReset (f : FaultSt) : FaultSt :=
  { FaultSt.reset with prevFirst := f.first, prevHigher := f.higher, lifeReal := f.lifeReal, lifeInjected := f.lifeInjected,
                       pinAsserted := f.pinAsserted, pulseEnd := f.pulseEnd, pinHeld := f.pinHeld }

/-- What outlives every reset of the control complexes: the flash's images and the fuses (R361, R362, R364). -/
def ControlSt.overReset (c : ControlSt) : ControlSt :=
  { ControlSt.reset with rootA := c.rootA, rootB := c.rootB, serviceA := c.serviceA, serviceB := c.serviceB,
                         rootSvn := c.rootSvn, serviceSvn := c.serviceSvn, ownerKeys := c.ownerKeys,
                         deviceIdKnown := c.deviceIdKnown }

/-- The always-on part of the power manager: what it measures, the trips and the pins (R504, R512, R577). -/
def PowerSt.overReset (p : PowerSt) : PowerSt :=
  { PowerSt.reset with vinMv := p.vinMv, iin := p.iin, band := p.band, aonUp := p.aonUp, uvloOk := p.uvloOk, ovp := p.ovp,
                       tj := p.tj, thermLow := p.thermLow, trips := p.trips, tripBelow := p.tripBelow, refLost := p.refLost,
                       pwrGood := p.pwrGood,
                       avs := SMap.mapD Avs.reset (fun _ a => { a with lo := a.fuseLo, hi := a.fuseHi, pinned := none }) p.avs }

/-- The ledger outlives every reset; drives keep their records; captures in progress and sessions do not (R487, R513, R514). -/
def RecordSt.overReset (b : RecordSt) : RecordSt :=
  { b with captures := [], flows := [], snapInterval := 0, lastSnap := 0, toJournal := b.toJournal }

/-- A channel lost before a reset stays out of the population (R336). -/
def MemSt.overReset (m : MemSt) : MemSt :=
  { MemSt.reset with failed := (range 0 8).filter (fun c => m.failed.contains c || (SMap.get Channel.reset c m.channels).state == 4) }

/-- The calendar runs on through a reset; both clocks start again at LOAD (R465, R472). -/
def State.timeOverReset (s : State) : TimeSt :=
  { TimeSt.reset with zero := s.now, sec := s.calSeconds, calendar := s.time.calendar, calTick := s.time.calTick }

/-- The test access port is no part of what a reset reaches (R579). -/
def CountSt.overReset (c : CountSt) : CountSt :=
  { CountSt.reset with tapState := c.tapState, tapInst := c.tapInst, tapShift := c.tapShift, tapCells := c.tapCells, tapTdo := c.tapTdo,
                       tapDrives := c.tapDrives }

/-- Every die but the always-on domain is reset and the device is in `mode`: the configuration is lost (R514). Modules stay seated
and the outside world's host memory stays as it is. -/
def State.resetTo (s : State) (mode cause : Nat) (dark : DarkCause) : State :=
  { State.reset with
    now := s.now, free := s.free, pending := s.pending,
    host := { HostSt.reset with hostMem := s.host.hostMem, perstLow := s.host.perstLow },
    fault := s.fault.overReset, ctl := s.ctl.overReset, power := s.power.overReset, time := s.timeOverReset,
    book := s.book.overReset, mem := s.mem.overReset, count := s.count.overReset,
    surr := { SurroundSt.reset with modules := SMap.mapD Module.absent (fun _ m => { Module.absent with state := (if m.state = 0 then 0 else 1) })
                                      s.surr.modules },
    cmd := { CmdSt.reset with mode := mode, prevMode := s.cmd.mode, cause := cause, dark := dark, resume := s.cmd.resume } }

/-! ### DARK and resume (R513) -/

/-- The fault records become the previous ones and FAULT.CONFIG stays: a start from DARK may resume. -/
def FaultSt.overDark (f : FaultSt) : FaultSt :=
  { f.overReset with
    raised := f.raised, interrupt := f.interrupt, quietPeriod := f.quietPeriod, pinOnQ := f.pinOnQ, pinMode := f.pinMode,
    captureCe := f.captureCe }

/-- Both clocks start again; the settings of TIME.CONFIG and TIME.PORT stay. -/
def State.timeOverDark (s : State) : TimeSt :=
  { s.timeOverReset with
    source := s.time.source, ppsOut := s.time.ppsOut, ppsWidth := s.time.ppsWidth,
    stepThreshold := s.time.stepThreshold, hostTimeout := s.time.hostTimeout, utcOffset := s.time.utcOffset,
    freqBound := s.time.freqBound, todBaud := s.time.todBaud,
    ptp := SMap.mapD PtpPort.reset (fun _ p => { PtpPort.reset with
      enabled := p.enabled, oneStep := p.oneStep, rxDelay := p.rxDelay, txDelay := p.txDelay }) s.time.ptp }

/-- A shaper's setting without its tokens. -/
def Shaper.config (x : Shaper) : Shaper :=
  { Shaper.reset with en := x.en, rate := x.rate, burst := x.burst, effEn := x.en, effRate := x.rate, effBurst := x.burst }

/-- Table words that outlive DARK: no learned L2 entry and no counter word does. -/
def State.wordsKept (s : State) : SMap Nat :=
  let padsOf := fun (kind t : Nat) => ((range 0 5).map (fun k => ((s.insts k kind).all.map (fun i => SMap.get [] t i.pads)).flatten)).flatten
  let l2 := (range 0 8).map (padsOf 1)
  let ctr := (range 0 8).map (padsOf 13)
  SMap.keep (fun key w =>
    let t := key / 4 / 8192 / 96
    let p := key / 4 / 8192 % 96
    !((ctr.getD t []).contains p) && !((l2.getD t []).contains p && !bitOf w 122)) s.tab.sram

/-- The tables' configuration: versions, instances, the backing store and what is bound to versions. -/
def State.tabOverDark (s : State) : TableSt :=
  { TableSt.reset with
    vers := s.tab.vers, sram := s.wordsKept, insts := s.tab.insts, backing := s.tab.backing, cfgs := s.tab.cfgs,
    cfgStarted := s.tab.cfgStarted, blocks := s.tab.blocks, arrivals := s.tab.arrivals, graphs := s.tab.graphs, sets := s.tab.sets,
    floor := s.tab.floor, cap := s.tab.cap, ucode := s.tab.ucode, edits := s.tab.edits }

/-- The configuration of queues, sessions and policers. -/
def SwitchSt.overDark (w : SwitchSt) : SwitchSt :=
  { SwitchSt.reset with
    classes := w.classes, sessions := w.sessions, policers := w.policers, polRange := w.polRange, colours := w.colours,
    queues := SMap.keep (fun k q => decide (q ≠ queueReset (k % 8))) (SMap.mapVals (fun _ q => { EQueue.reset with
      level := q.level, quantum := q.quantum, shaper := q.shaper.config }) w.queues),
    egress := SMap.mapD Egress.reset (fun _ e => { Egress.reset with
      shaper := e.shaper.config, refillExp := e.refillExp, effExp := e.refillExp, lineBytes := e.lineBytes, gbPad := e.gbPad, sheet := e.sheet,
      lportMin := e.lportMin, headroom := e.headroom, xonGap := e.xonGap, pauseWd := e.pauseWd }) w.egress }

/-- Port configurations with ADMIN, and the SerDes bounds. -/
def PortSt.overDark (p : PortSt) : PortSt :=
  { PortSt.reset with
    lports := SMap.mapD Lport.reset (fun _ x => { Lport.reset with cfg := x.cfg }) p.lports,
    lanes := SMap.mapD LaneSt.reset (fun _ x => { LaneSt.reset with fuse := x.fuse, bounds := x.bounds }) p.lanes }

/-- Memory's configuration: a channel that was lost stays out, every other is trained again at the next LOAD. -/
def MemSt.overDark (m : MemSt) (now : Nat) : MemSt :=
  { m with channels := [], failed := m.overReset.failed, speed := 3, step := none, queued := none, scale := 65536, flowOff := false,
           captureOff := false, pinned := none, rows := [], written := [],
           shares := SMap.mapD Share.reset (fun _ x => { Share.reset with space := x.space, bw := x.bw, last := now }) m.shares }

/-- Ring assignments, quotas and caps stay, and which commits are accepted and not flipped; everything else of the host path starts again. -/
def HostSt.overDark (h : HostSt) : HostSt :=
  { HostSt.reset with
    hostMem := h.hostMem, perstLow := h.perstLow,
    mbs := SMap.mapD Mailbox.reset (fun _ b => { Mailbox.reset with outstanding := b.outstanding.filter (fun o => o.opcode == 0x070A) }) h.mbs,
    rings := SMap.mapD Ring.reset (fun _ g => { Ring.reset with stage := g.stage, kind := g.kind, hostq := g.hostq, assigned := g.assigned }) h.rings,
    pools := { Pools.reset with counts := h.pools.counts, quotas := h.pools.quotas, limits := h.pools.limits } }

/-- Capture and flow sessions keep their settings and lose what they hold. -/
def RecordSt.overDark (b : RecordSt) : RecordSt :=
  { b with
    captures := SMap.mapD Capture.reset (fun _ c => { c with state := (if c.configured then 1 else 0), before := [], after := [], truncated := false, damaged := false }) b.captures,
    flows := SMap.mapD FlowSession.reset (fun _ f => { f with entries := [] }) b.flows }

/-- The power manager's settings stay, and what the always-on domain measures; steps taken end. -/
def PowerSt.overDark (p : PowerSt) : PowerSt :=
  { p.overReset with limit := p.limit, reserve := p.reserve, precedence := p.precedence, twarn := p.twarn,
                     avs := SMap.mapD Avs.reset (fun _ a => { a with pinned := none }) p.avs }

/-- The rails are removed (R512, R513): packets, counters, learned entries and everything else in progress are gone; what a resume may
restore stays. -/
def State.railsOff (s : State) : State :=
  { s with
    host := s.host.overDark, tab := s.tabOverDark, sw := s.sw.overDark, port := s.port.overDark, mem := s.mem.overDark s.now,
    book := s.book.overDark, power := s.power.overDark, count := CountSt.reset,
    cmd := { s.cmd with transition := none, resetPlan := none, held := [] },
    surr := { s.surr with modules := SMap.mapD Module.absent (fun _ m => { Module.absent with state := (if m.state = 0 then 0 else 1) }) s.surr.modules } }

/-- A reset through LOAD, recorded in the ledger with its cause and sender (R430, R454, R488). -/
def State.resetToLoad (s : State) (cause sender : Nat) (record : List Byte) : State :=
  (s.ledgerWrite 5 (leBytes 1 cause ++ leBytes 1 sender ++ record)).resetTo Md.load cause s.cmd.dark

end Sys2Proof.Machine
end

