-- ==== Sys2Proof/Machine/FaultOps.lean ====
section
/-! DEFINITION. The fault collector (R447–R461): records, capture, windows, escalation, isolation, FAULT_N, and who sees a fault. -/
namespace Sys2Proof.Machine
open Sys2Proof

/-- The 256 bits of a record, least significant byte first (R447, R461). -/
def FaultRec.toNat (r : FaultRec) : Nat :=
  2 ^ 255 + r.sev % 8 * 2 ^ 252 + r.cls % 1024 * 2 ^ 242 + r.level % 8 * 2 ^ 239 + r.unit % 65536 * 2 ^ 223 + r.stage % 8 * 2 ^ 220 +
    r.master % 65536 * 2 ^ 204 + r.access % 16 * 2 ^ 200 + r.address % 2 ^ 48 * 2 ^ 152 + r.time % 2 ^ 64 * 2 ^ 88 +
    r.seq % 65536 * 2 ^ 72 + r.flags % 256 * 2 ^ 64 + r.detail % 2 ^ 64

/-- A record's 32 bytes; an empty record reads zero (R582). -/
def recordBytes (r : Option FaultRec) : List Byte :=
  match r with
  | some r => leBytes 32 r.toNat
  | none => zeros 32

/-- The owner's copy of a side stage's record: ADDRESS and DETAIL zero, MASKED set (R461). -/
def FaultRec.masked (r : FaultRec) : FaultRec :=
  if 1 ≤ r.stage ∧ r.stage ≤ 4 then { r with address := 0, detail := 0, flags := setBit r.flags 5 true } else r

/-- Post a fault event with its record: to the stage's mailbox and to MB0, each copy masked as its mailbox requires (R461). -/
def State.postFault (s : State) (code : Nat) (r : FaultRec) : State :=
  let s1 := if 1 ≤ r.stage ∧ r.stage ≤ 4 ∧ s.stageLive r.stage then s.post r.stage code r.level r.unit (leBytes 32 r.toNat) else s
  s1.post 0 code r.level r.unit (leBytes 32 r.masked.toNat)

/-- Every fault record a stage may see goes to its JOURNAL (R481): S0's, and a side stage's masked copy, to S0; its own to the stage. -/
def State.journalFault (s : State) (r : FaultRec) : State :=
  s.onBook (fun b => { b with
    toJournal := b.toJournal ++ [(0, leBytes 32 r.masked.toNat)] ++
      (if 1 ≤ r.stage ∧ r.stage ≤ 4 then [(r.stage, leBytes 32 r.toNat)] else []) })

/-- FAULT_N is asserted (R458): a low pulse; a new cause during a pulse lengthens it, a new cause while held leaves it held. -/
def FaultSt.assertPin (f : FaultSt) (now : Nat) : FaultSt :=
  if f.pinAsserted && f.pulseEnd.isNone then f
  else { f with pinAsserted := true, pulseEnd := some (now + tkUs 20), pinHeld := false }

/-- Does a fault captured or raised at a severity assert FAULT_N (R458)? -/
def FaultSt.drivesPin (f : FaultSt) (sev : Nat) : Bool := decide (Sev.degrade ≤ sev) || (sev == Sev.quarantine && f.pinOnQ)

def FaultSt.pinFor (f : FaultSt) (sev now : Nat) : FaultSt := if f.drivesPin sev then f.assertPin now else f

/-- A class's severity in force: raised by FAULT.CONFIG, never below the default (R452). -/
def FaultSt.severityOf (f : FaultSt) (cls : Nat) : Nat :=
  match SMap.find cls f.raised with
  | some v => v
  | none => (Fc.severity cls).getD Sev.contained

/-- A handling window in ticks (R449); FATAL has none. -/
def windowTicks (sev : Nat) : Option Nat :=
  if sev = Sev.contained then some (tkMs 10) else if sev = Sev.quarantine then some (tkMs 1)
  else if sev = Sev.degrade then some (tkUs 100) else none

/-- Saturating 32-bit counts (R447). -/
def satInc (v : Nat) : Nat := if v + 1 < 2 ^ 32 then v + 1 else 2 ^ 32 - 1

/-- Count an error of a class and stage; the lifetime counts keep injected errors apart (R447, R461, R463). -/
def FaultSt.count (f : FaultSt) (cls stage : Nat) (injected : Bool) : FaultSt :=
  { f with counts := SMap.upd 0 cls satInc f.counts,
           stageCounts := SMap.upd 0 (cls * 8 + stage) satInc f.stageCounts,
           lifeReal := if injected then f.lifeReal else SMap.upd 0 cls (fun v => v + 1) f.lifeReal,
           lifeInjected := if injected then SMap.upd 0 cls (fun v => v + 1) f.lifeInjected else f.lifeInjected }

/-- Is a record's severity higher than every one captured since the first-error record was cleared (R447)? -/
def FaultSt.beats (f : FaultSt) (sev : Nat) : Bool :=
  (match f.first with | some r => decide (r.sev < sev) | none => true) &&
    (match f.higher with | some r => decide (r.sev < sev) | none => true)

/-- Capture an error (R447, R458, R460): the first-error record, or the higher record; the event and the interrupt where they are due. -/
def State.capture (s0 : State) (r : FaultRec) : State :=
  let s := s0.journalFault r
  let shown := s.fault.interrupt.contains r.cls || decide (Sev.quarantine ≤ r.sev)
  let irq := !(r.access == 4 && r.sev == Sev.contained)
  match s.fault.first with
  | none =>
    let s1 := s.onFault (fun f => ({ f with first := some r }).pinFor r.sev s.now)
    let s2 := if irq then s1.raiseIrq 88 else s1
    if shown then s2.postFault Ev.faultFirst r else s2
  | some _ =>
    if s.fault.beats r.sev then
      let s1 := s.onFault (fun f => ({ f with higher := some r }).pinFor r.sev s.now)
      let s2 := if irq then s1.raiseIrq 88 else s1
      if shown then s2.postFault Ev.faultHigher r else s2
    else s

/-- Update the captured copies of a record: those that carry its SEQ. -/
def FaultSt.refresh (f : FaultSt) (r : FaultRec) : FaultSt :=
  { f with first := f.first.map (fun x => if x.seq = r.seq then r else x),
           higher := f.higher.map (fun x => if x.seq = r.seq then r else x) }

/-- An escalated record replaces the higher record when its raised severity exceeds it (R451). -/
def FaultSt.raiseHigher (f : FaultSt) (r : FaultRec) : FaultSt :=
  let f1 := f.refresh r
  match f.first, f.higher with
  | some a, some b => if a.seq = r.seq || b.seq = r.seq then f1 else if b.sev < r.sev then { f1 with higher := some r } else f1
  | some a, none => if a.seq = r.seq then f1 else if a.sev < r.sev then { f1 with higher := some r } else f1
  | none, some b => if b.seq = r.seq then f1 else if b.sev < r.sev then { f1 with higher := some r } else f1
  | none, none => { f1 with higher := some r }

/-- The smallest unit of R455 that contains a record's address. -/
def isoUnitOf (r : FaultRec) : IsoUnit :=
  let inst := r.master % 1024
  if r.cls = Fc.tableUe ∨ r.cls = Fc.learnedUe then
    (if r.address.testBit 47 then .other r.cls r.unit
     else .paddockLine r.unit (bitsOf r.address 16 7) (bitsOf r.address 2 13))
  else if r.cls = Fc.ucodeUe then .microword r.unit r.address
  else if r.cls = Fc.nodeUe then .nodeWord r.unit r.address
  else if r.cls = Fc.pipeStall then .pipe (inst / 16) (inst % 16)
  else if r.cls = Fc.dresserStall then .dresser (inst / 96) (inst % 96)
  else if r.cls = Fc.engineUe then .engine r.unit (r.address / 65536)
  else if r.cls = Fc.cellRegion ∨ r.cls = Fc.foldUe then .foldRegion r.unit (r.address / 4096)
  else if r.cls = Fc.frameFault ∨ r.cls = Fc.threadStorm ∨ r.cls = Fc.rootWrite then .thread inst
  else if r.cls = Fc.laneFault ∨ r.cls = Fc.peerLaneFault then .lport inst
  else .other r.cls r.unit

/-- The store whose spares an isolation uses: 16 spare lines a paddock, 32 spare words a store (R455). -/
def spareKey (u : IsoUnit) : Option Nat :=
  match u with
  | .paddockLine t p _ => some (t * 96 + p)
  | .microword t _ => some (1000 + t)
  | .nodeWord t _ => some (1100 + t)
  | _ => none

/-- Isolate a unit (R455): it stays out of use until the next LOAD or a RESTORE; an lport goes down and is flushed. -/
def State.isolate (s : State) (u : IsoUnit) : State :=
  let s1 := s.onFault (fun f => { f with
    isolated := if f.isolated.contains u then f.isolated else f.isolated ++ [u],
    spares := match spareKey u with | some k => SMap.upd 0 k (fun v => v + 1) f.spares | none => f.spares })
  match u with
  | .lport l => (s1.onPort (fun p => { p with
      lports := SMap.upd Lport.reset l (fun x => { x with oper := 7 }) p.lports })).flushLport l
  | .thread i => s1.onCtl (fun c => { c with threads := SMap.upd Thread.reset i (fun t => { t with halted := true }) c.threads })
  | _ => s1

/-- Reset through LOAD for a FATAL fault (R454): recorded with its record, COLD for ROOT_CLOCK and RAIL_FAULT as for the others
in what is kept; FAULT_N stays low until root firmware has started again. In LOAD the device stays in LOAD, FAULT_N held. -/
def State.fatalReset (s : State) (r : FaultRec) : State :=
  let s1 := if s.cmd.mode = Md.load then s else (s.resetToLoad 4 0xFF (leBytes 32 r.toNat))
  s1.onFault (fun f => { f with pinAsserted := true, pulseEnd := none, pinHeld := true })

/-- Close an open entry: by acknowledgement or by its escalation (R449, R464). -/
def FaultSt.close (f : FaultSt) (seq stage : Nat) (escalated : Bool) : FaultSt :=
  { f with opened := f.opened.filter (fun e => e.record.seq != seq),
           closed := SMap.insert seq { escalated := escalated, stage := stage } f.closed }

/-- What the escalation of a fault at a severity does (R449, R453–R455); `suppress` reports and does not apply SAFE and LOAD. -/
def State.applyEscalation (s : State) (sev : Nat) (r : FaultRec) (suppress : Bool) : State :=
  if sev = Sev.quarantine then s.isolate (isoUnitOf r)
  else if sev = Sev.degrade then (if suppress then s else s.enterSafe 0)
  else if sev = Sev.fatal then (if suppress then s else s.fatalReset r)
  else s

/-- Flags of an escalated record: ESCALATED, and ISOLATED once its unit is isolated. -/
def escalatedRec (r : FaultRec) (sev : Nat) (isolated : Bool) : FaultRec :=
  { r with sev := sev, flags := setBit (if isolated then setBit r.flags 6 true else r.flags) 1 true }

/-- An entry raised to QUARANTINE runs a new window; an entry that is not open is opened so (R449, R452). -/
def FaultSt.reopen (f : FaultSt) (seq : Nat) (r : FaultRec) (ends : Nat) : FaultSt :=
  let e : OpenFault := { record := r, sev := Sev.quarantine, windowEnd := some ends, taken := false, suppress := false }
  if f.opened.any (fun x => x.record.seq == seq) then
    { f with opened := f.opened.map (fun (x : OpenFault) =>
        if x.record.seq = seq then { x with record := r, sev := Sev.quarantine, windowEnd := some ends } else x) }
  else { f with opened := f.opened ++ [e], closed := SMap.erase seq f.closed }

/-- A window expires (R449, R455): CONTAINED is raised to QUARANTINE with a new window of 1 ms; QUARANTINE isolates and DEGRADE
enters SAFE, and the entry is closed. FAULT_ESCALATED carries the record as it then stands. -/
def State.escalate (s : State) (e : OpenFault) : State :=
  if e.sev = Sev.contained then
    let r := escalatedRec e.record Sev.quarantine false
    let s1 := s.onFault (fun f => ((f.reopen r.seq r (s.now + tkMs 1)).raiseHigher r).pinFor Sev.quarantine s.now)
    (s1.raiseIrq 88).postFault Ev.faultEscalated r
  else
    let r := escalatedRec e.record e.sev (e.sev == Sev.quarantine)
    let s1 := s.onFault (fun f => (((f.close r.seq r.stage true).raiseHigher r).pinFor e.sev s.now))
    ((s1.raiseIrq 88).postFault Ev.faultEscalated r).applyEscalation e.sev r e.suppress

/-- A fault that finds all 64 entries open takes at once every escalation of its chain (R451). -/
def State.overflowFault (s : State) (r : FaultRec) (suppress : Bool) : State :=
  let sev := if r.sev = Sev.contained then Sev.quarantine else r.sev
  let r1 := escalatedRec r sev (sev == Sev.quarantine)
  let s1 := s.onFault (fun f => (({ f with overflow := f.overflow + 1 }).raiseHigher r1).pinFor sev s.now)
  ((s1.raiseIrq 88).postFault Ev.faultEscalated r1).applyEscalation sev r1 suppress

/-- Does an entry stand open for a class and unit (R449, R451)? -/
def FaultSt.openFor (f : FaultSt) (cls level unit : Nat) : Option OpenFault :=
  f.opened.find? (fun e => e.record.cls == cls && e.record.level == level && e.record.unit == unit)

/-- What a checker reports (R447). -/
structure Report where
  cls : Nat
  level : Nat
  unit : Nat
  stage : Nat
  master : Nat
  access : Nat
  address : Nat
  detail : Nat
  injected : Bool
  suppress : Bool
  deriving DecidableEq, Repr

/-- A report by hardware that nothing injected. -/
def Report.of (cls level unit stage master access address detail : Nat) : Report :=
  { cls := cls, level := level, unit := unit, stage := stage, master := master, access := access, address := address,
    detail := detail, injected := false, suppress := false }

/-- The record of a report. -/
def Report.rec' (r : Report) (s : State) (sev seq flags : Nat) : FaultRec :=
  { sev := sev, cls := r.cls, level := r.level, unit := r.unit, stage := r.stage, master := r.master, access := r.access,
    address := r.address, time := s.localNs, seq := seq,
    flags := setBit flags 4 r.injected, detail := r.detail }

/-- Persistent causes of SAFE (R456): the class, and TILE_STATE_UE with its tile. -/
def standingOf (r : Report) : Option Nat :=
  if r.cls = Fc.memChannelLost ∨ r.cls = Fc.memPopulation ∨ r.cls = Fc.controlLost then some r.cls
  else if r.cls = Fc.tileStateUe then some (0x1000 + r.unit) else none

/-- A persistent cause stands from its report on; a quiet period then does not run (R456). A fault of QUARANTINE or higher restarts it. -/
def FaultSt.stand (f : FaultSt) (r : Report) (sev now : Nat) (inSafe : Bool) : FaultSt :=
  match standingOf r with
  | some c => { f with standing := (if f.standing.contains c then f.standing else f.standing ++ [c]), quietEnd := none }
  | none =>
    if inSafe && decide (Sev.quarantine ≤ sev) && f.standing.isEmpty then { f with quietEnd := some (now + tkS f.quietPeriod) } else f

/-- Open an entry with its handling window (R449). -/
def FaultSt.openNew (f : FaultSt) (fr : FaultRec) (seq sev now : Nat) (suppress : Bool) : FaultSt :=
  let e : OpenFault := { record := fr, sev := sev, windowEnd := (windowTicks sev).map (fun w => now + w), taken := false,
                         suppress := suppress }
  { f with lastSeq := seq, opened := f.opened ++ [e] }

/-- The fault collector takes a report (R447–R451): it counts; below CONTAINED it stops there unless CAPTURE_CE is set; an entry
already open for the class and unit only counts; an AUTO class is captured acknowledged; the rest open an entry, or escalate at
once when the table is full. FATAL resets at once and CONTROL_LOST enters SAFE at once. -/
def State.report (s : State) (r : Report) : State :=
  let sev := s.fault.severityOf r.cls
  let fatalNow := fun (x : State) (fr : FaultRec) => if sev = Sev.fatal ∧ ¬ r.suppress then x.fatalReset fr else x
  let safeSet := s.cmd.mode == Md.safe && !s.cmd.commandedSafe
  let s1 := s.onFault (fun f => (f.count r.cls r.stage r.injected).stand r sev s.now safeSet)
  if sev = Sev.corrected then
    (if s.fault.captureCe then s1.capture (r.rec' s sev s.fault.lastSeq 0) else s1)
  else
    match s1.fault.openFor r.cls r.level r.unit with
    | some e => s1.capture (r.rec' s sev e.record.seq 0)
    | none =>
      if Fc.auto r.cls then
        let seq := (s.fault.lastSeq + 1) % 65536
        let fr := r.rec' s sev seq 1
        (s1.onFault (fun f => { f with
          lastSeq := seq, closed := SMap.insert seq { escalated := false, stage := r.stage } f.closed })).capture fr
      else if 64 ≤ s1.fault.opened.length then
        let fr := r.rec' s sev s.fault.lastSeq 0
        (s1.capture fr).overflowFault fr r.suppress
      else
        let seq := (s.fault.lastSeq + 1) % 65536
        let fr := r.rec' s sev seq 0
        let s2 := (s1.onFault (fun f => f.openNew fr seq sev s.now r.suppress)).capture fr
        if r.cls = Fc.controlLost ∧ ¬ r.suppress then s2.enterSafe 0 else fatalNow s2 fr

/-- The severity of the worst record not acknowledged, 0–4, or 0xFF (R429, R555). -/
def FaultSt.worst (f : FaultSt) : Nat :=
  let sevs := f.opened.map (fun e => e.sev) ++
    (f.first.toList ++ f.higher.toList).filterMap (fun r => if r.flags.testBit 0 then none else some r.sev)
  match sevs with
  | [] => 0xFF
  | v :: l => l.foldl (fun a b => if a < b then b else a) v

/-- Firmware acknowledges the open entry of a class and unit (R450): its window stops and the captured record shows ACKED. -/
def FaultSt.ack (f : FaultSt) (seq : Nat) : FaultSt :=
  match f.opened.find? (fun e => e.record.seq == seq) with
  | some e =>
    let r := { e.record with flags := setBit e.record.flags 0 true }
    (f.close seq e.record.stage false).refresh r
  | none => f

/-- A repair ends (R452, R459): REPAIRED is set and FAULT_REPAIRED posted; or it fails, REPAIR_FAILED is set, FAULT_REPAIR_FAILED
is posted and the entry reopens at QUARANTINE with a window of 1 ms. -/
def State.repairDone (s : State) (r : FaultRec) (ok : Bool) : State :=
  if ok then
    let r1 := { r with flags := setBit r.flags 2 true }
    (s.onFault (fun f => f.refresh r1)).postFault Ev.faultRepaired r1
  else
    let r1 := { r with sev := Sev.quarantine, flags := setBit r.flags 3 true }
    let s1 := s.onFault (fun f => (f.reopen r.seq r1 (s.now + tkMs 1)).raiseHigher r1)
    (s1.raiseIrq 88).postFault Ev.faultRepairFailed r1

/-- The record a repair of a class and unit concerns: captured, open, or formed anew with the last SEQ. -/
def State.recordFor (s : State) (cls level unit : Nat) : Option FaultRec :=
  ((s.fault.first.toList ++ s.fault.higher.toList ++ s.fault.opened.map (fun e => e.record)).filter
    (fun r => r.cls == cls && r.level == level && r.unit == unit)).head?

/-- An uncorrectable DRAM burst (R338) of a sub-channel (channel × 2 + sub-channel): counted MEM_UE and recorded as DRAM_UE, or in the BACKING
region as BACKING_UE; ACCESS is that of the reader or of the patrol. -/
def State.dramUe (s : State) (cls unit stage access : Nat) : State :=
  (s.bump 8 0 (memEvt unit 1)).report (Report.of cls Lv.device 0 stage (11 * 1024 + unit) access 0 0)

end Sys2Proof.Machine
end

