-- ==== Sys2Proof/Machine/HostOps.lean ====
section
/-! DEFINITION. Shared operations of the host path (chapter 13): the buffer pools, ring items and completions, the reset of the host
path. -/
namespace Sys2Proof.Machine
open Sys2Proof

/-! ### Buffer pools (R405–R410) -/

/-- Bytes of a buffer of each pool (R405). -/
def poolSize (k : Nat) : Nat := if k = 0 then 256 else if k = 1 then 2048 else if k = 2 then 10240 else 65536

/-- The pool of a buffer's key. -/
def poolOfKey (key : Nat) : Nat := key / 16384

/-- The number of buffers a pool is set to (R405). -/
def Pools.countOf (p : Pools) (k : Nat) : Nat := (p.counts[k]?).getD 0

/-- Buffers of a pool in use or withdrawn. -/
def Pools.usedOf (p : Pools) (k : Nat) : Nat :=
  (p.buffers.filter (fun e => poolOfKey e.1 == k)).length + (p.withdrawn.filter (fun e => poolOfKey e == k)).length

/-- Free buffers of a pool (R411, R561). -/
def Pools.freeOf (p : Pools) (k : Nat) : Nat := p.countOf k - p.usedOf k

/-- The bytes charged to a stage, and to an owner: every buffer at its full size (R406). -/
def Pools.stageBytes (p : Pools) (k : Nat) : Nat :=
  (p.buffers.filter (fun e => e.2.stage == k)).foldl (fun a e => a + poolSize (poolOfKey e.1)) 0
def Pools.ownerBytes (p : Pools) (o : Nat) : Nat :=
  (p.buffers.filter (fun e => e.2.owner == o)).foldl (fun a e => a + poolSize (poolOfKey e.1)) 0

/-- Bytes of all pools together (R405). -/
def poolsBytes (counts : List Nat) : Nat :=
  (counts[0]?).getD 0 * 256 + (counts[1]?).getD 0 * 2048 + (counts[2]?).getD 0 * 10240 + (counts[3]?).getD 0 * 65536

/-- A stage's quota in bytes (R406): a side stage's own, S0 the rest of the 48 MiB. -/
def Pools.quota (p : Pools) (k : Nat) : Nat :=
  if k = 0 then 48 * 1048576 - 1024 * p.quotas.foldl (fun a e => a + e.2) 0 else 1024 * SMap.get 0 k p.quotas

/-- An owner's limits at their defaults (R406, R408). -/
def ownerDefault (o : Nat) : OwnerLimits :=
  { capKiB := (if o < 64 then 2048 else if o < 72 then 256 else 8192), ageWarn := 1000, ageReclaim := 10000 }

def Pools.limitsOf (p : Pools) (o : Nat) : OwnerLimits := (SMap.find o p.limits).getD (ownerDefault o)

/-- The smallest pool whose buffers hold a size (R405). -/
def poolFor (size : Nat) : Nat := if size ≤ 256 then 0 else if size ≤ 2048 then 1 else if size ≤ 10240 then 2 else 3

/-- The first pool from k up with a free buffer, if any. -/
def Pools.firstFree (p : Pools) (k : Nat) : Option Nat := (range k (4 - k)).find? (fun j => decide (0 < p.freeOf j))

/-- The lowest index of a pool that is neither in use nor withdrawn. -/
def Pools.freeIndex (p : Pools) (k : Nat) : Nat :=
  ((range (k * 16384) (p.countOf k)).find? (fun key => !SMap.has key p.buffers && !p.withdrawn.contains key)).getD (k * 16384)

/-- A buffer's handle (R407): POOL, INDEX and GEN. -/
def handleOf (key gen : Nat) : Nat := poolOfKey key * 2 ^ 30 + key % 16384 * 65536 + gen % 65536

/-- The key a handle names, and its GEN. -/
def keyOfHandle (h : Nat) : Nat := h / 2 ^ 30 % 4 * 16384 + bitsOf h 16 14
def genOfHandle (h : Nat) : Nat := h % 65536

/-- POOL_FALLBACK is counted for a pool that was empty; the first after 1 s without one is reported to the stage (R405, R413). -/
def State.poolFallback (s : State) (stage k : Nat) : State :=
  let s1 := s.bump 8 0 (0xB8 + k)
  let quiet := match SMap.find k s.host.pools.lastFallback with | some t => decide (t + tkS 1 ≤ s.now) | none => true
  let s2 := s1.onHost (fun h => { h with pools := { h.pools with lastFallback := SMap.insert k s.now h.pools.lastFallback } })
  if quiet then s2.post stage Ev.poolFallbackOnset Lv.device 0 (leBytes 1 k ++ zeros 3) else s2

/-- What an allocation answers: the buffer's key and the state, or nothing (R405, R406). -/
def State.allocBuffer (s : State) (owner stage size : Nat) : Option (Nat × State) :=
  let p := s.host.pools
  let k0 := poolFor size
  if 65536 < size then none
  else match p.firstFree k0 with
    | none => none
    | some k =>
      let bytes := poolSize k
      if 1024 * (p.limitsOf owner).capKiB < p.ownerBytes owner + bytes || p.quota stage < p.stageBytes stage + bytes then none
      else
        let key := p.freeIndex k
        let gen := (SMap.get 0 key p.gens + 1) % 65536
        let buf : Buffer := { owner := owner, stage := stage, gen := gen, since := s.now, retained := false, warned := false,
                              quarantined := false, data := [] }
        let s1 := forEach (range k0 (k - k0)) (fun j s => s.poolFallback stage j) s
        some (key, s1.onHost (fun h => { h with
          pools := { h.pools with
            buffers := SMap.insert key buf h.pools.buffers,
            gens := SMap.put 0 key gen h.pools.gens } }))

/-- A buffer by its key. -/
def State.buffer (s : State) (key : Nat) : Option Buffer := SMap.find key s.host.pools.buffers

def State.onPools (s : State) (f : Pools → Pools) : State := s.onHost (fun h => { h with pools := f h.pools })

/-- A buffer is freed. -/
def State.freeBuffer (s : State) (key : Nat) : State := s.onPools (fun p => { p with buffers := SMap.erase key p.buffers })

/-- A buffer is kept for its holder (R407). -/
def State.retainBuffer (s : State) (key : Nat) (data : List Byte) : State :=
  s.onPools (fun p => { p with buffers := SMap.adjust key (fun b => { b with retained := true, data := data }) p.buffers })

/-- A buffer with an uncorrectable word is out of use until the next LOAD (R410). -/
def State.withdrawBuffer (s : State) (key : Nat) : State :=
  s.onPools (fun p => { p with buffers := SMap.erase key p.buffers, withdrawn := if p.withdrawn.contains key then p.withdrawn else p.withdrawn ++ [key] })

/-! ### Ring items and completions (R395, R401–R403) -/

def Ring.size (g : Ring) : Nat := 2 ^ g.logSize
/-- Entries published and not yet fetched. -/
def Ring.published (g : Ring) (upTo : Nat) : Nat := subMod (upTo % g.size) (g.sqCons % g.size) g.size
/-- Free completion entries, less those reserved: one for each item fetched (R395). -/
def Ring.freeCq (g : Ring) : Nat := g.size - 1 - subMod (g.cqProd % g.size) (g.cqCons % g.size) g.size - g.items.length

/-- Buffers held by a list of items are freed. -/
def State.freeItems (s : State) (items : List Item) : State :=
  items.foldl (fun s it => match it.buffer with | some k => s.freeBuffer k | none => s) s

/-- An error stops a ring (R403): its items in flight are abandoned without completions, and RING_ERROR goes to its stage. -/
def State.ringError (s : State) (p cause : Nat) : State :=
  let s1 := s.freeItems (s.ring p).items
  let s2 := s1.onRing p (fun g => { g with state := 3, errCause := cause, items := [], flush := none, answer := none })
  s2.post (s.ring p).stage Ev.ringError Lv.device p (leBytes 2 p ++ leBytes 1 cause ++ zeros 1)

/-- A ring whose ENABLE is clear turns OFF once nothing is outstanding (R403). -/
def Ring.settle (g : Ring) : Ring :=
  if !g.enable && g.items.isEmpty && g.state != 3 then { g with state := 0, flush := none } else g

/-- The 32 bytes of a completion entry (R401). -/
def completionBytes (id code b3 w4 w8 w12 time : Nat) : List Byte :=
  leBytes 2 id ++ leBytes 1 (code % 16) ++ leBytes 1 b3 ++ leBytes 4 w4 ++ leBytes 4 w8 ++ leBytes 4 w12 ++ leBytes 8 time ++ zeros 8

/-- What a completion says, beside the ID. -/
structure Comp where
  code : Nat
  b3 : Nat
  w4 : Nat
  w8 : Nat
  w12 : Nat
  deriving DecidableEq, Repr

/-- A completion with a code alone. -/
def Comp.of (code : Nat) : Comp := { code := code, b3 := 0, w4 := 0, w8 := 0, w12 := 0 }

/-- Write a completion entry, then advance CQ_PROD and raise the pair's interrupt source (R401, R412); an error writing it stops
the ring with cause CQ_WRITE (R403). -/
def State.completeId (s : State) (p id : Nat) (c : Comp) (cqOk : Bool) : State :=
  if !cqOk then s.ringError p 2
  else
    let g := s.ring p
    let at_ := g.cqBase + 32 * (g.cqProd % g.size)
    let s1 := s.onHost (fun h => { h with
      hostMem := Memory.writeN h.hostMem at_ (completionBytes id c.code c.b3 c.w4 c.w8 c.w12 s.localNs) })
    (s1.onRing p (fun g => ({ g with
      cqProd := (g.cqProd + 1) % g.size,
      completions := SMap.upd 0 c.code (fun v => v + 1) g.completions }).settle)).raiseIrq p

/-- An item is finished: its buffer is freed (unless retained), it leaves the ring, and its completion is written. -/
def State.completeItem (s : State) (p : Nat) (it : Item) (c : Comp) (cqOk : Bool) : State :=
  let kept := match it.buffer with | some k => (match s.buffer k with | some b => b.retained | none => false) | none => false
  let s1 := if kept then s else s.freeItems [it]
  (s1.onRing p (fun g => { g with items := g.items.erase it })).completeId p it.id c cqOk

/-- The oldest item of a ring in a phase. -/
def Ring.firstIn (g : Ring) (ph : ItemPhase) : Option Item := g.items.find? (fun i => i.phase == ph)

/-- Change one item of a ring. -/
def State.setItem (s : State) (p : Nat) (old new : Item) : State :=
  s.onRing p (fun g => { g with items := g.items.map (fun i => if i = old then new else i) })

/-- Bytes the device moves for a ring (R412). -/
def State.moved (s : State) (p n : Nat) : State := s.onRing p (fun g => { g with bytesMoved := g.bytesMoved + n })

/-- The device writes host memory. -/
def State.hostWrite (s : State) (a : Nat) (bs : List Byte) : State :=
  s.onHost (fun h => { h with hostMem := Memory.writeN h.hostMem a bs })

/-- Is a command's DUMP pair one it may name (R400)? -/
def State.dumpPairOf (s : State) (stage p : Nat) : Bool :=
  decide (p < 64) && (s.ring p).assigned && (s.ring p).kind == 3 && (s.ring p).stage == stage

/-- Bulk data of a command waits for a DUMP pair's buffers (R400). -/
def State.startDump (s : State) (p mb opcode tag : Nat) (data : List Byte) : State :=
  s.onHost (fun h => { h with
    dumps := h.dumps ++ [{ pair := p, mb := mb, opcode := opcode, tag := tag, left := data, fragment := 0 }] })

/-! ### Reset of the host path (R379, R551) -/

/-- A mailbox after a reset of the host path: areas and intake cleared, indices 0, ANY set, responses discarded; EVSEQ, the events
posted and the commands outstanding go on, and ENABLED follows R391. -/
def Mailbox.hostReset (b : Mailbox) : Mailbox :=
  { Mailbox.reset with enabled := b.enabled, evSeq := b.evSeq, posted := b.posted, dropped := b.dropped, outstanding := b.outstanding }

/-- A ring pair's registers at their reset values (R551). -/
def State.hostPathReset (s : State) (registers : Bool) : State :=
  let s1 := s.ringsOff
  let s2 := s1.onHost (fun h => { h with
    mbs := SMap.mapD Mailbox.reset (fun _ b => b.hostReset) h.mbs, areas := [], irqMap := [], vecs := [],
    rings := if registers then [] else h.rings, linkUp := false, resetUnreported := true })
  if registers then s2.onCount (fun c => { c with latches := [], ucsHold := [none, none, none], resetArmed := none }) else s2

end Sys2Proof.Machine
end

