-- ==== Sys2Proof/Machine/RecordOps.lean ====
section
/-! DEFINITION. Shared operations on the prompt book (R477–R485): extents, records, captures and flows. -/
namespace Sys2Proof.Machine
open Sys2Proof

def extentBytes : Nat := 256 * 1048576

def Drive.none : Drive := { present := false, label := 0, pct := 0, critical := false, quiesced := false, extents := 0, serial := 0 }

/-- May a drive be written (R478)? Present, with this device's label, no critical warning, below 100 % used, not quiesced. -/
def Drive.writable (d : Drive) : Bool := d.present && d.label == 0 && !d.critical && decide (d.pct < 100) && !d.quiesced

def ringKey (k kind : Nat) : Nat := k * 8 + kind
def State.bookRing (s : State) (k kind : Nat) : BookRing := SMap.get BookRing.reset (ringKey k kind) s.book.rings
def State.onBookRing (s : State) (k kind : Nat) (f : BookRing → BookRing) : State :=
  s.onBook (fun b => { b with rings := SMap.upd BookRing.reset (ringKey k kind) f b.rings })

/-- Extents in use on a drive, by a stage, and in all. -/
def RecordSt.usedOn (b : RecordSt) (d : Nat) : Nat := b.rings.foldl (fun a e => a + (e.2.exts.filter (fun x => x.drive == d)).length) 0
def RecordSt.usedBy (b : RecordSt) (k : Nat) : Nat := b.rings.foldl (fun a e => if e.1 / 8 = k then a + e.2.exts.length else a) 0
/-- Extents of every drive of this device. -/
def RecordSt.allExtents (b : RecordSt) : Nat := b.drives.foldl (fun a e => if e.2.present && e.2.label == 0 then a + e.2.extents else a) 0
/-- A stage's share of extents (R479): a side stage's own; S0 holds the rest (log entry 25). -/
def RecordSt.share (b : RecordSt) (k : Nat) : Nat :=
  if k = 0 then b.allExtents - (b.shares.filter (fun e => e.1 != 0)).foldl (fun a e => a + e.2) 0 else SMap.get 0 k b.shares

/-- The drive a new extent is taken from (R478): the lowest Percentage Used among writable drives with a free extent, then the lower
index. -/
def RecordSt.pickDrive (b : RecordSt) : Option Nat :=
  (b.drives.filter (fun e => e.2.writable && decide (b.usedOn e.1 < e.2.extents))).foldl (fun (best : Option Nat) e =>
    match best with
    | none => some e.1
    | some j => if e.2.pct < (SMap.get Drive.none j b.drives).pct then some e.1 else best) none

def BookRec.len (r : BookRec) : Nat := 32 + r.body.length

/-- A record's bytes (R480). -/
def BookRec.bytes (r : BookRec) : List Byte :=
  let h := leBytes 2 0x4250 ++ leBytes 1 r.kind ++ leBytes 1 r.stage ++ leBytes 4 r.len ++ leBytes 4 r.rseq ++ leBytes 6 r.sec ++
    leBytes 4 r.ns ++ leBytes 2 r.flags ++ zeros 4
  h ++ leBytes 4 (crc32c (h ++ zeros 4 ++ r.body)) ++ r.body

/-- A ring at LIMIT deallocates its oldest extent with the records in it (R479). -/
def BookRing.dropOldest (g : BookRing) : BookRing :=
  match g.exts with
  | e :: rest => { g with exts := rest, recs := g.recs.filter (fun r => r.ext != e.serial) }
  | [] => g

/-- Age in whole seconds of a ring's oldest record, by network time. -/
def oldestAge (s : State) (g : BookRing) : Nat := match g.recs with | r :: _ => s.time.sec - r.sec | [] => 0

/-- A ring's last extent, if it has room for a record and its drive can be written. -/
def BookRing.room (g : BookRing) (b : RecordSt) (len : Nat) : Option Extent :=
  match g.exts.getLast? with
  | some e => if e.used + len ≤ extentBytes && (SMap.get Drive.none e.drive b.drives).writable then some e else none
  | none => none

/-- Write a record into a ring (R478–R481); nothing where no extent can be had. FLAGS: GAP after a loss, NOT_LOCKED outside LOCKED. -/
def State.writeRecord (s : State) (k kind flags : Nat) (body : List Byte) : Option State :=
  let g := s.bookRing k kind
  let len := 32 + body.length
  let fl := setBit (setBit flags 2 g.gap) 3 (s.time.state != 2)
  let put := fun (s : State) (e : Extent) =>
    s.onBookRing k kind (fun g => { g with
      gap := false, next := (g.next + 1) % 2 ^ 32,
      exts := g.exts.map (fun (x : Extent) => if x.serial = e.serial then { x with used := x.used + len } else x),
      recs := g.recs ++ [{ kind := kind, stage := k, rseq := g.next, sec := s.time.sec, ns := s.time.ns, flags := fl, body := body,
                           ext := e.serial }] })
  match g.room s.book len with
  | some e => some (put s e)
  | none =>
    let full := decide (g.limit ≤ g.exts.length)
    let low := full && decide (oldestAge s g < 3600 * g.retainHint)
    let s1 := if full then s.onBookRing k kind (fun g => g.dropOldest) else s
    let s2 := if low then s1.post k Ev.recordSpaceLow Lv.device 0 (leBytes 1 kind ++ zeros 3 ++ leBytes 4 (oldestAge s g)) else s1
    if s2.book.share k ≤ s2.book.usedBy k || extentBytes < len then none
    else match s2.book.pickDrive with
      | none => none
      | some d =>
        let e : Extent := { serial := g.nextExt, drive := d, used := 0 }
        some (put (s2.onBookRing k kind (fun g => { g with nextExt := g.nextExt + 1, exts := g.exts ++ [e] })) e)

/-- A record that cannot be written is lost (R482): counted, and the next record of its ring carries GAP. -/
def State.loseRecord (s : State) (k kind ev : Nat) : State := (s.bump 8 k ev).onBookRing k kind (fun g => { g with gap := true })

/-! ### Captures (R483, R484) -/

def State.flowSession (s : State) (k j : Nat) : FlowSession := SMap.get FlowSession.reset (k * 2 + j) s.book.flows
def State.capSession (s : State) (k j : Nat) : Capture := SMap.get Capture.reset (k * 4 + j) s.book.captures
def State.onCapture (s : State) (k j : Nat) (f : Capture → Capture) : State :=
  s.onBook (fun b => { b with captures := SMap.upd Capture.reset (k * 4 + j) f b.captures })

def framesBytes (l : List CapFrame) : Nat := l.foldl (fun a f => a + f.header.length + f.data.length) 0

/-- Keep the newest frames within a number of bytes. -/
def keepNewest (limit : Nat) : List CapFrame → List CapFrame
  | [] => []
  | f :: l => if framesBytes (f :: l) ≤ limit then f :: l else keepNewest limit l

/-- Does a session take frames of a host queue (R483)? -/
def Capture.takes (c : Capture) (q : Nat) : Bool := c.configured && (c.state == 1 || c.state == 2) && c.hostq == q

/-- Does a flow session take frames of a host queue (R485)? -/
def FlowSession.takes (c : FlowSession) (q : Nat) : Bool := c.configured && c.hostq == q

/-- The ready places of a host queue of a stage (R398, R483, R485): ring pairs that hold a fetched buffer, capture sessions as 64–67, flow
sessions as 68 and 69. -/
def State.puntDests (s : State) (k q : Nat) : List Nat :=
  ((range 0 64).filter (fun j =>
    let g := s.ring j
    g.assigned && g.kind == 1 && g.stage == k && g.hostq == q && g.state == 1 && (g.firstIn .waiting).isSome)) ++
  ((range 0 4).filter (fun j => (s.capSession k j).takes q)).map (fun j => 64 + j) ++
  ((range 0 2).filter (fun j => (s.flowSession k j).takes q)).map (fun j => 68 + j)
/-- The next of them in rotation. -/
def State.nextDest (s : State) (k q : Nat) : Option Nat :=
  let l := s.puntDests k q
  let last := SMap.get 72 (k * 8 + q) s.host.puntRot
  match l.find? (fun d => decide (last < d)) with
  | some d => some d
  | none => l.head?

/-- A session takes a frame: ARMED keeps the newest PRE bytes, TRIGGERED counts toward POST. -/
def Capture.take (c : Capture) (f : CapFrame) : Capture :=
  if c.state = 1 then { c with before := keepNewest c.pre (c.before ++ [f]) } else { c with after := c.after ++ [f] }

/-- A trigger (R483): ARMED becomes TRIGGERED; in TRIGGERED or WRITING it is counted TRIGGER_MERGED. Cause 0 COMMAND, 1 EVENT. -/
def State.triggerCapture (s : State) (k j cause : Nat) : State :=
  let c := s.capSession k j
  if c.state = 1 then
    (s.onCapture k j (fun c => { c with state := 2, triggeredAt := s.now })).post k Ev.captureTriggered Lv.device j
      (leBytes 1 j ++ leBytes 1 cause ++ zeros 2)
  else if c.state = 2 ∨ c.state = 3 then s.bump 8 k (0xC6 + j) else s

/-- A capture as it is recorded: frame by frame, its kept length, acceptance time, punt header and bytes. -/
def captureBody (l : List CapFrame) : List Byte :=
  (l.map (fun f => leBytes 4 f.data.length ++ leBytes 8 f.at_ ++ f.header ++ f.data)).flatten

/-- The frames of a recorded capture: bit 0 of a header's FLAGS says that a survey record follows it. -/
def captureFrames : Nat → List Byte → List CapFrame
  | 0, _ => []
  | n + 1, bs =>
    if bs.length < 76 then []
    else
      let len := fieldLE bs 0 4
      let h := if bitOf (fieldLE bs 15 1) 0 then 128 else 64
      { at_ := fieldLE bs 4 8, header := sliceB bs 12 h, data := sliceB bs (12 + h) len } :: captureFrames n (bs.drop (12 + h + len))

/-- Pad to a multiple of four bytes. -/
def pad4 (bs : List Byte) : List Byte := bs ++ zeros ((4 - bs.length % 4) % 4)
/-- A pcapng block: type, total length, body, total length. -/
def pcapBlock (type : Nat) (body : List Byte) : List Byte :=
  leBytes 4 type ++ leBytes 4 (body.length + 12) ++ body ++ leBytes 4 (body.length + 12)
/-- ASCII of a decimal number below 100. -/
def asciiNat (n : Nat) : List Byte :=
  if n < 10 then [BitVec.ofNat 8 (48 + n)] else [BitVec.ofNat 8 (48 + n / 10 % 10), BitVec.ofNat 8 (48 + n % 10)]
/-- if_name: "P12.3", or "host" for IN_LPORT 511 (R484). -/
def ifName (l : Nat) : List Byte :=
  if l = 511 then [0x68, 0x6F, 0x73, 0x74] else [0x50] ++ asciiNat (l / 8) ++ [0x2E] ++ asciiNat (l % 8)
/-- The timestamp of a frame (R484): the latest linear count N not after its acceptance with N mod 2^24 = TS_IN. -/
def captureStamp (f : CapFrame) : Nat := f.at_ - subMod (f.at_ % 2 ^ 24) (fieldLE f.header 24 4 % 2 ^ 24) (2 ^ 24)
/-- The lports seen, in the order first seen. -/
def lportsSeen (l : List CapFrame) : List Nat := (l.map (fun f => fieldLE f.header 4 2)).eraseDups
/-- A capture as one pcapng section (R484). -/
def pcapng (snap : Nat) (l : List CapFrame) : List Byte :=
  let ifs := lportsSeen l
  pcapBlock 0x0A0D0D0A (leBytes 4 0x1A2B3C4D ++ leBytes 2 1 ++ leBytes 2 0 ++ leBytes 8 (2 ^ 64 - 1)) ++
    (ifs.map (fun p => pcapBlock 1 (leBytes 2 1 ++ zeros 2 ++ leBytes 4 snap ++ leBytes 2 2 ++ leBytes 2 (ifName p).length ++
      pad4 (ifName p) ++ leBytes 2 9 ++ leBytes 2 1 ++ leBytes 1 9 ++ zeros 3 ++ zeros 4))).flatten ++
    (l.map (fun f =>
      let ts := captureStamp f
      pcapBlock 6 (leBytes 4 (ifs.idxOf (fieldLE f.header 4 2)) ++ leBytes 4 (ts / 2 ^ 32) ++ leBytes 4 (ts % 2 ^ 32) ++
        leBytes 4 f.data.length ++ leBytes 4 (fieldLE f.header 0 2) ++ pad4 f.data ++ leBytes 2 2 ++ leBytes 2 4 ++ leBytes 4 1 ++
        zeros 4))).flatten

/-! ### Flows (R485) -/

def State.onFlow (s : State) (k j : Nat) (f : FlowSession → FlowSession) : State :=
  s.onBook (fun b => { b with flows := SMap.upd FlowSession.reset (k * 2 + j) f b.flows })

/-- A flow key (R485): the fields in order, zero-padded to 40 bytes. -/
def flowKey (c : FlowSession) (frame : List Byte) : List Byte :=
  let k := (c.fields.map (fun f => (sliceB frame f.1 f.2) ++ zeros (f.2 - (sliceB frame f.1 f.2).length))).flatten
  (k ++ zeros 40).take 40

/-- Entries of 128 bytes that fit a session's half of the stage's FLOW share. -/
def State.flowRoom (s : State) (k : Nat) : Nat := s.shareBytes 3 k / 2 / 128

/-- A sample updates its flow, or starts one; a full table leaves it untracked, and a suspended share stops updates (R482, R485). -/
def State.sampleFlow (s : State) (k j inLport len : Nat) (frame : List Byte) : State :=
  let c := s.flowSession k j
  let key := flowKey c frame
  let now := s.netLinear
  if s.shareSuspended 3 k then s.shareRefused k 3
  else match c.entries.find? (fun e => e.key == key && e.inLport == inLport) with
    | some e =>
      (s.onFlow k j (fun c => { c with entries := c.entries.map (fun (x : FlowEntry) =>
        if x = e then { x with packets := x.packets + 1, bytes := x.bytes + len, lastT := now } else x) })).shareTraffic k 3 128 128
    | none =>
      if s.flowRoom k ≤ c.entries.length then s.bump 8 k (0xCA + j)
      else (s.onFlow k j (fun c => { c with
        entries := c.entries ++ [{ key := key, inLport := inLport, packets := 1, bytes := len, firstT := now, lastT := now,
                                   startedAt := now }] })).shareTraffic k 3 0 128

/-- A flow's 80-byte export record (R485). END: 0 idle, 1 active, 2 session stopped. -/
def flowRecord (e : FlowEntry) (end_ : Nat) : List Byte :=
  e.key ++ leBytes 8 e.packets ++ leBytes 8 e.bytes ++ leBytes 8 e.firstT ++ leBytes 8 e.lastT ++ leBytes 2 e.inLport ++ leBytes 1 end_ ++
    zeros 5

/-- Export a flow: a FLOW record, or RECORD_DROP where it cannot be written (R482). -/
def State.exportFlow (s : State) (k j : Nat) (e : FlowEntry) (end_ : Nat) : State :=
  let s1 := s.onFlow k j (fun c => { c with entries := c.entries.erase e })
  (s1.writeRecord k 4 0 (flowRecord e end_)).getD (s1.loseRecord k 4 0xC3)

end Sys2Proof.Machine
end

