-- ==== Sys2Proof/Machine/AdmitOps.lean ====
section
/-! DEFINITION. Shared operations of admission (R276–R284), the cancelled grant (R267), pause frames sent (R51, R278), numbers returned to
the reorder unit (R22) and the drops of a pipe. -/
namespace Sys2Proof.Machine
open Sys2Proof

/-! ### Where a packet stands in its journey -/

/-- Has a packet's tail arrived by a PCLK of its journey (R31)? -/
def Pkt.tailIn (p : Pkt) (pclk : Nat) : Bool := p.verdict.isSome || decide (p.tailAt ≤ pclk + p.adder)
/-- MAX_FRAME of the ingress sub-port; a frame that enters whole is its own bound. -/
def State.maxFrameOf (s : State) (p : Pkt) : Nat :=
  match p.inLport with | some l => cfgMaxFrame (s.lport l).conf | none => p.ctx.len

/-- An injected frame's fate is known (R397): 0 ADMITTED, 1 ADMIT_REFUSED, 2 PIPE_DROP, 3 DOWN. -/
def State.injFate (s : State) (id : Nat) (p : Pkt) (fate : Nat) : State :=
  match p.inj with
  | none => s
  | some j =>
    match (s.ring j.ring).items.find? (fun i => i.id == j.id && i.phase == .inTile) with
    | some it => (s.setItem j.ring it { it with phase := .fated fate }).onPkt id (fun q => { q with inj := none })
    | none => s.onPkt id (fun q => { q with inj := none })

/-! ### The reorder unit (R22, R23) -/

def srcKey (t src : Nat) : Nat := t * 50 + src
def State.source (s : State) (t src : Nat) : Source := SMap.get Source.reset (srcKey t src) s.sw.sources
def State.onSource (s : State) (t src : Nat) (f : Source → Source) : State :=
  s.onSw (fun w => { w with sources := SMap.upd Source.reset (srcKey t src) f w.sources })

/-- A packet dropped in its pipe returns its number as an empty token; one whose gap was closed has nothing to release. -/
def State.returnNumber (s : State) (t src seq : Nat) : State :=
  s.onSource t src (fun x =>
    if x.closed.contains seq then { x with closed := x.closed.filter (fun n => n != seq) }
    else { x with returned := x.returned ++ [seq] })

/-! ### The grant that is not used (R267, R268) -/

/-- What a granted request must put back. -/
def Pkt.grantBack (p : Pkt) (id : Nat) : GrantBack :=
  { exit := p.ctx.exit, cls := p.ctx.tc, stage := p.ctx.stage, pkt := id, busyBefore := p.busyBefore, rotBefore := p.rotBefore,
    passed := p.passed }

/-- A cancel reaches the egress scheduler: the lport, the credit, the charge and the rotation go back. -/
def State.takeBack (s : State) (r : GrantBack) : State :=
  let t := tileOfExit r.exit
  let s1 := (s.onEg r.exit (fun e => if e.frame = some r.pkt then { e with frame := none, busyUntil := r.busyBefore } else e)).onQueue
    r.exit r.cls (fun q => { q with dc := q.dc + 256, rot := r.rotBefore })
  let s2 := s1.bump t r.stage 0xD1
  (if r.passed then s2.bump t r.stage 0xD2 else s2).settleQueue r.exit r.cls

/-- A cancel of a granted request is on its way. -/
def State.sendBack (s : State) (r : GrantBack) : State := s.onSw (fun w => { w with returns := w.returns ++ [r] })

/-- A pipe cancels a speculation (R28, R29): the cause is counted, the slot is WASTED, a grant travels back and a deferral is withdrawn. -/
def State.cancelSpec (s : State) (id : Nat) (p : Pkt) (cause : Nat) : State :=
  let s1 := ((s.bump p.tile p.ctx.stage (0x08 + cause)).pipeSlot p.tile 1).onPkt id (fun q => { q with spec := 4 })
  if p.spec = 2 then s1.sendBack (p.grantBack id) else s1

/-- A packet is dropped in its pipe (R22, R33): PIPE_DROP, a WASTED slot, its number returned. -/
def State.pipeDrop (s : State) (id : Nat) (p : Pkt) : State :=
  let s1 := s.bump p.tile p.ctx.stage 0x0F
  let s2 := if p.spec = 4 then s1 else s1.pipeSlot p.tile 1
  (((s2.returnNumber p.tile p.src p.ctx.seq).injFate id p 2).erasePkt id).settleQueue p.ctx.exit p.ctx.tc

/-! ### Pause frames sent (R51, R278) -/

/-- XOFF for a class of an lport, where none stands already. -/
def State.sendXoff (s : State) (l c : Nat) : State :=
  if SMap.has (l * 8 + c) s.sw.xoff then s
  else (s.stat l (40 + c)).onSw (fun w => { w with xoff := SMap.insert (l * 8 + c) s.now w.xoff })

/-! ### The shared threshold (R277) -/

/-- α × F in sixty-fourths of a cell. -/
def ClassCfg.alphaF (x : ClassCfg) (f : Nat) : Nat := f * 2 ^ (x.alphaExp + 6).toNat
/-- T. -/
def ClassCfg.threshold (x : ClassCfg) (f : Nat) : Nat := min (max (x.alphaF f / 64) x.dtMin) x.dtMax

/-- The loop pins where α × F lies outside its bounds: LOOP_AT_LIMIT once an episode. -/
def State.thresholdLoop (s : State) (t k c : Nat) : State :=
  let x := s.classCfg k c
  let a := x.alphaF (s.sharedFree k t)
  let low := decide (a < 64 * x.dtMin)
  let high := decide (64 * x.dtMax < a)
  if low || high then
    let key := (t * 5 + k) * 8 + c
    let s1 := s.onSw (fun w => { w with pinned := SMap.insert key s.now w.pinned })
    if loopEpisodeNew (SMap.find key s.sw.pinned) s.now then s1.post k Ev.loopAtLimit Lv.tile t (loopPayload 3 (k * 8 + c) (flagNat high)) else s1
  else s

/-! ### Charging cells (R276, R279) -/

/-- What admission decides of a frame's cells: 0 admitted, 1 refused with cause VOQ, 2 with cause HEADROOM_FULL; and where they go. -/
structure Charge where
  refused : Nat
  voq : Nat
  lport : Nat
  shared : Nat
  head : Nat
  deriving DecidableEq, Repr

/-- Sources admitted to the shared region only. -/
def Pkt.sharedOnly (p : Pkt) : Bool := decide (48 ≤ p.src) || (!p.mcast && decide (384 ≤ p.ctx.exit ∧ p.ctx.exit < 392))

/-- Steps 2 to 6 of R276 for k cells. -/
def State.chargeFor (s : State) (p : Pkt) (k : Nat) : Charge :=
  let key := p.chargeVoq
  let st := p.ctx.stage
  let c := p.ctx.tc
  let f := s.sharedFree st p.tile
  let t := (s.classCfg st c).threshold f
  let vm := if p.sharedOnly then 0 else min k ((s.classCfg st c).voqMin - s.voqMinUsed key)
  let lm := match p.inLport with
    | some l => if p.sharedOnly then 0 else min (k - vm) ((s.eg l).lportMin - s.lportMinUsed l)
    | none => 0
  let r := k - vm - lm
  if r = 0 ∨ (s.voqShared key + r ≤ t ∧ r ≤ f) then { refused := 0, voq := vm, lport := lm, shared := r, head := 0 }
  else match p.inLport with
    | some l =>
      if p.sharedOnly || !s.pfcOn l c then { refused := 1, voq := 0, lport := 0, shared := 0, head := 0 }
      else if s.headUsed l c + r ≤ (s.eg l).headroom then { refused := 0, voq := vm, lport := lm, shared := 0, head := r }
      else { refused := 2, voq := 0, lport := 0, shared := 0, head := 0 }
    | none => { refused := 1, voq := 0, lport := 0, shared := 0, head := 0 }

/-! ### Admission -/

/-- A frame is not admitted: the grant it holds goes back at once, and an injected frame learns its fate. -/
def State.refuse (s : State) (id : Nat) (p : Pkt) (fate : Nat) : State :=
  let s1 := if p.spec = 5 then s.takeBack (p.grantBack id) else s
  ((s1.injFate id p fate).erasePkt id).settleQueue p.ctx.exit p.ctx.tc

/-- A copy that R279 refuses is also counted COPY_DROP (R274). -/
def State.countR279 (s : State) (p : Pkt) (e : Nat) : State :=
  let s1 := s.bump p.tile p.ctx.stage e
  if p.src == 50 && (p.ctx.mir || p.ctx.smp) then s1.bump p.tile p.ctx.stage 0xD7 else s1

/-- The counters of a frame whose cells are refused (R276, R278, R279). -/
def State.countRefused (s : State) (p : Pkt) (cause : Nat) : State :=
  let t := p.tile
  let k := p.ctx.stage
  if p.src == 50 && (p.ctx.mir || p.ctx.smp) then s.bump t k 0xD7
  else if p.src = 48 then s.bump t k 0xDD
  else if cause = 1 then s.bump t k 0xD9
  else
    let o := ((s.bump t k 0xDA).bump t k 0xDB).onset 7 t
    if o.1 then o.2.post k Ev.headroomOverflowOnset Lv.tile t (leBytes 2 (t * 48 + p.src) ++ leBytes 1 p.ctx.tc ++ zeros 1) else o.2

/-- A frame is put in its queues: a confirmed grant begins to be launched, another waits. -/
def State.enqueue (s : State) (id : Nat) (p : Pkt) : State :=
  if p.mcast then
    forEach ((range 0 8).filter (fun k => p.lk.tileMap.testBit k)) (fun k s => s.onVoq (p.mcVoq k) (fun l => l ++ [id]))
      (s.onPkt id (fun q => { q with phase := .queued, mcLeft := p.lk.tileMap % 256 }))
  else if p.spec = 5 then
    (((s.onVoq p.voq (fun l => l ++ [id])).arr 2 (tileOfExit p.ctx.exit) p.ctx.exit p.ctx.tc 1).arr 3 (tileOfExit p.ctx.exit) p.ctx.exit p.ctx.tc
        (p.ctx.len - 4)).onPkt id (fun q => { q with
      phase := .granted, spec := 0, egress := tileOfExit p.ctx.exit, ctx := { p.ctx with ct := true } })
  else (s.onVoq p.voq (fun l => l ++ [id])).onPkt id (fun q => { q with phase := .queued, spec := 0 })

/-- Cells of a frame are charged and the frame is queued; the first headroom cell of (lport, class) sends XOFF. -/
def State.place (s : State) (id : Nat) (p : Pkt) (x : Charge) : State :=
  let first := match p.inLport with | some l => x.head != 0 && s.headUsed l p.ctx.tc == 0 | none => false
  let s1 := s.onPkt id (fun q => { q with cVoq := x.voq, cLport := x.lport, cShared := x.shared, cHead := x.head })
  let s2 := match p.inLport with | some l => if first then s1.sendXoff l p.ctx.tc else s1 | none => s1
  (s2.injFate id p 0).enqueue id p

/-- A frame bound for spill goes to the far pasture, or is refused (R282–R284); its VOQ spills from now on. -/
def State.spillFrame (s : State) (id : Nat) (p : Pkt) : State :=
  let k := p.ctx.stage
  let t := p.tile
  let n := spillBytes p.ctx.len
  let key := p.voq
  let s0 := if s.sw.spilling.contains key then s else s.onSw (fun w => { w with spilling := w.spilling ++ [key] })
  let why := s0.spillRefusal k n
  if why = 0 then
    let o := ((s0.spillWrite k n).bump t k 0xDF).onset 5 t
    let s1 := if o.1 then o.2.post k Ev.spillOnset Lv.tile t (leBytes 1 t ++ leBytes 1 p.ctx.tc ++ leBytes 2 p.ctx.exit) else o.2
    ((s1.injFate id p 0).onVoq key (fun l => l ++ [id])).onPkt id (fun q => { q with phase := .far, spec := 0 })
  else
    let o := (s0.bump t k (0xDF + why)).onset 6 t
    let s1 := if o.1 then o.2.post k Ev.spillRefusedOnset Lv.tile t (leBytes 1 t ++ leBytes 1 (why - 1) ++ zeros 2) else o.2
    s1.refuse id p 1

/-- Is a frame bound for spill (R282)? -/
def State.spillBound (s : State) (p : Pkt) : Bool :=
  let x := s.classCfg p.ctx.stage p.ctx.tc
  !p.mcast && decide (p.ctx.exit < 384) && p.src != 50 && x.spillEn &&
    !(match p.inLport with | some l => s.pfcOn l p.ctx.tc | none => false) &&
    (s.sw.spilling.contains p.voq || decide (x.spillOn ≤ s.voqCells p.voq))

/-- Cells a frame is admitted for (R276). -/
def State.admitCells (s : State) (p : Pkt) : Nat := cellsOf (if p.tailIn 45 then p.ctx.len else s.maxFrameOf p)

/-- Does a lane of a host exit take a frame of k cells (R279, R398)? -/
def State.puntRoom (s : State) (p : Pkt) (k : Nat) : Bool :=
  !(s.puntDests p.ctx.stage (p.ctx.exit - 384)).isEmpty && decide (s.voqCells p.voq + k ≤ 1024)

/-- Admission to the fold (R276–R284): a frame is admitted whole or not at all. -/
def State.admitPkt (s : State) (id : Nat) : State :=
  match s.pkt id with
  | none => s
  | some p =>
    let x := p.ctx.exit
    let t := p.tile
    let k := p.ctx.stage
    let n := s.admitCells p
    if p.mcast && p.lk.tileMap % 256 == 0 then (s.injFate id p 0).erasePkt id
    else if !p.mcast && decide (x < 384) && !(s.lport x).linkUp then (s.countR279 p 0xDE).refuse id p 3
    else if !p.mcast && decide (x < 384) && (s.lport x).oper == 4 && p.ctx.tc != 7 then (s.stat x 27).refuse id p 1
    else if !p.mcast && decide (384 ≤ x ∧ x < 392) && !s.puntRoom p n then (s.countR279 p 0xDC).refuse id p 1
    else if s.spillBound p then s.spillFrame id p
    else
      let s1 := s.thresholdLoop t k p.ctx.tc
      let ch := s1.chargeFor p n
      if ch.refused = 0 then s1.place id p ch else (s1.countRefused p ch.refused).refuse id p 1

end Sys2Proof.Machine
end

