-- ==== Sys2Proof/Machine/TimeOps.lean ====
section
/-! DEFINITION. Network time: how it advances, slews and steps (R465–R470). -/
namespace Sys2Proof.Machine
open Sys2Proof

/-- The nominal ADDEND: 10/11 ns × 2^40, rounded (R466). -/
def addend : Nat := 999556025251

/-- ±500 ppm in parts in 10^12 (R466). -/
def freqLimit : Int := 500000000

/-- The slew frequency in force (R469): FREQ_BOUND toward the outstanding offset, reduced so that f + s stays within ±500 ppm. -/
def TimeSt.slewFreq (t : TimeSt) : Int :=
  if t.slew = 0 then 0
  else clampInt (t.freq + (if 0 < t.slew then (t.freqBound : Int) else -(t.freqBound : Int))) (-freqLimit) freqLimit - t.freq

/-- What the base frequency adds in one CCLK, in units of 2^-40 ns. -/
def TimeSt.baseStep (t : TimeSt) : Int := (addend : Int) + (addend : Int) * t.freq / 1000000000000

/-- What the slew adds in one CCLK. -/
def TimeSt.slewStep (t : TimeSt) : Int := (addend : Int) * t.slewFreq / 1000000000000

/-- Network time in units of 2^-40 ns. -/
def TimeSt.fine (t : TimeSt) : Int := ((t.sec * 1000000000 + t.ns) * 2 ^ 40 + t.frac : Nat)

/-- Set network time to a value in units of 2^-40 ns; seconds have 48 bits. -/
def TimeSt.setFine (t : TimeSt) (v : Int) : TimeSt :=
  let n := v.toNat
  { t with frac := n % 2 ^ 40, ns := (n / 2 ^ 40) % 1000000000, sec := (n / 2 ^ 40 / 1000000000) % 2 ^ 48 }

/-- Is the slew down to the remainder its last CCLK applies (R469)? -/
def TimeSt.slewLast (t : TimeSt) : Bool := decide (t.slew.natAbs ≤ t.slewStep.natAbs)

/-- One CCLK edge: network time advances by the effective ADDEND and, while a slew runs, by its part of the offset. The remainder of a
slew is applied by SLEW_END. -/
def TimeSt.cclkEdge (t : TimeSt) : TimeSt :=
  if t.slew = 0 || t.slewLast then t.setFine (t.fine + t.baseStep)
  else { (t.setFine (t.fine + t.baseStep + t.slewStep)) with slew := t.slew - t.slewStep }

/-- TIME_STEPPED's payload (R469): old and new time, the cause. -/
def steppedPayload (os on ns nn cause : Nat) : List Byte :=
  leBytes 6 os ++ leBytes 4 on ++ leBytes 6 ns ++ leBytes 4 nn ++ leBytes 1 cause ++ zeros 3

/-- A step sets network time in one CCLK and posts TIME_STEPPED; gates follow R319. -/
def State.stepTime (s : State) (v : Int) (cause : Nat) : State :=
  let t := s.time.setFine v
  (((s.onTime (fun x => x.setFine v)).post 0 Ev.timeStepped Lv.device 0
    (steppedPayload s.time.sec s.time.ns t.sec t.ns cause)).raiseIrq 90).gatesStepped

/-- The unit enters a state; source 90 is raised when it changes, TIME_LOCKED and TIME_HOLDOVER are posted (R467, R493). -/
def State.timeState (s : State) (st : Nat) : State :=
  if s.time.state = st then s
  else
    let s1 := (s.onTime (fun t => { t with state := st })).raiseIrq 90
    if st = 2 then s1.post 0 Ev.timeLocked Lv.device 0 []
    else if st = 3 then s1.post 0 Ev.timeHoldover Lv.device 0 (leBytes 4 (unsignedOf s.time.freq 32))
    else s1

/-- The mean of the servo frequencies kept (R468). -/
def meanFreq (l : List Int) : Int := if l.isEmpty then 0 else (l.foldl (fun a b => a + b) 0) / (l.length : Int)

/-! ### Timestamp rings (R473–R475) -/

def State.ptpPort (s : State) (l : Nat) : PtpPort := SMap.get PtpPort.reset l s.time.ptp
def State.onPtp (s : State) (l : Nat) (f : PtpPort → PtpPort) : State :=
  s.onTime (fun t => { t with ptp := SMap.upd PtpPort.reset l f t.ptp })

/-- Network time an amount of nanoseconds away, as seconds and nanoseconds. -/
def State.netAt (s : State) (delta : Int) : Nat × Nat :=
  let v := ((s.netLinear : Int) + delta).toNat
  (v / 1000000000 % 2 ^ 48, v % 1000000000)

/-- An entry joins a ring of 64; a full ring loses its oldest. -/
def ringPush (ring : List TsEntry) (e : TsEntry) : List TsEntry := (if 64 ≤ ring.length then ring.drop 1 else ring) ++ [e]

/-- Record an event message of an lport, received or transmitted. -/
def State.stamp (s : State) (l : Nat) (tx : Bool) (e : TsEntry) : State :=
  s.onPtp l (fun p =>
    if tx then { p with
      tx := ringPush p.tx { e with serial := p.txNext }, txNext := (p.txNext + 1) % 2 ^ 32,
      overwritten := p.overwritten + (if 64 ≤ p.tx.length then 1 else 0) }
    else { p with
      rx := ringPush p.rx { e with serial := p.rxNext }, rxNext := (p.rxNext + 1) % 2 ^ 32,
      overwritten := p.overwritten + (if 64 ≤ p.rx.length then 1 else 0) })

end Sys2Proof.Machine
end

