-- ==== Sys2Proof/Machine/MacOps.lean ====
section
/-! DEFINITION. Shared operations of the MACs (R45–R57, R473–R475): their figures, kinds of frame, tags, PTP event messages. -/
namespace Sys2Proof.Machine
open Sys2Proof

/-! ### Figures (R45) -/

/-- The transmit figure in nanoseconds of a lane rate and a number of lanes in use. -/
def txFigure (rate lanes : Nat) : Nat :=
  if rate = 0 then (if 8 ≤ lanes then 36 else if 4 ≤ lanes then 38 else if 2 ≤ lanes then 40 else 44)
  else if rate = 1 then (if 8 ≤ lanes then 30 else if 4 ≤ lanes then 32 else if 2 ≤ lanes then 34 else 38)
  else if 6 ≤ lanes then 26 else if 4 ≤ lanes then 28 else if 2 ≤ lanes then 30 else 32
/-- The receive figure. -/
def rxFigure (rate lanes : Nat) : Nat :=
  if rate = 0 then (if 8 ≤ lanes then 84 else if 4 ≤ lanes then 90 else if 2 ≤ lanes then 96 else 112)
  else if rate = 1 then (if 8 ≤ lanes then 64 else if 4 ≤ lanes then 72 else if 2 ≤ lanes then 80 else 88)
  else if 8 ≤ lanes then 58 else if 6 ≤ lanes then 60 else if 4 ≤ lanes then 62 else if 2 ≤ lanes then 66 else 74
def Lport.txFig (p : Lport) : Nat := txFigure p.rate p.lanesUsed
def Lport.rxFig (p : Lport) : Nat := rxFigure p.rate p.lanesUsed

/-! ### Frames (R46, R52) -/

def be16 (f : List Byte) (o : Nat) : Nat := beNat (sliceB f o 2)
def byteAt (f : List Byte) (o : Nat) : Nat := ((f[o]?).map (fun b => b.toNat)).getD 0
/-- The four bytes of a frame check sequence. -/
def fcsOf (data : List Byte) : List Byte := leBytes 4 (crc32 data)
/-- Does a frame's FCS fit its bytes? -/
def fcsGood (wire : List Byte) : Bool := wire.drop (wire.length - 4) == fcsOf (wire.take (wire.length - 4))
/-- 0 unicast, 1 multicast, 2 broadcast. -/
def destKind (f : List Byte) : Nat := if beNat (f.take 6) = 0xFFFFFFFFFFFF then 2 else if byteAt f 0 % 2 = 1 then 1 else 0
/-- The size counter of a length: 0 to 6 from RX_SIZE_64. -/
def sizeClass (n : Nat) : Nat :=
  if n ≤ 64 then 0 else if n ≤ 127 then 1 else if n ≤ 255 then 2 else if n ≤ 511 then 3 else if n ≤ 1023 then 4 else if n ≤ 1518 then 5 else 6
/-- The TPID that RX_TAG selects (R47). -/
def tpidOf (rxTag : Nat) : Nat := if rxTag = 1 then 0x8100 else if rxTag = 2 then 0x88A8 else 0

/-- MAC control: an 802.3x pause or a PFC frame. -/
def isPause (f : List Byte) : Bool := be16 f 12 == 0x8808 && (be16 f 14 == 0x0001 || be16 f 14 == 0x0101)
/-- A peer hello, and a frame with a peer tag (R55, R56). -/
def isHello (f : List Byte) : Bool := be16 f 12 == 0x88B5 && byteAt f 14 == 0
def hasPeerTag (f : List Byte) : Bool := be16 f 12 == 0x88B5 && byteAt f 14 / 16 == 1

/-! ### PTP event messages (R474) -/

/-- Where a PTP header stands, and the UDP header it follows, if any, over IPv4 or IPv6. -/
structure PtpAt where
  off : Nat
  udp : Option Nat
  v6 : Bool
  deriving DecidableEq, Repr

/-- The offset of a frame's EtherType behind up to two tags. -/
def typeAt (f : List Byte) : Nat :=
  let tag (o : Nat) : Bool := be16 f o == 0x8100 || be16 f o == 0x88A8
  if tag 12 then (if tag 16 then 20 else 16) else 12

/-- The event message of a frame: versionPTP major 2, messageType 0–3, in one of the three encapsulations. -/
def ptpFind (f : List Byte) : Option PtpAt :=
  let o := typeAt f + 2
  let e := be16 f (o - 2)
  let u4 := o + 4 * (byteAt f o % 16)
  let c : Option PtpAt :=
    if e = 0x88F7 then some { off := o, udp := none, v6 := false }
    else if e = 0x0800 ∧ byteAt f (o + 9) = 17 ∧ be16 f (u4 + 2) = 319 then some { off := u4 + 8, udp := some u4, v6 := false }
    else if e = 0x86DD ∧ byteAt f (o + 6) = 17 ∧ be16 f (o + 42) = 319 then some { off := o + 48, udp := some (o + 40), v6 := true }
    else none
  match c with
  | some p => if byteAt f p.off % 16 ≤ 3 ∧ byteAt f (p.off + 1) % 16 = 2 ∧ p.off + 34 ≤ f.length then some p else none
  | none => none

/-- The ring entry of an event message at a network time. -/
def ptpEntry (f : List Byte) (p : PtpAt) (tx oneStep : Bool) (at_ : Nat × Nat) : TsEntry :=
  { serial := 0, sec := at_.1, ns := at_.2, type := byteAt f p.off % 16 + 64 * flagNat oneStep + 128 * flagNat tx,
    domain := byteAt f (p.off + 4), seqid := be16 f (p.off + 30), portnum := be16 f (p.off + 28) }

/-- A received frame is timestamped where it is a recognised event message (R473, R475). -/
def State.stampRx (s : State) (l : Nat) (f : List Byte) : State :=
  if (s.ptpPort l).enabled then
    match ptpFind f with
    | some p => s.stamp l false (ptpEntry f p false false (s.netAt ((s.ptpPort l).rxDelay - ((s.lport l).rxFig : Int))))
    | none => s
  else s

/-! ### Peer links (R57) -/

/-- The histogram bin of a hop latency. -/
def hopBin (ns : Nat) : Nat := if ns < 64 then 0 else min 15 (Nat.log2 ns - 5)

end Sys2Proof.Machine
end

