-- ==== Sys2Proof/Machine/Operands.lean ====
section
/-! DEFINITION. The operands of Myelle commands: reading the fields of a payload, and whose command it is. -/
namespace Sys2Proof

/-- Payload length (PLEN, R385). -/
def Msg.plen (m : Msg) : Nat := m.payload.length
/-- Little-endian fields of a payload; a field past the end reads zero. -/
def Msg.u8 (m : Msg) (i : Nat) : Nat := fieldLE m.payload i 1
def Msg.u16 (m : Msg) (i : Nat) : Nat := fieldLE m.payload i 2
def Msg.u32 (m : Msg) (i : Nat) : Nat := fieldLE m.payload i 4
def Msg.u48 (m : Msg) (i : Nat) : Nat := fieldLE m.payload i 6
def Msg.u64 (m : Msg) (i : Nat) : Nat := fieldLE m.payload i 8
/-- A signed little-endian field of n bytes. -/
def Msg.int (m : Msg) (i n : Nat) : Int := signedOf (fieldLE m.payload i n) (8 * n)
/-- A reserved field is zero. -/
def Msg.zero (m : Msg) (i n : Nat) : Bool := zeroAt m.payload i n

/-- The records of a payload: `n` records of `w` bytes from offset `i`. -/
def recordsOf (bs : List Byte) (i w : Nat) : Nat → List (List Byte)
  | 0 => []
  | n + 1 => sliceB bs i w :: recordsOf bs (i + w) w n

/-- The payload split into records of `w` bytes from offset `i` to the end. -/
def Msg.records (m : Msg) (i w : Nat) : List (List Byte) := recordsOf m.payload i w ((m.payload.length - i) / w)

namespace Machine

/-- The mailbox a command's completion and events go to (R418): its own, or the mailbox of the ring's stage. -/
def State.mbOf (s : State) (m : Msg) : Nat :=
  match m.lane with
  | .mailbox r => r
  | .urgent r => r
  | .work p => (s.ring p).stage

/-- The stage a command acts for (R384, R400): that of its mailbox, or that of RING_CFG. -/
def State.stageOf (s : State) (m : Msg) : Nat :=
  match m.lane with
  | .mailbox r => stageOfMb r
  | .urgent r => stageOfMb r
  | .work p => (s.ring p).stage

/-- Does the lane name a mailbox or ring pair the device has (R6)? -/
def laneOk (l : Lane) : Bool :=
  match l with
  | .mailbox r => decide (r < 8)
  | .urgent r => decide (r < 8)
  | .work p => decide (p < 64)

def laneUrgent (l : Lane) : Bool := match l with | .urgent _ => true | _ => false
def laneRing (l : Lane) : Option Nat := match l with | .work p => some p | _ => none

/-- The largest payload of a lane (R385, R400). -/
def lanePlenMax (l : Lane) : Nat :=
  match l with | .mailbox _ => 16368 | .urgent _ => 4080 | .work _ => 65520

/-- Does the owner send it? MB0 and WORK rings of S0. -/
def State.isOwner (s : State) (m : Msg) : Bool :=
  match m.lane with
  | .mailbox r => r == 0
  | .urgent r => r == 0
  | .work p => (s.ring p).stage == 0

/-- Does the port belong to the stage (R7)? -/
def State.ownsPort (s : State) (k p : Nat) : Bool := decide (p < 48) && s.portStage p == k
/-- Does the lport belong to the stage? -/
def State.ownsLport (s : State) (k l : Nat) : Bool := decide (l < 384) && s.portStage (l / 8) == k

end Machine
end Sys2Proof
end

