-- ==== Sys2Proof/Machine/Chunks.lean ====
section
/-! DEFINITION. Chunked loads (R97, R417) and Yetuesh image headers (R94). -/
namespace Sys2Proof.Machine
open Sys2Proof

/-- What a chunk does: it is refused with a status, or the assembly goes on (`final`: it is complete). -/
inductive Chunk where
  | refused (st : Nat)
  | taken (a : Assembly)
  deriving DecidableEq, Repr

/-- Take a chunk (R97): OFFSET 0 starts a new assembly; any other must go on where the bytes received end, under the same TOTAL.
A final chunk must end at TOTAL, any other must not pass it. -/
def takeChunk (cur : Option Assembly) (m : Msg) : Chunk :=
  let offset := m.u32 0
  let total := m.u32 4
  let data := m.payload.drop 12
  let final := bitOf (m.u8 8) 0
  let base : Option (List Byte) :=
    if offset = 0 then some []
    else match cur with
      | some a => if a.final || a.bytes.length != offset || a.total != total then none else some a.bytes
      | none => none
  match base with
  | none => .refused St.badField
  | some got =>
    let all := got ++ data
    if final then (if all.length = total then .taken { total := total, bytes := all, final := true } else .refused St.badLength)
    else if total < all.length then .refused St.badLength
    else .taken { total := total, bytes := all, final := false }

/-- The checks of a chunk before its place in the assembly is judged: PLEN 12 to 12 + 16,356, FLAGS and reserved bytes. -/
def chunkChecks (m : Msg) : List (Bool × Nat) :=
  [(decide (m.plen < 12) || decide (12 + 16356 < m.plen), St.badLength),
   (decide (1 < m.u8 8) || !m.zero 9 3, St.badField)]

/-- The chunks of an image as a READ command returns them: OFFSET, TOTAL, FLAGS and DATA (R99). -/
def chunkOf (img : List Byte) (offset len : Nat) : List Byte :=
  let d := sliceB img offset len
  leBytes 4 offset ++ leBytes 4 img.length ++ leBytes 1 (flagNat (decide (img.length ≤ offset + d.length))) ++ zeros 3 ++ d

/-- The header of a Yetuesh image (R94): MAGIC, FORMAT, KIND, TOTAL_LEN, TARGET, the reserved bytes and the CRC-32C. -/
def yetueshHeaderOk (img : List Byte) (kind : Nat) : Bool :=
  decide (64 ≤ img.length) && fieldLE img 0 4 == 0x48535459 && fieldLE img 4 2 == 1 && fieldLE img 6 1 == kind &&
    fieldLE img 8 4 == img.length && fieldLE img 12 4 == 0x153600B1 && zeroAt img 56 4 &&
    fieldLE img 60 4 == crc32c (sliceB img 0 60 ++ img.drop 64)

/-- The sections of an image from an offset on: the first four bytes (TYPE and its two reserved bytes) and the body (R94); none when
they do not end exactly at the end of the image. -/
def sectionsFrom (img : List Byte) : Nat → Nat → Option (List (Nat × List Byte))
  | 0, at_ => if at_ = img.length then some [] else none
  | n + 1, at_ =>
    let len := fieldLE img (at_ + 4) 4
    if img.length < at_ + 8 + len then none
    else match sectionsFrom img n (at_ + 8 + len) with
      | some rest => some ((fieldLE img at_ 4, sliceB img (at_ + 8) len) :: rest)
      | none => none

/-- The length checks of R96. -/
def imageLengthOk (img : List Byte) (limit : Nat) : Bool :=
  fieldLE img 8 4 == img.length && decide (img.length ≤ limit) && (sectionsFrom img (fieldLE img 7 1) 64).isSome

/-- The sections of an image that ends where they end. -/
def sectionsOf (img : List Byte) : List (Nat × List Byte) := (sectionsFrom img (fieldLE img 7 1) 64).getD []

/-- The field checks of header and sections every kind shares (R96): listed types, each at most once, the required one there. -/
def imageFieldsOk (img : List Byte) (kind : Nat) (types : List Nat) (required : Nat) : Bool :=
  let ts := (sectionsOf img).map (fun e => e.1)
  yetueshHeaderOk img kind && ts.all (fun t => types.contains t) && decide ts.Nodup && ts.contains required

/-- LABEL, BUILD and CRC of an image. -/
def imageLabel (img : List Byte) : List Byte := sliceB img 24 32
def imageBuild (img : List Byte) : Nat := fieldLE img 16 8
def imageCrc (img : List Byte) : Nat := fieldLE img 60 4

/-- Bytes a chunk of an image returned by a READ command holds at most (R97). -/
def chunkMax : Nat := 16356

/-- A section's body by its type. -/
def sectionBody (l : List (Nat × List Byte)) (t : Nat) : Option (List Byte) := (l.find? (fun e => e.1 == t)).map (fun e => e.2)

end Sys2Proof.Machine
end

