-- ==== Sys2Proof/Machine/ParseOps.lean ====
section
/-! DEFINITION. Parse graphs (chapter 3): node words, validation of images, and the walk. -/
namespace Sys2Proof.Machine
open Sys2Proof

/-! ### Node words (R81, R82) -/

def ndFlags (n : Nat) : Nat := bitsOf n 632 8
def ndMarkEn (n : Nat) : Bool := bitOf n 631
def ndMarkId (n : Nat) : Nat := bitsOf n 628 3
def ndAdvFld (n : Nat) : Bool := bitOf n 627
def ndAdvBoff (n : Nat) : Nat := bitsOf n 617 10
def ndAdvW (n : Nat) : Nat := bitsOf n 614 3 + 1
def ndAdvSc (n : Nat) : Nat := bitsOf n 612 2
def ndAdvAdd (n : Nat) : Nat := bitsOf n 604 8
def ndSelMeta (n : Nat) : Bool := bitOf n 603
def ndSelBoff (n : Nat) : Nat := bitsOf n 593 10
def ndSelW (n : Nat) : Nat := bitsOf n 589 4 + 1
def ndSelMask (n : Nat) : Nat := bitsOf n 573 16
def ndNtrans (n : Nat) : Nat := bitsOf n 568 5
def ndDefault (n : Nat) : Nat := bitsOf n 558 10
def ndExt (n j : Nat) : Nat := bitsOf n (520 - 24 * j) 24
def ndTrans (n j : Nat) : Nat := bitsOf n (26 * j) 26
def exEn (e : Nat) : Bool := bitOf e 23
def exSlot (e : Nat) : Nat := bitsOf e 17 6
def exW (e : Nat) : Nat := bitsOf e 10 7 + 1
def exBoff (e : Nat) : Nat := bitsOf e 0 10
/-- The extracts a node uses, in index order. -/
def ndExts (n : Nat) : List Nat := ((range 0 4).map (ndExt n)).filter exEn

/-! ### Validation (R95, R96) -/

/-- A NEXT code a graph of `count` nodes may hold. -/
def nextOk (count nx : Nat) : Bool := if nx < 0x200 then decide (nx < count) else decide (nx < 0x2F0)

/-- A node word passes the field checks. -/
def nodeOk (count n : Nat) : Bool :=
  bitsOf n 544 14 == 0 && bitsOf n 416 32 == 0 && decide (ndNtrans n ≤ 16) && nextOk count (ndDefault n) &&
    (range 0 (ndNtrans n)).all (fun j =>
      let v := bitsOf (ndTrans n j) 10 16
      nextOk count (bitsOf (ndTrans n j) 0 10) && v &&& ndSelMask n == v && decide (v < 2 ^ ndSelW n)) &&
    (ndExts n).all (fun e => decide (exSlot e + (exW e + 31) / 32 ≤ 64)) &&
    (!ndSelMeta n || decide (ndSelBoff n + ndSelW n ≤ 128))

/-- The node words of a NODES section. -/
def sectionNodes (b : List Byte) : List Nat := (recordsOf b 16 80 (fieldLE b 0 2)).map leNat

/-- Counts and entry nodes of a NODES section are in range. -/
def nodesHeadOk (b : List Byte) : Bool :=
  let n := fieldLE b 0 2
  decide (1 ≤ n) && decide (n ≤ 512) && b.length == 16 + 80 * n && decide (fieldLE b 2 2 < n) && decide (fieldLE b 4 2 < n) &&
    decide (fieldLE b 6 2 < n) && decide (1 ≤ fieldLE b 8 1) && decide (fieldLE b 8 1 ≤ 32) && zeroAt b 9 7

/-- What is wrong with a graph image: the status and the first failing node, 0xFFFF where there is none. -/
def graphBad (img : List Byte) : Option (Nat × Nat) :=
  if !imageLengthOk img 131072 then some (4, 0xFFFF)
  else if !imageFieldsOk img 1 [1, 2, 3] 1 then some (5, 0xFFFF)
  else
    let secs := sectionsOf img
    let b := (sectionBody secs 1).getD []
    if !nodesHeadOk b || (match sectionBody secs 2 with | some p => p.length != 384 | none => false) ||
        (match sectionBody secs 3 with | some p => decide (65536 < p.length) | none => false) then some (5, 0xFFFF)
    else (findIdxVal (fun n => !nodeOk (fieldLE b 0 2) n) (sectionNodes b) 0).map (fun x => (5, x.1))

/-- The graph of a valid image, not yet placed. -/
def graphOf (img : List Byte) : Graph :=
  let b := (sectionBody (sectionsOf img) 1).getD []
  { image := img, nodes := sectionNodes b, entryLport := fieldLE b 2 2, entryRecirc := fieldLE b 4 2, entryHost := fieldLE b 6 2,
    maxNodes := fieldLE b 8 1, profiles := (sectionBody (sectionsOf img) 2).getD [], words := [] }

/-! ### The node store (R77) -/

/-- Words of a tile's node store in use. -/
def State.nodeWords (s : State) (t : Nat) : List Nat := (s.tab.graphs.map (fun e => (e.2.all.map (fun g => SMap.get [] t g.words)).flatten)).flatten
def State.nodesFree (s : State) (t : Nat) : Nat := 1024 - (s.nodeWords t).length
/-- Does a graph of n nodes fit in every tile of a stage? -/
def State.graphFits (s : State) (k n : Nat) : Bool := (s.stageTiles k).all (fun t => decide (n ≤ s.nodesFree t))
/-- Place a graph in the lowest free words of every tile of the stage (log entry 37). -/
def State.placeGraph (s : State) (k : Nat) (g : Graph) : Graph :=
  { g with words := (s.stageTiles k).map (fun t => (t, ((range 0 1024).filter (fun w => !(s.nodeWords t).contains w)).take g.nodes.length)) }
/-- The words of a graph are written in every tile that holds it: none of them differs there. -/
def State.writeNodes (s : State) (words : SMap (List Nat)) : State :=
  s.onTab (fun a => { a with nodeTile := SMap.keep (fun x _ => !((SMap.get [] (x / 1024) words).contains (x % 1024))) a.nodeTile,
                             nodeBad := a.nodeBad.filter (fun x => !((SMap.get [] (x / 1024) words).contains (x % 1024))) })
/-- The word of a node in a tile. -/
def Graph.wordOf (g : Graph) (t n : Nat) : Nat := ((SMap.get [] t g.words)[n]?).getD 0
/-- The content of a node as a tile's store holds it. -/
def State.nodeAt (s : State) (g : Graph) (t n : Nat) : Nat :=
  match SMap.find (t * 1024 + g.wordOf t n) s.tab.nodeTile with | some x => x | none => (g.nodes[n]?).getD 0

/-! ### The walk (R79–R85, R89) -/

/-- A field of `w` bits at bit offset `o` of a byte list, network order; bits past the end read zero. -/
def netBits (bs : List Byte) (o w : Nat) : Nat :=
  let n := (o % 8 + w + 7) / 8
  let sl := sliceB bs (o / 8) n
  beNat (sl ++ zeros (n - sl.length)) / 2 ^ (8 * n - o % 8 - w) % 2 ^ w

/-- A field of the 128-bit metadata input (R88). -/
def metaBits (meta_ o w : Nat) : Nat := meta_ / 2 ^ (128 - o - w) % 2 ^ w

/-- Bits past HP that a node reads from the frame: one past the last, 0 for none. -/
def ndReach (n : Nat) : Nat :=
  let sel := if ndNtrans n = 0 || ndSelMeta n then 0 else ndSelBoff n + ndSelW n
  let adv := if ndAdvFld n then ndAdvBoff n + ndAdvW n else 0
  (ndExts n).foldl (fun a e => max a (exBoff e + exW e)) (max sel adv)

/-- Write an extract's slots: the field right-aligned across them. -/
def putExtract (frame : List Byte) (hp : Nat) (slots : SMap Nat) (e : Nat) : SMap Nat :=
  let n := (exW e + 31) / 32
  let v := netBits frame (8 * hp + exBoff e) (exW e)
  (range 0 n).foldl (fun m j => SMap.insert (exSlot e + j) (v / 2 ^ (32 * (n - 1 - j)) % 2 ^ 32) m) slots

/-- What a walk carries: HP, nodes entered with their HP, extracts made, nodes processed, one past the last byte read, and the result. -/
structure Walk where
  hp : Nat
  seen : List (Nat × Nat)
  exts : Nat
  processed : Nat
  reach : Nat
  res : ParseRes
  deriving DecidableEq, Repr

def Walk.start : Walk := { hp := 0, seen := [], exts := 0, processed := 0, reach := 0, res := ParseRes.zero }

/-- The walk ends with an exception code. -/
def Walk.raise (w : Walk) (code : Nat) : Walk := { w with res := { w.res with px := true, pxCode := code } }

/-- NEXT of a node. -/
def ndNext (frame : List Byte) (hp meta_ n : Nat) : Nat :=
  let raw := if ndSelMeta n then metaBits meta_ (ndSelBoff n) (ndSelW n) else netBits frame (8 * hp + ndSelBoff n) (ndSelW n)
  match ((range 0 (ndNtrans n)).map (ndTrans n)).find? (fun t => bitsOf t 10 16 == raw &&& ndSelMask n) with
  | some t => bitsOf t 0 10
  | none => ndDefault n

/-- The advance of a node. -/
def ndAdvance (frame : List Byte) (hp n : Nat) : Nat :=
  if ndAdvFld n then netBits frame (8 * hp + ndAdvBoff n) (ndAdvW n) * 2 ^ ndAdvSc n + ndAdvAdd n else ndAdvAdd n

/-- A node completes: extracts, mark, flags, advance. -/
def Walk.complete (w : Walk) (frame : List Byte) (idx n : Nat) : Walk :=
  let slots := (ndExts n).foldl (putExtract frame w.hp) w.res.slots
  let valid := (ndExts n).foldl (fun v e => (range (exSlot e) ((exW e + 31) / 32)).foldl (fun v j => setBit v j true) v) w.res.slotValid
  { hp := w.hp + ndAdvance frame w.hp n, seen := w.seen, exts := w.exts + (ndExts n).length, processed := w.processed,
    reach := max w.reach (if ndReach n = 0 then 0 else w.hp + (ndReach n + 7) / 8),
    res := { w.res with
             flags := w.res.flags ||| ndFlags n, nodes := w.res.nodes + 1, lastNode := idx,
             marked := (if ndMarkEn n then setBit w.res.marked (ndMarkId n) true else w.res.marked),
             hdrOff := (if ndMarkEn n then setAt w.res.hdrOff (ndMarkId n) w.hp else w.res.hdrOff), slotValid := valid, slots := slots } }

/-- The walk from a node on (R89's checks in their order); `read` gives a node's word, none for a damaged one. -/
def walkFrom (read : Nat → Option Nat) (frame : List Byte) (len meta_ maxNodes : Nat) : Nat → Nat → Walk → Walk
  | 0, _, w => w.raise 0xF4
  | fuel + 1, idx, w =>
    if maxNodes ≤ w.processed then w.raise 0xF4
    else if w.seen.contains (idx, w.hp) then w.raise 0xF3
    else
      let w1 := { w with seen := (idx, w.hp) :: w.seen, processed := w.processed + 1 }
      match read idx with
      | none => w1.raise 0xF6
      | some n =>
        let last := w.hp + (ndReach n + 7) / 8
        if (ndReach n != 0 && decide (256 < last)) || (ndMarkEn n && decide (256 ≤ w.hp)) then w1.raise 0xF1
        else if ndReach n != 0 && decide (len < last + 4) then w1.raise 0xF2
        else if 64 < w.exts + (ndExts n).length then w1.raise 0xF5
        else
          let w2 := w1.complete frame idx n
          let nx := ndNext frame w.hp meta_ n
          if nx < 0x200 then walkFrom read frame len meta_ maxNodes fuel nx w2
          else if nx = 0x200 then w2 else w2.raise (nx - 0x200)

end Sys2Proof.Machine
end

