-- ==== Sys2Proof/Machine/Arrive.lean ====
section
/-! DEFINITION. Arrival (R21, R22, R26, R37, R46–R51, R55–R57, R80, R92): frames and pause frames received, placement in pipes, the parse
walk, paddock waits; XOFF and XON sent, the pause timers. -/
namespace Sys2Proof.Machine
open Sys2Proof

/-! ### Frames received -/

/-- The statistics of a good frame (R52): octets on the wire, kind, size without a peer tag. -/
def State.countRx (s : State) (l : Nat) (wire frame : List Byte) : State :=
  ((((s.statN l 0 wire.length).stat l 1).stat l (2 + destKind frame)).stat l (12 + sizeClass frame.length))

/-- The peer tag of a good frame (R57): the hop latency goes to the histogram, the EPOCH to the status. -/
def State.peerTag (s : State) (l tag : Nat) : State :=
  let hop := subMod (s.netLinear % 2 ^ 32) (tag % 2 ^ 32) (2 ^ 32)
  s.onLport l (fun x => { x with epoch := bitsOf tag 40 4, hist := SMap.upd 0 (hopBin hop) (fun n => n + 1) x.hist })

/-- The default tag of RX_TAG in a frame that has none of that kind (R47). -/
def defaultTag (cfg : Nat) (f : List Byte) : Option (List Byte) :=
  let t := tpidOf (cfgRxTag cfg)
  if t = 0 ∨ be16 f 12 = t then none
  else some (f.take 12 ++ beBytes 2 t ++ beBytes 2 (cfgDefPcp cfg * 2 ^ 13 + cfgDefVid cfg) ++ f.drop 12)

/-- PCLK by which n bytes of a frame of an lport are in, counted from its first byte (R31). -/
def State.arriveAt (s : State) (l n : Nat) : Nat :=
  let g := (s.lport l).gbps
  if g = 0 then 0 else 8 * n * 66 / (g * pclkTicks s)

/-- The port FIFO of an lport stands at its high mark (R51): XOFF for every enabled class, or an 802.3x pause frame. -/
def State.fifoXoff (s : State) (l : Nat) : State :=
  let c := (s.lport l).conf
  let s1 := s.onSw (fun w => { w with fifoHigh := if w.fifoHigh.contains l then w.fifoHigh else w.fifoHigh ++ [l] })
  if cfgFc c = 2 then forEach ((range 0 8).filter (fun i => (cfgPfcEn c).testBit i)) (fun i s => s.sendXoff l i) s1
  else if cfgFc c = 1 then
    (if SMap.has (4096 + l) s.sw.xoff then s1
     else (s1.stat l 25).onSw (fun w => { w with xoff := SMap.insert (4096 + l) s.now w.xoff }))
  else s1

/-- A frame as the tile receives it. -/
def State.newPkt (s : State) (l : Nat) (frame : List Byte) (bad tagIns : Bool) (peer : Option Nat) (wireLen : Nat) : Pkt :=
  { Pkt.zero with
    tile := l / 48, src := l % 48, frame := frame, bad := bad, tailAt := s.arriveAt l wireLen, peer := peer, tagIns := tagIns,
    ctx := { Ctx.zero with stage := s.portStage (l / 8), inLport := l, len := frame.length, tsIn := s.netLinear % 2 ^ 24 } }

/-- A frame that passed the length checks: counted, stamped, tagged, and put into the port FIFO or dropped (R37). -/
def State.takeFrame (s : State) (l : Nat) (wire frame : List Byte) (peer : Option Nat) (bad full high : Bool) : State :=
  let cfg := (s.lport l).conf
  let s1 := if bad then s.stat l 5 else
    let a := s.countRx l wire frame
    (match peer with | some tag => a.peerTag l tag | none => a).stampRx l frame
  let tagged := defaultTag cfg frame
  let s2 := if tagged.isSome then s1.stat l 19 else s1
  let f := tagged.getD frame
  let s3 := if full then (s2.stat l 10).bump (l / 48) (s.portStage (l / 8)) 0x12
    else s2.addPkt (s.newPkt l f bad tagged.isSome peer wire.length)
  if high then s3.fifoXoff l else s3

/-- FRAME_RECEIVE (R37, R46, R47, R51, R57): a frame, FCS included, reaches the MAC of an lport whose link is up; `rxErr` says that it was
truncated or received in error, `full` and `high` how its port FIFO stands. Pause frames and peer hellos are consumed by
PAUSE_FRAME_RECEIVE and PEER_HELLO_RECEIVE. -/
def execFrameReceive (l : Nat) (wire : List Byte) (rxErr full high : Bool) (s : State) : Out :=
  onUnit (decide (l < 384))
    (let p := s.lport l
     if !p.linkUp || isPause wire || (p.peer && isHello wire) then s
     else
       let tagged := p.peer && hasPeerTag wire
       let frame := if tagged then wire.take 12 ++ wire.drop 20 else wire
       if frame.length < 64 then s.stat l 6
       else if cfgMaxFrame p.conf < frame.length then s.stat l 7
       else s.takeFrame l wire frame (if tagged then some (beNat (sliceB wire 14 6)) else none) (rxErr || !fcsGood wire) full high)

/-! ### Placement (R21, R22, R36) -/

def State.rotStart (s : State) (t : Nat) : Nat := SMap.get 0 t s.sw.rotation
/-- Pipes of a tile that a packet may not enter: isolated ones. -/
def State.pipeOut (s : State) (t i : Nat) : Bool := s.fault.isolated.any (fun u => match u with | .pipe t2 i2 => t2 == t && i2 == i | _ => false)
/-- The first pipe from a pointer on that takes a packet in this PCLK. -/
def State.freePipe (s : State) (t held ptr : Nat) : Option Nat :=
  ((range 0 16).map (fun j => (ptr + j) % 16)).find? (fun i =>
    !(SMap.get 0 t s.sw.entered).testBit i && !held.testBit i && !s.pipeOut t i)

/-- A source places its oldest waiting packets until none waits or no pipe is free. -/
def State.placeSource (s : State) (t held src : Nat) : Nat → State
  | 0 => s
  | fuel + 1 =>
    match (s.pktsWhere (fun p => p.phase == .fifo && p.tile == t && p.src == src)).head?, s.freePipe t held (s.source t src).pointer with
    | some id, some i =>
      let seq := (s.source t src).nextSeq
      let s1 := (s.onSource t src (fun x => { x with pointer := (i + 1) % 16, nextSeq := (seq + 1) % 4096 })).onSw (fun w => { w with
        entered := SMap.upd 0 t (fun m => setBit m i true) w.entered })
      ((s1.onPkt id (fun p => { p with phase := .placed, pipe := i, ctx := { p.ctx with seq := seq } })).bump t 0 0x01).placeSource t held src fuel
    | _, _ => s

/-- A port FIFO that has emptied stands above its high mark no more (log entry 59). -/
def State.settleFifo (s : State) (t : Nat) : State :=
  s.onSw (fun w => { w with fifoHigh := w.fifoHigh.filter (fun l =>
    l / 48 != t || w.pkts.any (fun e => e.2.phase == .fifo && e.2.tile == t && e.2.src == l % 48)) })

/-- PIPE_PLACEMENT: the sources of a tile are served in their rotation; `held` names pipes that take no packet in this PCLK (R538). -/
def execPipePlacement (t held : Nat) (s : State) : Out :=
  onUnit (decide (t < 8))
    ((forEach ((range 0 50).map (fun j => (s.rotStart t + j) % 50)) (fun src s => s.placeSource t held src 16) s).settleFifo t)

/-! ### The parse walk (R26, R80, R88, R92, R93) -/

/-- The 128-bit metadata input. -/
def Pkt.meta_ (p : Pkt) (g : Graph) : Nat :=
  let first := p.passes == 0
  let prof := if p.ctx.inLport < 384 then ((g.profiles[p.ctx.inLport]?).map (fun b => b.toNat)).getD 0 else 0
  p.ctx.stage % 8 * 2 ^ 125 + (if p.src = 48 then 1 else if p.src = 49 then 2 else 0) * 2 ^ 123 + p.passes % 4 * 2 ^ 121 +
    p.ctx.inLport % 512 * 2 ^ 112 + flagNat (first && p.peer.isSome) * 2 ^ 111 + flagNat (first && p.tagIns) * 2 ^ 110 +
    (if first then p.peer.getD 0 % 2 ^ 48 else 0) * 2 ^ 48 + prof % 256 * 2 ^ 40

/-- The graph that parses a packet in its tile (R78). -/
def State.graphFor (s : State) (p : Pkt) : Option Graph :=
  match (s.graphs p.ctx.stage).serving (s.isOld p.ctx.stage p.ctx.ver) with
  | some g => if SMap.has p.tile g.words then some g else none
  | none => none

/-- The walk of a packet; `ue` is one past the node whose word is found uncorrectable, 0 for none. -/
def State.walkGraph (s : State) (p : Pkt) (g : Graph) (ue : Nat) : Walk :=
  walkFrom (fun n => if n + 1 = ue || s.tab.nodeBad.contains (p.tile * 1024 + g.wordOf p.tile n) then none else some (s.nodeAt g p.tile n))
    p.frame p.ctx.len (p.meta_ g) g.maxNodes 40
    (if p.src = 48 then g.entryRecirc else if p.src = 49 then g.entryHost else g.entryLport) Walk.start

/-- PCLK by which the bytes a walk reads are in (R92). -/
def State.reachAt (s : State) (p : Pkt) (n : Nat) : Nat :=
  if p.verdict.isSome || n == 0 then 0
  else s.arriveAt p.ctx.inLport (n + (if p.peer.isSome then 8 else 0) - (if p.tagIns then 4 else 0))

/-- The exception counter of a code (R100). -/
def pxEvent (code : Nat) : Nat := if code < 0xF0 then 0x20 else 0x20 + (code - 0xF0)

/-- A damaged node word is remembered until it is rewritten, and reported (R93). -/
def State.nodeDamage (s : State) (p : Pkt) (g : Graph) (n : Nat) : State :=
  let key := p.tile * 1024 + g.wordOf p.tile n
  (s.onTab (fun a => { a with nodeBad := if a.nodeBad.contains key then a.nodeBad else a.nodeBad ++ [key] })).report
    (Report.of Fc.nodeUe Lv.tile p.tile p.ctx.stage (1 * 1024 + 16 * p.tile + p.pipe) 0 (g.wordOf p.tile n) n)

/-- n corrected node words (R93, R100). -/
def State.nodeCorr (s : State) (p : Pkt) : Nat → State
  | 0 => s
  | n + 1 => ((s.bump p.tile p.ctx.stage 0x2A).report
      (Report.of Fc.sramCe Lv.tile p.tile p.ctx.stage (1 * 1024 + 16 * p.tile + p.pipe) 0 0 0)).nodeCorr p n

/-- The result of a walk: the exception, the adder, the counters. -/
def State.parsed (s : State) (id : Nat) (p : Pkt) (w : Walk) : State :=
  let t := p.tile
  let k := p.ctx.stage
  let nodes := 15 + (w.processed - 16 + 1) / 2
  let wait := (s.reachAt p w.reach + 1) - nodes
  let s1 := if w.res.px then s.bump t k (pxEvent w.res.pxCode) else s
  let s2 := if 16 < w.processed then s1.bump t k 0x28 else s1
  let wait1 := if w.reach = 0 then 0 else wait
  ((s2.bumpN t k 0x29 wait1).delayPkt id ((nodes - 15) + wait1)).onPkt id (fun q => { q with
    phase := .parsed, pr := w.res,
    ctx := { q.ctx with ver := p.ctx.ver, px := w.res.px, pxCode := w.res.pxCode } })

/-- Is a packet a frame injected without LOOKUP (R397)? -/
def Pkt.direct (p : Pkt) : Bool := match p.inj with | some j => !j.lookup | none => false

/-- A packet as it is parsed: on its first pass it takes its stage's current version (R176). -/
def State.versioned (s : State) (q : Pkt) : Pkt :=
  { q with ctx := { q.ctx with ver := if q.passes = 0 then (s.ver q.ctx.stage).cur else q.ctx.ver } }

/-- PARSE_WALK (R26, R78–R92): the packet takes its version and walks its stage's graph; `corr` corrected node words are met, and `ue` is
one past the node found uncorrectable. A frame injected without LOOKUP takes its version only. -/
def execParseWalk (id corr ue : Nat) (s : State) : Out :=
  .next (match s.pkt id with
  | none => s
  | some q =>
    if q.phase != .placed then s
    else
      let p := s.versioned q
      if p.direct then
        s.onPkt id (fun x => { x with phase := .parsed, ctx := { x.ctx with ver := p.ctx.ver } })
      else match s.graphFor p with
        | none => s.parsed id p (Walk.start.raise 0xF7)
        | some g =>
          let w := s.walkGraph p g ue
          let s1 := (s.nodeCorr p corr).parsed id p w
          if w.res.pxCode = 0xF6 then s1.nodeDamage p g ((w.seen.head?.map (fun x => x.1)).getD 0) else s1)

/-- PADDOCK_READ (R104): a lookup read of a packet waited n PCLK for a port; every later stage waits with it. -/
def execPaddockRead (id n : Nat) (s : State) : Out :=
  .next (match s.pkt id with
  | none => s
  | some p =>
    if p.phase == .parsed || p.phase == .lookedUp || p.phase == .matched then
      (s.bumpN p.tile p.ctx.stage 0x30 n).delayPkt id n
    else s)

/-! ### XOFF and XON (R51, R278) -/

/-- Ticks of a number of pause quanta at an lport's rate (R50). -/
def State.quantaTicks (s : State) (l q : Nat) : Nat := if (s.lport l).gbps = 0 then 0 else q * 512 * 66 / (s.lport l).gbps
/-- Must a class of an lport (8: an 802.3x pause) stay off? -/
def State.xoffHolds (s : State) (l c : Nat) : Bool :=
  s.sw.fifoHigh.contains l ||
    (decide (c < 8) && (s.headUsed l c != 0 || decide (s.sharedFree (s.portStage (l / 8)) (l / 48) < 16 * (s.eg l).xonGap)))
def xoffKey (l c : Nat) : Nat := if c = 8 then 4096 + l else l * 8 + c

/-- XOFF_REFRESH: half the quanta time of the last XOFF has passed and its condition holds. -/
def execXoffRefresh (l c : Nat) (s : State) : Out :=
  onUnit (decide (l < 384) && decide (c ≤ 8))
    (match SMap.find (xoffKey l c) s.sw.xoff with
     | none => s
     | some at_ => s.when (s.xoffHolds l c && decide (at_ + s.quantaTicks l (s.setting 0x38 l) / 2 ≤ s.now)) (fun s =>
         (s.stat l (if c = 8 then 25 else 40 + c)).onSw (fun w => { w with xoff := SMap.insert (xoffKey l c) s.now w.xoff })))

/-- XON_SEND: the condition of an XOFF has cleared; XON, with quanta 0, is sent once. -/
def execXonSend (l c : Nat) (s : State) : Out :=
  onUnit (decide (l < 384) && decide (c ≤ 8))
    (s.when (SMap.has (xoffKey l c) s.sw.xoff && !s.xoffHolds l c) (fun s =>
      (if c = 8 then s.stat l 25 else s).onSw (fun w => { w with xoff := SMap.erase (xoffKey l c) w.xoff })))

/-! ### Pause by the partner (R49, R50, R287) -/

def State.pauseOf (s : State) (l c : Nat) : Option Pause := SMap.find (l * 8 + c) s.sw.pauses
def State.setPause (s : State) (l c : Nat) (p : Pause) : State := s.onSw (fun w => { w with pauses := SMap.insert (l * 8 + c) p w.pauses })
/-- PAUSE_WATCHDOG's payload: lport, class, 1 start or 0 end. -/
def watchdogPayload (l c start : Nat) : List Byte := leBytes 2 l ++ leBytes 1 c ++ leBytes 1 start
/-- A class resumes; watchdog discard ends with it. -/
def State.endPause (s : State) (l c : Nat) : State :=
  match s.pauseOf l c with
  | none => s
  | some p =>
    let s1 := s.onSw (fun w => { w with pauses := SMap.erase (l * 8 + c) w.pauses })
    if p.watchdog then s1.post (s.portStage (l / 8)) Ev.pauseWatchdog Lv.port l (watchdogPayload l c 0) else s1
/-- A class is stopped for a number of quanta, or resumed by none. -/
def State.pauseClass (s : State) (l c quanta : Nat) : State :=
  if quanta = 0 then s.endPause l c
  else match s.pauseOf l c with
    | some p => s.setPause l c { p with until_ := s.now + s.quantaTicks l quanta }
    | none => s.setPause l c { until_ := s.now + s.quantaTicks l quanta, since := s.now, watchdog := false }

/-- PAUSE_FRAME_RECEIVE: an 802.3x pause frame (its quanta first in the list), or a PFC frame with its enable vector and eight quanta; the
MAC consumes it, and it acts where the sub-port runs that flow control. -/
def execPauseFrameReceive (l : Nat) (pfc : Bool) (enabled : Nat) (quanta : List Nat) (s : State) : Out :=
  onUnit (decide (l < 384))
    (let cfg := (s.lport l).conf
     if !(s.lport l).linkUp then s
     else if pfc then
       forEach ((range 0 8).filter (fun c => enabled.testBit c)) (fun c s =>
         let q := (quanta[c]?).getD 0 % 65536
         let s1 := if q = 0 then s else s.stat l (32 + c)
         if cfgFc cfg = 2 ∧ (cfgPfcEn cfg).testBit c then s1.pauseClass l c q else s1) s
     else
       let s1 := s.stat l 8
       if cfgFc cfg = 1 then forEach (range 0 8) (fun c s => s.pauseClass l c (quanta.headD 0 % 65536)) s1 else s1)

/-- PAUSE_EXPIRY: the pause time of a class has passed. -/
def execPauseExpiry (l c : Nat) (s : State) : Out :=
  onUnit (decide (l < 384) && decide (c < 8))
    (match s.pauseOf l c with
     | some p => s.when (decide (p.until_ ≤ s.now)) (fun s => s.endPause l c)
     | none => s)

/-- A frame of a class entering watchdog discard, in staging or a dresser, is discarded and counted; one on its way there will be. -/
def State.watchdogPkt (s : State) (id : Nat) : State :=
  match s.pkt id with
  | none => s
  | some p =>
    match p.phase with
    | .crossed => (s.arr 1 p.egress p.ctx.exit p.ctx.tc 1).discard id p false
    | .dresser => (s.arr 1 p.egress p.ctx.exit p.ctx.tc 1).discard id p false
    | .edited => (s.arr 1 p.egress p.ctx.exit p.ctx.tc 1).discard id p false
    | .granted => s.onPkt id (fun q => { q with cut := true })
    | _ => s

/-- PAUSE_WATCHDOG: a class has been paused without interruption for PAUSE_WD. -/
def execPauseWatchdog (l c : Nat) (s : State) : Out :=
  onUnit (decide (l < 384) && decide (c < 8))
    (match s.pauseOf l c with
     | some p => s.when (!p.watchdog && decide (p.since + tkMs (s.eg l).pauseWd ≤ s.now)) (fun s =>
         (forEach (s.pktsWhere (fun q => q.ctx.exit == l && q.ctx.tc == c && !q.mcast)) (fun id s => s.watchdogPkt id)
           (s.setPause l c { p with watchdog := true })).post (s.portStage (l / 8)) Ev.pauseWatchdog Lv.port l (watchdogPayload l c 1))
     | none => s)

end Sys2Proof.Machine
end

