-- ==== Sys2Proof/Machine/Judge.lean ====
section
/-! DEFINITION. Judging and answering Myelle commands (R414–R427): classes, mode sets, the order of the checks, responses,
the journal's ACCEPT and COMPLETE (R371), and accepted commands (R418, R419). -/
namespace Sys2Proof.Machine
open Sys2Proof

/-- Command classes (R422). -/
inductive Cls where
  | owner
  | stage
  | read
  | board
  | identity
  | test
  deriving DecidableEq, Repr

/-- Mode sets (R424, and the sets written out in R427). -/
inductive ModeSet where
  | all
  | cfg
  | ops
  | h
  | hrl
  | reh
  | runReh
  | houseRun
  deriving DecidableEq, Repr

/-- Is a mode in a mode set (R424)? -/
def ModeSet.admits (ms : ModeSet) (mode : Nat) : Bool :=
  match ms with
  | .all => decide (2 ≤ mode)
  | .cfg => mode == 2 || mode == 3 || mode == 4 || mode == 6
  | .ops => mode == 2 || mode == 3 || mode == 4 || mode == 6 || mode == 7
  | .h => mode == 2
  | .hrl => mode == 2 || mode == 3 || mode == 4
  | .reh => mode == 6
  | .runReh => mode == 3 || mode == 6
  | .houseRun => mode == 2 || mode == 3

/-- A row of the opcode catalogue (R427). `async` and `either` are the marks A and E; `rs` admits REPLAY_SAFE; `urgent` is U. -/
structure Op where
  code : Nat
  cls : Cls
  modes : ModeSet
  async : Bool
  either : Bool
  rs : Bool
  urgent : Bool
  deriving DecidableEq, Repr

/-- Catalogue rows, written shortly: synchronous without marks; the marks are added by the functions below. -/
def Op.plain (code : Nat) (cls : Cls) (modes : ModeSet) : Op :=
  { code := code, cls := cls, modes := modes, async := false, either := false, rs := false, urgent := false }
def Op.withA (o : Op) : Op := { o with async := true }
def Op.withE (o : Op) : Op := { o with either := true }
def Op.withRS (o : Op) : Op := { o with rs := true }
def Op.withU (o : Op) : Op := { o with urgent := true }

/-- Does a class let in an ordinary or urgent mailbox (R422)? MB6 takes class I and SYS.PING, MB5 R and B, MB7 T and R. -/
def Cls.admitsMb (c : Cls) (code r : Nat) : Bool :=
  match c with
  | .owner => r == 0
  | .stage => decide (r ≤ 4)
  | .read => decide (r ≤ 5) || r == 7 || (r == 6 && code == 0x0101)
  | .board => r == 0 || r == 5
  | .identity => r == 0 || r == 6
  | .test => r == 0 || r == 7

/-- Does a class let in a WORK ring of a stage (R422)? -/
def Cls.admitsRing (c : Cls) (stage : Nat) : Bool :=
  match c with
  | .owner => stage == 0
  | .stage => true
  | .read => true
  | _ => false

/-- Urgent commands root firmware serves in INTERVAL (R423): FAULT.STATUS, FAULT.ACK, IDENTITY.CHAIN and IDENTITY.QUOTE. -/
def urgentInInterval (code : Nat) : Bool := code == 0x1001 || code == 0x1002 || code == 0x1501 || code == 0x1502

/-- Step 3 of R414: the class admits the mailbox or ring, and the lane admits the opcode (R422, R423). -/
def admits (o : Op) (m : Msg) (s : State) : Bool :=
  match m.lane with
  | .mailbox r => o.cls.admitsMb o.code r
  | .urgent r => o.cls.admitsMb o.code r && o.urgent && (o.code != 0x0201 || m.u8 0 == Md.safe)
  | .work p => o.cls.admitsRing (s.ring p).stage

/-- REPLAY_SAFE is admitted: the row's mark, and for COUNTER.READ and COUNTER.LPORT only without clearing (R420). -/
def replayAdmitted (o : Op) (m : Msg) : Bool :=
  o.rs && (o.code != 0x1301 || !bitOf (m.u8 6) 0) && (o.code != 0x1305 || m.u8 2 != 1)

/-- The first check that fails gives the status (R414). -/
def firstRefusal : List (Bool × Nat) → Option Nat
  | [] => none
  | (c, st) :: l => if c then some st else firstRefusal l

/-- Steps 3, 4 and 5 of R414. -/
def judge (o : Op) (m : Msg) (s : State) : Option Nat :=
  firstRefusal [
    (!admits o m s, St.notPermitted),
    (m.replaySafe && !replayAdmitted o m, St.badField),
    (m.async && !(o.async || o.either), St.badField),
    (!o.modes.admits s.cmd.mode, St.wrongMode),
    (laneUrgent m.lane && s.cmd.mode == Md.interval && !urgentInInterval o.code, St.wrongMode)]

/-- What a command's meaning answers: the state it leaves, its status, the response payload; `held` says that the response
waits for a retirement (R180). -/
structure Answer where
  state : State
  status : Nat
  payload : List Byte
  held : Bool

/-- A refused command has no effect; its response carries no payload (R414, R415). -/
def deny (st : Nat) (s : State) : Answer := { state := s, status := st, payload := [], held := false }
/-- A refusal that names a failing item carries its index (R415). -/
def denyAt (st detail : Nat) (s : State) : Answer := { state := s, status := st, payload := leBytes 4 detail, held := false }
/-- A command completes with DONE. -/
def done (s : State) : Answer := { state := s, status := St.done, payload := [], held := false }
/-- A command completes with DONE and a payload. -/
def doneWith (pay : List Byte) (s : State) : Answer := { state := s, status := St.done, payload := pay, held := false }
/-- A command is answered ACCEPTED; its completion follows as an event (R417). -/
def accept (s : State) : Answer := { state := s, status := St.accepted, payload := [], held := false }
/-- A staging command's write is held until a retirement, and so is its answer (R180). -/
def hold (s : State) : Answer := { state := s, status := St.done, payload := [], held := true }

/-- Run the checks in order; with none failing, answer. -/
def orDeny (checks : List (Bool × Nat)) (s : State) (a : Answer) : Answer :=
  match firstRefusal checks with
  | some st => deny st s
  | none => a

/-- The limit of R419: the mailbox, with the WORK rings of its stage, already holds 64 accepted and uncompleted commands. -/
def State.atLimit (s : State) (m : Msg) : Bool := decide (64 ≤ (s.mb (s.mbOf m)).outstanding.length)

/-- Is the command asynchronous (R417)? An A command always, an E command with ASYNC set. -/
def Op.goesAsync (o : Op) (m : Msg) : Bool := o.async || (o.either && m.async)

/-! ### The journal (R371) -/

/-- Bytes of the journal SRAM an entry takes: the ACCEPT, and the COMPLETE once it is written. -/
def JEntry.size (j : JEntry) : Nat :=
  16 + j.payload.length + (match j.complete with | some c => 16 + c.2.length | none => 0)

/-- Journal SRAM in use, in bytes. -/
def State.journalUsed (s : State) : Nat := s.ctl.journal.foldl (fun a j => a + j.size) 0

/-- The journal is full (R371): a new command's ACCEPT does not fit the 16 MiB. -/
def State.journalFull (s : State) (m : Msg) : Bool := decide (16 * 1048576 < s.journalUsed + 16 + m.payload.length)

/-- The ACCEPT entry of a command. -/
def acceptEntry (code : Nat) (m : Msg) (s : State) : JEntry :=
  { mb := s.mbOf m, urgent := laneUrgent m.lane, ring := laneRing m.lane, opcode := code, tag := m.tag, seq := m.seq,
    replaySafe := m.replaySafe, async := m.async, payload := m.payload, complete := none, delivered := false,
    generation := s.ctl.sealed }

/-- ACCEPT is written before any effect of the command. -/
def State.journalAccept (s : State) (code : Nat) (m : Msg) : State :=
  s.onCtl (fun c => { c with journal := c.journal ++ [acceptEntry code m s] })

/-- Is this the entry of a command of a lane with no COMPLETE yet? -/
def JEntry.isOpen (j : JEntry) (mb : Nat) (m : Msg) : Bool :=
  j.mb == mb && j.urgent == laneUrgent m.lane && j.ring == laneRing m.lane && j.seq == m.seq && j.tag == m.tag && j.complete == none

/-- COMPLETE is written before the response doorbell, with up to 256 bytes of the response payload. -/
def State.journalComplete (s : State) (m : Msg) (status : Nat) (pay : List Byte) : State :=
  s.onCtl (fun c => { c with
    journal := c.journal.map (fun j => if j.isOpen (s.mbOf m) m then { j with complete := some (status, pay.take 256) } else j) })

/-! ### Answering (R386, R417–R419) -/

/-- The response of a command. -/
def responseOf (code : Nat) (m : Msg) (s : State) (status : Nat) (pay : List Byte) : Rsp :=
  { opcode := code, tag := m.tag, seq := m.seq, stage := s.stageOf m, status := status, payload := pay }

/-- Put a response in its lane: it waits for the response area, or for the WORK item's RSP_ADDR. -/
def State.putResponse (s : State) (m : Msg) (r : Rsp) : State :=
  match m.lane with
  | .mailbox n => s.onMb n (fun b => { b with responses := b.responses ++ [r] })
  | .urgent n => s.onMb n (fun b => { b with uresponses := b.uresponses ++ [r] })
  | .work p => s.onRing p (fun g => { g with answer := some r })

/-- An accepted command counts among its mailbox's outstanding ones. -/
def State.addOutstanding (s : State) (code : Nat) (m : Msg) : State :=
  s.onMb (s.mbOf m) (fun b => { b with outstanding := b.outstanding ++
    [{ opcode := code, tag := m.tag, seq := (match laneRing m.lane with | some _ => 0 | none => m.seq), acceptedAt := s.now,
       pair := laneRing m.lane, replaySafe := m.replaySafe, payload := m.payload }] })

/-- Give a command its answer: the journal's COMPLETE, the response, and the place among the outstanding commands. -/
def respond (code : Nat) (m : Msg) (a : Answer) : State :=
  if a.held then a.state
  else
    let s1 := a.state.journalComplete m a.status a.payload
    let s2 := s1.putResponse m (responseOf code m s1 a.status a.payload)
    if a.status = St.accepted then s2.addOutstanding code m else s2

/-- Commands the lead goes on serving when a DRAM channel is lost (R375): the SYS, MODE, FAULT and IDENTITY status commands. -/
def servedWithoutDram (code : Nat) : Bool :=
  code == 0x0101 || code == 0x0102 || code == 0x0103 || code == 0x0109 || code == 0x010A || code == 0x0202 || code == 0x1001 ||
    code == 0x1501 || code == 0x1502

/-- A lost DRAM channel refuses every other command with HW_FAULT, after the checks of steps 3 to 8 (R375). -/
def withoutDram (o : Op) (s : State) (a : Answer) : Answer :=
  if s.fault.standing.contains Fc.memChannelLost && !servedWithoutDram o.code &&
      !(a.status == St.badLength || a.status == St.badField || a.status == St.notPermitted)
  then deny St.hwFault s else a

/-- An E command with ASYNC set whose work is done: it is answered ACCEPTED and completes with CMD_DONE and its final status
(R417, R418); TABLE.FLUSH_LEARNED's event carries REMOVED (R129). Anything else is answered as it stands. -/
def respondEither (o : Op) (m : Msg) (a : Answer) : State :=
  if o.either && m.async && (a.status == St.done || a.status == St.timeout) then
    (respond o.code m { a with status := St.accepted, payload := [] }).finishNewest (a.state.mbOf m) o.code a.status
      (if o.code = 0x0709 then a.payload else [])
  else respond o.code m a

/-- A command is taken up (R371, R367): its ACCEPT is journalled, and a use of MB7 is remembered for the measurement list. -/
def State.intake (s : State) (o : Op) (m : Msg) : State :=
  (s.journalAccept o.code m).onCtl (fun c => { c with mb7Used := c.mb7Used || m.lane == .mailbox 7 || m.lane == .urgent 7 })

/-- Firmware runs a command it has taken: journal, judge, meaning, answer. While no complex serves the device it waits (R375). -/
def runCommand (o : Op) (body : Msg → State → Answer) (m : Msg) (s : State) : State :=
  if s.ctl.noService then s
  else if s.journalFull m then s.putResponse m (responseOf o.code m s St.busy [])
  else
    let s1 := s.intake o m
    match judge o m s1 with
    | some st => respond o.code m (deny st s1)
    | none => respondEither o m (withoutDram o s1 (body m s1))

/-- The meaning of a command's row: the lane must be one the device has, and the command runs. -/
def commandRow (o : Op) (body : Msg → State → Answer) (m : Msg) (s : State) : Out :=
  onUnit (laneOk m.lane) (runCommand o body m s)

end Sys2Proof.Machine
end

