-- ==== Sys2Proof/Machine/ModuleOps.lean ====
section
/-! DEFINITION. Shared operations on the modules in the cages (R519, R522–R530). -/
namespace Sys2Proof.Machine
open Sys2Proof

/-- A cage's entry: that of the playbill, or the default of R523. -/
def State.cageEntry (s : State) (c : Nat) : Cage :=
  if s.surr.cagesGiven then
    (SMap.find c s.surr.cages).getD { port := 255, txMap := 0, rxMap := 0, txPol := 0, rxPol := 0, maxPower := 0 }
  else { port := c, txMap := 0xFAC688, rxMap := 0xFAC688, txPol := 0, rxPol := 0, maxPower := 0xFF }

def State.onModule (s : State) (c : Nat) (f : Module → Module) : State :=
  s.onSurr (fun u => { u with modules := SMap.upd Module.absent c f u.modules })

/-- The module lane a device lane drives, through TX_MAP (R522). -/
def moduleLane (txMap k : Nat) : Nat := ((range 0 8).find? (fun m => bitsOf txMap (3 * m) 3 == k)).getD 8

/-- The interface ID a sub-port asks for: 0xC4 on 400G lanes (R44), otherwise the SFF-8024 code (R526). -/
def hostCode (rate lanes : Nat) : Nat := if rate = 2 then 0xC4 else Config.hostInterface rate lanes

/-- The AppSel of a sub-port (R526): the lowest-numbered Application Descriptor with its interface, its width, and the first of its
module lanes allowed; none where the module lanes are not contiguous. -/
def appSelFor (e : Cage) (id : ModuleId) (cfg : Nat) : Option Nat :=
  let lanes := (range (cfgSub cfg) (cfgLanes cfg)).map (fun k => moduleLane e.txMap k)
  let first := lanes.foldl min 8
  if (range first (cfgLanes cfg)).all (fun m => lanes.contains m) then
    (findIdxVal (fun a => a.1 == hostCode (cfgRate cfg) (cfgLanes cfg) && a.2.1 == cfgLanes cfg && a.2.2.testBit first) id.apps 1).map (fun x => x.1)
  else none

/-- The applications of every sub-port of a port. -/
def State.selectApps (s : State) (p c : Nat) (id : ModuleId) : SMap Nat :=
  (lportsOf p).foldl (fun a l => match (s.lport l).cfg with
    | some cfg => (match appSelFor (s.cageEntry c) id cfg with | some n => SMap.insert (l % 8) n a | none => a)
    | none => a) []

/-- Steps 5–8 of R525 run while a sub-port of the port has ADMIN UP and the port is not held. -/
def State.moduleWanted (s : State) (p : Nat) : Bool :=
  (lportsOf p).any (fun l => (s.lport l).admin) && !s.power.held.testBit p

/-- Steps 5 and 6 of R525: applications are chosen and CG_LPM goes low; the module is powering up. -/
def State.powerUpModule (s : State) (p c : Nat) : State :=
  match (s.module c).id with
  | some id => s.onModule c (fun m => { m with
      state := 3, step := 6, since := s.now, lpmHigh := false, faultCause := 0, appSel := s.selectApps p c id })
  | none => s

/-- A module follows what its port wants: back to low power when nothing does, up when something does (R525, R529). -/
def State.settleModule (s : State) (p : Nat) : State :=
  match s.cageOf p with
  | none => s
  | some c =>
    let m := s.module c
    if s.moduleWanted p then (if m.state = 2 && m.faultCause = 0 then s.powerUpModule p c else s)
    else if m.state = 3 ∨ m.state = 4 then s.onModule c (fun m => { m with state := 2, step := 4, lpmHigh := true, appSel := [] })
    else s

/-- A new configuration of the port during steps 5–7, or on a ready module: back to step 5 (R529). -/
def State.reselectModule (s : State) (p : Nat) : State :=
  match s.cageOf p with
  | none => s
  | some c => if ((s.module c).state = 3 ∨ (s.module c).state = 4) ∧ s.moduleWanted p then s.powerUpModule p c else s.settleModule p

/-- Module events go to the mailbox of the stage that owns the port, and to MB0 (R534). -/
def State.postModule (s : State) (p code unit : Nat) (pay : List Byte) : State :=
  let k := s.portStage p
  let s1 := s.post 0 code Lv.port unit pay
  if k = 0 then s1 else s1.post k code Lv.port unit pay

/-- Every sub-port of a port goes DOWN with a cause, unless it is not configured. -/
def State.downPort (s : State) (p cause : Nat) : State :=
  forEach (lportsOf p) (fun l s => if (s.lport l).configured && (s.lport l).oper != 0 then s.downLport l cause
    else if (s.lport l).configured && (s.lport l).admin then s.onLport l (fun x => { x with cause := cause }) else s) s

end Sys2Proof.Machine
end

