-- ==== Sys2Proof/Machine/Modules.lean ====
section
/-! DEFINITION. The modules in the cages (R518–R534): bring-up, monitoring, removal, and the MODULE group. -/
namespace Sys2Proof.Machine
open Sys2Proof

/-- Causes of MODULE_FAULT, numbered from 1 in the order of R534 (log entry 119). -/
def mfNoResponse : Nat := 1
def mfNotCmis : Nat := 2
def mfPowerClass : Nat := 3
def mfNotInPlaybill : Nat := 4
def mfTimeout : Nat := 5
def mfModuleState : Nat := 6
def mfOverTemp : Nat := 7
def mfZoneHot : Nat := 8

/-- The port of a cage, or none where no valid entry names it. -/
def State.portOfCage (s : State) (c : Nat) : Option Nat :=
  let e := s.cageEntry c
  if e.port < 48 && e.maxPower != 0 then some e.port else none

/-- MODULE_FAULT (R534): the cause and the cage. -/
def State.moduleFault (s : State) (c cause : Nat) : State :=
  let p := (s.portOfCage c).getD c
  (s.onModule c (fun m => { m with faultCause := cause })).postModule p Ev.moduleFault p (leBytes 1 cause ++ leBytes 1 c ++ zeros 2)

/-- The sub-ports of a cage's port go DOWN with cause NO_MODULE and are flushed. -/
def State.downCage (s : State) (c : Nat) : State := match s.portOfCage c with | some p => s.downPort p 1 | none => s

/-- A module has been seated for 50 ms (R525 step 1); in a cage without power or without an entry it is held in reset (R529). -/
def State.insertModule (s : State) (c : Nat) : State :=
  match s.portOfCage c with
  | some p =>
    (s.onModule c (fun _ => { Module.absent with state := 1, step := 2, since := s.now, limit := tkMs 10 })).postModule p Ev.moduleInserted p
      (leBytes 1 p ++ leBytes 1 c ++ zeros 2)
  | none => (s.onModule c (fun _ => { Module.absent with state := 5 })).moduleFault c mfNotInPlaybill

/-- Ledger record of a module (R488). -/
def moduleSeen (c serial : Nat) : List Byte := leBytes 1 0 ++ leBytes 2 c ++ leBytes 8 serial ++ zeros 4

/-- R528: CG_PRS_N rises, and the device acts at once. -/
def State.removeModule (s : State) (c : Nat) : State :=
  let p := (s.portOfCage c).getD c
  let serial := match (s.module c).id with | some i => i.serial | none => 0
  let s1 := (s.downCage c).onModule c (fun _ => Module.absent)
  (s1.postModule p Ev.moduleRemoved p (leBytes 1 p ++ leBytes 1 c ++ zeros 2)).ledgerWrite 4 (moduleSeen c serial)

/-! ### Events -/

/-- MODULE_INSERTED (R525 step 1). Before HOUSE no playbill is read: the module is seated, and START_UP begins its bring-up. -/
def execModuleInserted (c : Nat) (s : State) : Out :=
  onUnit (decide (c < 48)) (s.when ((s.module c).state == 0) (fun s =>
    if s.cmd.mode ≤ 1 then s.onModule c (fun _ => { Module.absent with state := 1 }) else s.insertModule c))

/-- CG_RST_N_RELEASE: 10 ms after the insertion, or 1 ms after MODULE.RESET drove it low (R525 step 2, R531). -/
def execCgRstNRelease (c : Nat) (s : State) : Out :=
  let m := s.module c
  onUnit (decide (c < 48)) (s.when (m.state == 1 && m.step == 2 && decide (m.since + m.limit ≤ s.now)) (fun s =>
    s.onModule c (fun m => { m with rstLow := false, step := 3, since := s.now, limit := tkS 2 })))

/-- MODULE_LOW_POWER: Module State reads ModuleLowPwr and the pages of R524 are read: identity, power and applications. A module
that is not CMIS or asks too much power stays in low power; otherwise bring-up goes on while the port wants it (R525 steps 3–6). -/
def execModuleLowPower (c identifier : Nat) (cmis : Bool) (vendor part : List Byte) (serial firmware power : Nat)
    (apps : List (Nat × Nat × Nat)) (pwrUpMs dpInitMs : Nat) (s : State) : Out :=
  let m := s.module c
  onUnit (decide (c < 48)) (s.when (m.state == 1 && m.step == 3) (fun s =>
    let id : ModuleId := { identifier := identifier, cmis := cmis, vendor := vendor, part := part, serial := serial, firmware := firmware,
                           power := power, apps := apps, pwrUpMs := pwrUpMs, dpInitMs := dpInitMs }
    let s1 := s.onModule c (fun m => { m with state := 2, step := 4, since := s.now, id := some id, faultCause := 0 })
    let seen := s.book.ledger.any (fun r => r.type == 4 && r.body == moduleSeen c serial)
    let s2 := if seen then s1 else s1.ledgerWrite 4 (moduleSeen c serial)
    if !cmis then s2.moduleFault c mfNotCmis
    else if (s.cageEntry c).maxPower < power then (s2.onModule c (fun m => { m with state := 5 })).moduleFault c mfPowerClass
    else match s.portOfCage c with
      | some p => s2.settleModule p
      | none => s2))

/-- MODULE_POWER_UP: the module reports ModuleReady; its data paths are awaited (R525 steps 6, 7). -/
def execModulePowerUp (c : Nat) (s : State) : Out :=
  onUnit (decide (c < 48)) (s.when ((s.module c).state == 3 && (s.module c).step == 6) (fun s =>
    s.onModule c (fun m => { m with step := 7, since := s.now })))

/-- MODULE_READY: every selected lane reports DPActivated; the port's sub-ports train (R525 steps 7, 8). -/
def execModuleReady (c : Nat) (s : State) : Out :=
  onUnit (decide (c < 48)) (s.when ((s.module c).state == 3 && (s.module c).step == 7) (fun s =>
    match s.portOfCage c with
    | some p =>
      let s1 := (s.onModule c (fun m => { m with state := 4, step := 8, since := s.now })).postModule p Ev.moduleReady p
        (leBytes 1 p ++ leBytes 1 c ++ zeros 2)
      if s1.portAdmitted p then forEach (lportsOf p) (fun l s => if (s.lport l).oper = 0 then s.trainLport l else s) s1 else s1
    | none => s))

/-- The limit of the step a module is in (R525). -/
def moduleLimit (m : Module) : Option Nat :=
  if m.state = 1 ∧ m.step = 3 then some (tkS 2)
  else if m.state = 3 then m.id.map (fun i => if m.step = 6 then tkMs i.pwrUpMs else tkMs i.dpInitMs)
  else none

/-- MODULE_TIMEOUT: a step of R525 exceeds its limit; the module is returned to low power (R529). -/
def execModuleTimeout (c : Nat) (s : State) : Out :=
  let m := s.module c
  onUnit (decide (c < 48)) (match moduleLimit m with
    | some n =>
      if m.since + n ≤ s.now then (s.onModule c (fun m => { m with state := 5, lpmHigh := true, appSel := [] })).moduleFault c mfTimeout else s
    | none => s)

/-- What a module reports stops it (R527): ModuleFault, or a high alarm of temperature or supply. -/
def State.moduleFlags (s : State) (c : Nat) (fault alarm : Bool) : State :=
  let m := s.module c
  if (fault || alarm) && (m.state == 2 || m.state == 3 || m.state == 4) then
    ((s.downCage c).onModule c (fun m => { m with state := 5, lpmHigh := true, appSel := [] })).moduleFault c
      (if fault then mfModuleState else mfOverTemp)
  else s

/-- MODULE_INTERRUPT: CG_INT_N falls and the latched flags are read (R527). -/
def execModuleInterrupt (c : Nat) (fault alarm : Bool) (s : State) : Out := onUnit (decide (c < 48)) (s.moduleFlags c fault alarm)

/-- The hottest module of a zone. -/
def State.zoneHottest (s : State) (z : Zone) : Int :=
  ((range 0 48).filter (fun c => z.cages.testBit c && (s.module c).state != 0)).foldl (fun a c => if a < (s.module c).temp then (s.module c).temp else a) (-128)

/-- ZONE_HOT once for each episode (R527). -/
def State.checkZones (s : State) : State :=
  s.surr.zones.foldl (fun s z =>
    let hot := decide ((z.hot : Int) ≤ s.zoneHottest z)
    let s1 := s.onSurr (fun u => { u with zones := u.zones.map (fun (x : Zone) => if x.number = z.number then { x with raised := hot } else x) })
    if hot && !z.raised then s1.post 0 Ev.moduleFault Lv.device z.number (leBytes 1 mfZoneHot ++ leBytes 1 z.number ++ zeros 2) else s1) s

/-- MODULE_POLL: once a second a module's flags and monitors are read. Without an answer after three attempts it is held in reset;
another serial number is a removal and an insertion (R518, R527, R529). -/
def execModulePoll (c : Nat) (answers : Bool) (serial : Nat) (temp : Int) (fault alarm : Bool) (s : State) : Out :=
  let m := s.module c
  onUnit (decide (c < 48)) (
    if m.state = 0 ∨ m.state = 1 then s
    else if !answers then ((s.downCage c).onModule c (fun m => { m with state := 5, rstLow := true, appSel := [] })).moduleFault c mfNoResponse
    else if (match m.id with | some i => i.serial != serial | none => false) then
      ((s.removeModule c).insertModule c).postModule ((s.portOfCage c).getD c) Ev.identityMismatch c (leBytes 1 1 ++ leBytes 1 0 ++ zeros 2)
    else ((s.onModule c (fun m => { m with temp := temp })).moduleFlags c fault alarm).checkZones)

/-- MODULE_REMOVED (R528). -/
def execModuleRemoved (c : Nat) (s : State) : Out :=
  onUnit (decide (c < 48)) (s.when ((s.module c).state != 0) (fun s =>
    if s.cmd.mode ≤ 1 then s.onModule c (fun _ => Module.absent) else s.removeModule c))

/-- MGMT_BUS_RECOVER (R518): a stuck transfer ends with nine clocks and a STOP, counted on the bus. -/
def execMgmtBusRecover (bus : Nat) (s : State) : Out :=
  onUnit (decide (bus < 8)) (s.onSurr (fun u => { u with busRecover := SMap.upd 0 bus (fun v => v + 1) u.busRecover }))

/-! ### Commands (R531) -/

/-- The zone of a cage. -/
def State.zoneOf (s : State) (c : Nat) : Option Zone := s.surr.zones.find? (fun z => z.cages.testBit c)

/-- A port's MODULE.STATUS record of 64 bytes (log entry for the layout). -/
def moduleStatusRecord (s : State) (p : Nat) : List Byte :=
  let c := s.cageOf p
  let m := match c with | some c => s.module c | none => Module.absent
  let z := match c with | some c => s.zoneOf c | none => none
  let id := m.id.getD { identifier := 0, cmis := false, vendor := [], part := [], serial := 0, firmware := 0, power := 0, apps := [],
                        pwrUpMs := 0, dpInitMs := 0 }
  leBytes 1 p ++ leBytes 1 (c.getD 0xFF) ++
    leBytes 1 (m.state + 16 * (if s.moduleWanted p then 4 else 2) + 128 * flagNat (s.mismatchOf (1000 + p))) ++ leBytes 1 m.faultCause ++ leBytes 1 id.identifier ++
    leBytes 1 (match z with | some z => z.number | none => 0xFF) ++ leBytes 2 (unsignedOf m.temp 16) ++
    leBytes 2 (match z with | some z => unsignedOf (s.zoneHottest z) 16 | none => 0) ++ leBytes 2 id.power ++ leBytes 4 id.firmware ++
    (id.vendor ++ zeros 16).take 16 ++ (id.part ++ zeros 16).take 16 ++ leBytes 8 id.serial ++
    (range 0 8).map (fun k => BitVec.ofNat 8 (SMap.get 0 k m.appSel))

def opModuleStatus : Op := (Op.plain 0x0501 .read .all).withRS
/-- MODULE.STATUS: PORT in byte 0, 0xFF for every port of the stage; three zero bytes. -/
def bodyModuleStatus (m : Msg) (s : State) : Answer :=
  let p := m.u8 0
  let k := s.stageOf m
  orDeny [(m.plen != 4, St.badLength), ((p != 0xFF && decide (47 < p)) || !m.zero 1 3, St.badField),
          (p != 0xFF && !s.ownsPort k p, St.notPermitted)] s
    (doneWith ((if p = 0xFF then portsOf (s.stagePorts k) else [p]).map (fun p => moduleStatusRecord s p)).flatten s)
def execModuleStatus (m : Msg) (s : State) : Out := commandRow opModuleStatus bodyModuleStatus m s

/-- Is there a module a READ or WRITE of a port can reach (R531)? -/
def State.reachable (s : State) (p : Nat) : Bool :=
  match s.cageOf p with | some c => (s.module c).state != 0 && (s.module c).state != 1 | none => false

def opModuleRead : Op := ((Op.plain 0x0502 .stage .ops).withE).withRS
/-- MODULE.READ: PORT, BANK, PAGE, OFFSET, LENGTH. The bytes are what the module answers. -/
def bodyModuleRead (m : Msg) (s : State) : Answer :=
  let p := m.u8 0
  let n := m.u8 4
  orDeny [(m.plen != 8, St.badLength), (decide (47 < p) || decide (n < 1) || decide (128 < n) || decide (256 < m.u8 3 + n) || !m.zero 5 3, St.badField),
          (!s.ownsPort (s.stageOf m) p, St.notPermitted), (m.async && s.atLimit m, St.busy), (!s.reachable p, St.notFound),
          (m.ext.isNone, St.timeout)] s
    (doneWith ((m.ext.getD [] ++ zeros 128).take n) s)
def execModuleRead (m : Msg) (s : State) : Out := commandRow opModuleRead bodyModuleRead m s

def opModuleWrite : Op := (Op.plain 0x0503 .stage .ops).withE
/-- MODULE.WRITE: as MODULE.READ, then LENGTH bytes; only to upper page 03h and pages 80h–FFh. -/
def bodyModuleWrite (m : Msg) (s : State) : Answer :=
  let p := m.u8 0
  let n := m.u8 4
  let page := m.u8 2
  orDeny [(decide (m.plen < 8) || m.plen != 8 + n, St.badLength),
          (decide (47 < p) || decide (n < 1) || decide (128 < n) || decide (256 < m.u8 3 + n) || !m.zero 5 3, St.badField),
          (!s.ownsPort (s.stageOf m) p || !((page == 3 || decide (128 ≤ page)) && decide (128 ≤ m.u8 3)), St.notPermitted),
          (m.async && s.atLimit m, St.busy), (!s.reachable p, St.notFound), (m.ext.isNone, St.timeout)] s
    (done (match s.cageOf p with
      | some c => s.onModule c (fun x => { x with
          pages := (range 0 n).foldl (fun a i => SMap.put 0 (m.u8 1 * 65536 + page * 256 + m.u8 3 + i) (BitVec.ofNat 8 (m.u8 (8 + i))) a) x.pages })
      | none => s))
def execModuleWrite (m : Msg) (s : State) : Out := commandRow opModuleWrite bodyModuleWrite m s

def opModuleReset : Op := (Op.plain 0x0504 .stage .ops).withE
/-- MODULE.RESET: CG_RST_N goes low for 1 ms and bring-up runs again from step 2; the port's sub-ports lose their module. -/
def bodyModuleReset (m : Msg) (s : State) : Answer :=
  let p := m.u8 0
  let seated := match s.cageOf p with | some c => (s.module c).state != 0 && (s.portOfCage c).isSome | none => false
  orDeny [(m.plen != 4, St.badLength), (decide (47 < p) || !m.zero 1 3, St.badField), (!s.ownsPort (s.stageOf m) p, St.notPermitted),
          (m.async && s.atLimit m, St.busy), (!seated, St.notFound)] s
    (done (match s.cageOf p with
      | some c => (s.downCage c).onModule c (fun _ => { Module.absent with state := 1, step := 2, since := s.now, limit := tkMs 1 })
      | none => s))
def execModuleReset (m : Msg) (s : State) : Out := commandRow opModuleReset bodyModuleReset m s

end Sys2Proof.Machine
end

