-- ==== Sys2Proof/Machine/ControlOps.lean ====
section
/-! DEFINITION. Takeovers (R372–R375): flipping LEAD_SEL, and what the new lead does. -/
namespace Sys2Proof.Machine
open Sys2Proof

/-- The mailboxes of live stages (R373, R442). -/
def State.liveMailboxes (s : State) : List Nat := s.liveStages

/-- The journal is freed up to the generation an understudy adopts (R371): entries older than it that are complete. -/
def ControlSt.freeJournal (c : ControlSt) (n : Nat) : ControlSt :=
  { c with journal := c.journal.filter (fun j => !(decide (j.generation < n) && j.complete.isSome)) }

/-- LEAD_SEL flips (R372): the old lead is fenced and reset, CONTROL_LOSS is recorded, and the new lead starts to beat. -/
def State.flipLead (s : State) : State :=
  (s.onCtl (fun c => { c with lead := 1 - c.lead, understudy := 1, missCount := 0, lastBeat := s.localNs, sealValid := false,
                              noService := false, attempts := 0 })).report
    (Report.of Fc.controlLoss Lv.die 2 7 0 8 0 s.ctl.lead)

/-- Step 5 of R373 and R450: the new lead acknowledges the CONTROL_LOSS entry and every entry the old lead had taken for repair;
comparisons start again (R462). -/
def State.newLeadAcks (s : State) : State :=
  let seqs := (s.fault.opened.filter (fun e => e.taken || e.record.cls == Fc.controlLoss)).map (fun e => e.record.seq)
  s.onFault (fun f => { (seqs.foldl (fun f q => f.ack q) f) with
    mismatch := SMap.mapVals (fun _ m => { m with count := 0 }) f.mismatch })

/-- A response whose COMPLETE was journaled but which no lane holds is written again (R373 step 5). Responses live in the lanes'
queues here, so nothing is lost and nothing is written twice. Then TAKEOVER goes to every mailbox of a live stage (R377). -/
def State.announceTakeover (s : State) (rerun restarted : Nat) : State :=
  let pay := leBytes 1 s.ctl.lead ++ zeros 3 ++ leBytes 4 s.ctl.adopted ++ leBytes 2 rerun ++ leBytes 2 restarted
  (s.postAll s.liveMailboxes Ev.takeover Lv.die 2 pay).onBook (fun b => { b with takeovers := b.takeovers + 1 })

/-- CONTROL_LOST is no longer a standing cause once a complex is lead (R456). -/
def State.controlBack (s : State) : State :=
  s.onFault (fun f => { f with
    standing := f.standing.erase Fc.controlLost,
    quietEnd := if s.cmd.mode == Md.safe && !s.cmd.commandedSafe && (f.standing.erase Fc.controlLost).isEmpty && f.quietEnd.isNone
      then some (s.now + tkS f.quietPeriod) else f.quietEnd })

end Sys2Proof.Machine
end

