-- ==== Sys2Proof/Machine/PatternOps.lean ====
section
/-! DEFINITION. Shared operations of the pattern engine (chapter 7): scan records, images, the throttle, survey records. -/
namespace Sys2Proof.Machine
open Sys2Proof

/-! ### Scan records (R205) and images (R222) -/

def srMode (r : Nat) : Nat := bitsOf r 30 2
def srWin (r : Nat) : Nat := bitsOf r 27 3
def srFrom (r : Nat) : Nat := bitsOf r 23 4
def srFallback (r : Nat) : Nat := bitsOf r 21 2
def srHostq (r : Nat) : Nat := bitsOf r 18 3
def srSurvey (r : Nat) : Bool := bitOf r 17
/-- A scan record with no refused field. -/
def scanRecordOk (r : Nat) : Bool := srMode r != 3 && decide (srFrom r ≤ 8) && srFallback r != 3 && bitsOf r 0 17 == 0

/-- STATES, PATTERNS and the compiled automaton of a FORWARD or SURVEY section. -/
def autoStates (b : List Byte) : Nat := fieldLE b 0 4
def autoPatterns (b : List Byte) : Nat := fieldLE b 4 2
/-- A FORWARD or SURVEY section passes its checks. -/
def autoOk (b : List Byte) : Bool :=
  decide (16 ≤ b.length) && decide (1 ≤ autoPatterns b) && decide (autoPatterns b ≤ 16384) && zeroAt b 6 10 && Config.automatonOk (b.drop 16)

/-- States of both automata of a set. -/
def setStates (f sv : Option (List Byte)) : Nat := ((f.map autoStates).getD 0) + ((sv.map autoStates).getD 0)

/-- States of every set in a tile. -/
def State.statesUsed (s : State) (t : Nat) : Nat :=
  ((s.tab.sets.filter (fun e => (s.stageTiles e.1).contains t)).map (fun e => (e.2.all.map (fun x => x.states)).foldl (· + ·) 0)).foldl (· + ·) 0
def State.statesFree (s : State) (t : Nat) : Nat := 65536 - s.statesUsed t

/-- The set that serves a version of a stage (R204). -/
def State.setOf (s : State) (k v : Nat) : Option PatSet := (s.sets k).serving (s.isOld k v)
/-- The scan record of a class in a version; OFF where no set serves it. -/
def State.scanRecord (s : State) (k v tc : Nat) : Nat :=
  match s.setOf k v with | some x => (x.classes[tc]?).getD 0 | none => 0

/-! ### The throttle (R214–R217) -/

def State.tempStepOf (s : State) (die : Nat) : Nat := SMap.get 0 die s.tab.tempStep
/-- The step in force on a die. -/
def State.stepOf (s : State) (die : Nat) : Nat := SMap.get 0 die s.tab.step
/-- The effective step: the temperature step within FLOOR and CAP, OFF under an override. -/
def State.effStep (s : State) (die : Nat) : Nat :=
  if s.tab.limitOff || s.tab.leanOff then 3 else max (min (s.tempStepOf die) s.tab.floor) s.tab.cap

/-- Engines a step enables, and those of a tile that are not withdrawn (R214, R224). -/
def stepEngines (st : Nat) : Nat := if st = 0 then 4 else if st = 1 then 2 else if st = 2 then 1 else 0
def State.engines (s : State) (t : Nat) : Nat :=
  ((range 0 (stepEngines (s.stepOf (dieOfTile t)))).filter (fun e => !s.tab.engBad.contains (t * 4 + e))).length

/-- Does a stage scan: has its current version a class with MODE other than OFF? -/
def State.scans (s : State) (k : Nat) : Bool :=
  match (s.sets k).cur with | some x => x.classes.any (fun r => srMode r != 0) | none => false
/-- MB0 and the mailboxes of the stages that scan in a tile of a die (R226). -/
def State.scanMailboxes (s : State) (die : Nat) : List Nat :=
  0 :: s.sideStages.filter (fun k => s.scans k && (s.stageTiles k).any (fun t => dieOfTile t == die))

/-- A die's temperature in 0.1 °C. -/
def State.dieTemp (s : State) (die : Nat) : Int := SMap.get 0 die s.power.tj

/-- Bring one die's step to what it must be: a change is counted in its tiles and posted (R215, R226). -/
def State.retuneDie (s : State) (override die : Nat) : State :=
  let old := s.stepOf die
  let new := s.effStep die
  if new = old then s
  else
    let s1 := forEach (range (4 * die) 4) (fun t s => s.bump t 0 0xAD)
      (s.onTab (fun a => { a with step := SMap.put 0 die new a.step, stepSince := SMap.insert die s.now a.stepSince }))
    s1.postAll (s1.scanMailboxes die) Ev.scanThrottle Lv.die die
      (leBytes 1 die ++ leBytes 1 override ++ leBytes 1 old ++ leBytes 1 new ++ leBytes 2 (unsignedOf (s.dieTemp die) 16) ++ zeros 2)

def State.retune (s : State) (override : Nat) : State := forEach [0, 1] (fun d s => s.retuneDie override d) s

/-- LEAN clocking takes the throttle of both dies OFF, or releases it (R217, R502). -/
def State.throttleOff (s : State) (off : Bool) (override : Nat) : State := (s.onTab (fun a => { a with leanOff := off })).retune override

/-- The input current limit takes the throttle OFF, or releases it (R216, R498). -/
def State.limitThrottle (s : State) (off : Bool) : State := (s.onTab (fun a => { a with limitOff := off })).retune (if off then 2 else 0)

/-- The temperature step after a reading in 0.1 °C (R214): up at 95, 100 and 105 °C, one step back at 92, 97 and 102 °C. -/
def stepAfter (old : Nat) (tj : Int) : Nat :=
  let up := if 1050 ≤ tj then 3 else if 1000 ≤ tj then 2 else if 950 ≤ tj then 1 else 0
  if old < up then up
  else
    let a := if old = 3 ∧ tj ≤ 1020 then 2 else old
    let b := if a = 2 ∧ tj ≤ 970 then 1 else a
    if b = 1 ∧ tj ≤ 920 then 0 else b

/-- A temperature step below FLOOR pins the loop: LOOP_AT_LIMIT once an episode (R216, R505). -/
def State.pinThrottle (s : State) (die : Nat) : State :=
  if s.tempStepOf die ≤ s.tab.floor then s
  else
    let s1 := s.onTab (fun a => { a with pinned := SMap.insert die s.now a.pinned })
    if loopEpisodeNew (SMap.find die s.tab.pinned) s.now then s1.post 0 Ev.loopAtLimit Lv.die die (loopPayload 4 die 0) else s1

/-! ### The forwarding scan (R211) -/

/-- The first match in a window from byte b to byte e of a frame: pattern number and end offset in the frame. -/
def scanWindow (auto : List Byte) (frame : List Byte) (b e : Nat) : Option (Nat × Nat) :=
  match Config.forwardMatch (auto.drop 16) (sliceB frame b (e - b)) with
  | some m => if m.1 < autoPatterns auto ∧ m.2 < e - b then some (m.1, b + m.2) else none
  | none => none

/-! ### Survey records (R218–R221) -/

/-- Put a match into its place: by end offset, then by pattern number; a repeat is dropped. -/
def insertMatch (m : Nat × Nat) : List (Nat × Nat) → List (Nat × Nat)
  | [] => [m]
  | x :: l => if x = m then x :: l else if m.2 < x.2 ∨ (m.2 = x.2 ∧ m.1 < x.1) then m :: x :: l else x :: insertMatch m l

/-- Every match of a survey automaton in a buffer, in order. -/
def allMatches (auto data : List Byte) : List (Nat × Nat) :=
  if auto.isEmpty then []
  else ((Config.surveyMatches (auto.drop 16) data).filter (fun m => decide (m.1 < autoPatterns auto) && decide (m.2 < data.length))).foldl
    (fun l m => insertMatch m l) []

/-- One match in the format of MATCH. -/
def matchBytes (m : Nat × Nat) : List Byte := leBytes 4 (m.1 * 65536 + m.2)

/-- The survey record: bytes 0–39 of R220 and resume state (zero where the model keeps the job itself). -/
def surveyRecord (j : Survey) (incomplete : Bool) : List Byte :=
  let ms := if incomplete then [] else allMatches j.auto j.data
  let first := ms.take 8
  leBytes 4 j.handle ++ leBytes 1 first.length ++
    leBytes 1 (flagNat (!ms.isEmpty) + 2 * flagNat (decide (2 ≤ ms.length)) + 4 * flagNat (decide (8 < ms.length) || incomplete) +
      8 * flagNat incomplete + 16 * flagNat j.auto.isEmpty) ++
    leBytes 1 j.ver ++ zeros 1 ++ (first.map matchBytes).flatten ++ zeros (32 - 4 * first.length) ++ zeros 24

/-- Queue a survey job over a buffer (R218): its first SURVEY_LEN bytes, with the automaton that serves the version. -/
def State.addSurvey (s : State) (t k v handle : Nat) (query : Option (Nat × Nat)) (data : List Byte) : State :=
  let auto := match s.setOf k v with | some x => x.survey.getD [] | none => []
  s.onTab (fun a => { a with
    surveys := SMap.insert handle { tile := t, stage := k, ver := v, handle := handle, query := query, data := data.take (s.setting 0x0013 k),
                                    auto := auto, startedAt := s.now, done := false, record := [] } a.surveys })

end Sys2Proof.Machine
end

