-- ==== Sys2Proof/Machine/PowerOps.lean ====
section
/-! DEFINITION. The power budget, held ports and changes of clocking (R495–R498, R502, R508–R511, R517). -/
namespace Sys2Proof.Machine
open Sys2Proof

/-- Available output power in units of 10 mW: VIN × LIMIT × 0.92 (R495). -/
def State.availPower (s : State) : Nat := s.power.vinMv * s.power.limit * 92 / 10000

/-- What the budget may spend: the available power less RESERVE (R496). -/
def State.budget (s : State) : Nat := s.availPower - 100 * s.power.reserve

def basePower : Nat := 8300
def tileFull : Nat := 5600
def tileLean : Nat := 4200

/-- Ports with configured lanes. -/
def State.configuredPorts (s : State) : List Nat := (range 0 48).filter (fun p => decide (0 < s.portFigure p))

/-- Every configured port at full clocking, with its tiles and the base (R497 step 1). -/
def State.fullPower (s : State) : Nat :=
  basePower + tileFull * ((range 0 8).filter (fun t => s.configuredPorts.any (fun p => p / 6 == t))).length +
    sumOver s.configuredPorts s.portFigure

/-- The precedence order: the list, then the ports it does not name in rising order (R497 steps 2 and 3). -/
def State.walkOrder (s : State) : List Nat :=
  s.power.precedence ++ (range 0 48).filter (fun p => !s.power.precedence.contains p)

/-- The walk under lean clocking: the ports admitted and what they spend (R497 step 2). Ports a current-limit step holds are left out. -/
def State.walk (s : State) : List Nat → List Nat → Nat → List Nat × Nat
  | [], adm, spent => (adm, spent)
  | p :: l, adm, spent =>
    let fig := s.portFigure p
    let cost := fig + (if adm.any (fun q => q / 6 == p / 6) then 0 else tileLean)
    if fig = 0 || s.power.clHeld.contains p || s.budget < spent + cost then s.walk l adm spent
    else s.walk l (adm ++ [p]) (spent + cost)

/-- Why clocking must be lean (R495, R497, R498, R503, R515): bit 0 BAND, 1 BUDGET, 2 CURRENT, 3 THERMAL. -/
def State.leanReasons (s : State) : Nat :=
  flagNat (s.power.band != 2) + 2 * flagNat (s.power.band == 2 && decide (s.budget < s.fullPower)) +
    4 * flagNat (decide (2 ≤ s.power.clStep)) + 8 * flagNat s.power.tlean

/-- Ports admitted and the output power budgeted, in 10 mW (R497). -/
def State.admitted (s : State) : List Nat × Nat :=
  if s.leanReasons = 0 then (s.configuredPorts, s.fullPower) else s.walk s.walkOrder [] basePower

/-- The map of held ports: configured and not admitted. -/
def State.heldMap (s : State) : Nat :=
  let adm := s.admitted.1
  s.configuredPorts.foldl (fun a p => if adm.contains p then a else a + 2 ^ p) 0

/-- PORTS_HELD to MB0 and every live stage; a side stage's copy shows its own ports only (R517). -/
def State.postHeld (s : State) : State :=
  let left := (s.budget - s.admitted.2) / 10
  forEach s.liveStages (fun k s =>
    s.post k Ev.portsHeld Lv.device 0
      (leBytes 6 (if k = 0 then s.power.held else s.power.held &&& (s.stage k).ports) ++ zeros 2 ++ leBytes 4 left)) s

/-- A change of clocking is asked for (R502): one in progress lets the opposite change wait. -/
def State.askClocking (s : State) (lean : Bool) : State :=
  match s.power.changing with
  | some c => s.onPower (fun p => { p with changeWaits := if c = lean then none else some lean })
  | none => if s.power.lean = lean then s else s.onPower (fun p => { p with changing := some lean })

/-- MODE_CHANGED causes of a move driven by power or temperature (R435, R510), and its OVERRIDE (R507). -/
def powerCause (reasons : Nat) : Nat := if reasons.testBit 3 && !reasons.testBit 0 then 3 else 2
def powerOverride (reasons : Nat) : Nat :=
  if reasons.testBit 0 then 1 else if reasons.testBit 2 then 2 else if reasons.testBit 3 then 3 else 0

/-- Moves among HOUSE, RUN and LEAN that power or temperature drive follow FWD_INTENT (R508). -/
def State.followMode (s : State) (reasons : Nat) : State :=
  if (s.cmd.mode == Md.house || s.cmd.mode == Md.run || s.cmd.mode == Md.lean) && s.cmd.fwdIntent && s.intendedMode != s.cmd.mode
  then s.moveMode s.intendedMode (powerCause reasons) (powerOverride reasons) else s

/-- Does the mode let ports run? HOUSE, LOAD and DARK hold the data path (R9, R66). -/
def State.dataPathUp (s : State) : Bool := decide (3 ≤ s.cmd.mode)

/-- Sub-ports of ports newly held go HELD; those of ports newly admitted train (R497). -/
def State.applyHeld (s : State) (old new : Nat) : State :=
  forEach (range 0 48) (fun p s =>
    if new.testBit p && !old.testBit p then (forEach (lportsOf p) (fun l s => s.holdLport l) s).settleModule p
    else if old.testBit p && !new.testBit p then
      (if s.dataPathUp then forEach (lportsOf p) (fun l s => s.trainLport l) s else s).settleModule p
    else s) s

/-- The power manager recomputes the budget (R497): clocking, held ports, PORTS_HELD on a change, and the mode. -/
def State.recompute (s : State) : State :=
  let reasons := s.leanReasons
  let old := s.power.held
  let new := s.heldMap
  let s1 := s.onPower (fun p => { p with held := new, leanCause := reasons })
  let s2 := s1.applyHeld old new
  let s3 := if new = old then s2 else s2.postHeld
  (s3.askClocking (reasons != 0)).followMode reasons

/-- A change of clocking completes (R502): to lean, the throttle is OFF first, then the clocks, then the DRAM step; to full, the
clocks, then DRAM, then the throttle is released. The mode follows, and a waiting opposite change begins. -/
def State.finishClocking (s : State) : State :=
  match s.power.changing with
  | none => s
  | some true =>
    let s1 := s.throttleOff true (powerOverride s.power.leanCause)
    let s2 := s1.onPower (fun p => { p with lean := true, changing := none })
    let s3 := (s2.clockingSpeed true (powerOverride s.power.leanCause)).followMode s.power.leanCause
    (match s3.power.changeWaits with
     | some c => (s3.onPower (fun p => { p with changeWaits := none })).askClocking c
     | none => s3)
  | some false =>
    let s1 := s.onPower (fun p => { p with lean := false, changing := none })
    let s2 := (s1.clockingSpeed false 0).throttleOff false 0
    let s3 := s2.followMode s.power.leanCause
    (match s3.power.changeWaits with
     | some c => (s3.onPower (fun p => { p with changeWaits := none })).askClocking c
     | none => s3)

end Sys2Proof.Machine
end

