-- ==== Sys2Proof/Machine/Sys.lean ====
section
/-! DEFINITION. The SYS and MODE groups (R368, R374, R376, R429–R435, R583). -/
namespace Sys2Proof.Machine
open Sys2Proof

/-! ### SYS.PING -/

def opSysPing : Op := (Op.plain 0x0101 .read .all).withRS.withU
/-- Returns the payload unchanged (R429). -/
def bodySysPing (m : Msg) (s : State) : Answer :=
  orDeny [(decide (lanePlenMax m.lane < m.plen), St.badLength)] s (doneWith m.payload s)
def execSysPing (m : Msg) (s : State) : Out := commandRow opSysPing bodySysPing m s

/-! ### SYS.STATUS -/

/-- The hottest die and its temperature in 0.1 °C (R429, R515). -/
def PowerSt.hottest (p : PowerSt) : Nat × Int :=
  match p.tj with
  | [] => (0, 0)
  | e :: l => l.foldl (fun a b => if a.2 < b.2 then b else a) e

/-- LEAD, UNDERSTUDY of the control complexes (R429, R376). -/
def leadBytes (s : State) : List Byte := leBytes 1 s.ctl.lead ++ leBytes 1 s.ctl.understudy

/-- VERSION and SVN of a running image, zero where none runs. -/
def imageVersion (i : Option Image) : Nat := match i with | some x => x.version | none => 0
def imageMeasure (i : Option Image) : Nat := match i with | some x => x.measure | none => 0
def imageSvn (i : Option Image) : Nat := match i with | some x => x.svn | none => 0

/-- STAGES: bit k for each stage that exists; a side stage sees its own only (R429). -/
def stagesMask (s : State) (viewer : Nat) : Nat :=
  if viewer = 0 then s.liveStages.foldl (fun a k => a + 2 ^ k) 0 else 2 ^ viewer

/-- The device status record (R429). -/
def sysStatusRecord (s : State) (viewer : Nat) : List Byte :=
  leBytes 4 0x153600B1 ++ leBytes 1 s.cmd.mode ++ leadBytes s ++ leBytes 1 (stagesMask s viewer) ++
    leBytes 8 Config.deviceId.toNat ++ leBytes 4 (imageVersion s.ctl.root) ++ leBytes 4 (imageVersion s.ctl.service) ++
    leBytes 8 s.localNs ++
    (if viewer = 0 then
      leBytes 8 s.calSeconds ++ leBytes 1 (flagNat s.fault.pinAsserted) ++ leBytes 1 s.fault.worst ++ zeros 2 ++
        leBytes 2 s.power.vinMv ++ leBytes 2 s.power.iin ++ leBytes 2 (unsignedOf s.power.hottest.2 16) ++ zeros 14
     else zeros 32)

def opSysStatus : Op := (Op.plain 0x0102 .read .all).withRS.withU
def bodySysStatus (m : Msg) (s : State) : Answer :=
  orDeny [(m.plen != 0, St.badLength)] s (doneWith (sysStatusRecord s (s.stageOf m)) s)
def execSysStatus (m : Msg) (s : State) : Out := commandRow opSysStatus bodySysStatus m s

/-! ### SYS.CONTROL_STATUS -/

def State.thread (s : State) (i : Nat) : Thread := SMap.get Thread.reset i s.ctl.threads

/-- A COMPLEX record (R376): a complex that runs no image reads zero in its version fields; the understudy runs one while READY
or RESYNC. -/
def complexRecord (s : State) (c : Nat) : List Byte :=
  let runs := !s.ctl.noService && (c == s.ctl.lead || s.ctl.understudy != 2)
  let r := if runs then s.ctl.root else none
  let v := if runs then s.ctl.service else none
  leBytes 4 (imageVersion r) ++ leBytes 4 (imageVersion v) ++ leBytes 1 (imageSvn r) ++ leBytes 1 (imageSvn v) ++ zeros 2 ++
    leBytes 4 (s.ctl.genReject.getD c 0) ++ leBytes 4 (s.ctl.sealDelayed.getD c 0) ++ leBytes 4 (s.ctl.lateBeat.getD c 0)

/-- THREAD entries: frame faults and restarts since LOAD, saturating at 0xFFFF (R376). -/
def threadRecords (s : State) : List Byte :=
  ((range 0 128).map (fun i =>
    leBytes 2 (satNat (s.thread i).faults 0xFFFF) ++ leBytes 2 (satNat (s.thread i).restarts 0xFFFF))).flatten

/-- The control complex status record of 584 bytes; a side stage sees LEAD and UNDERSTUDY only (R376). -/
def controlStatusRecord (s : State) (viewer : Nat) : List Byte :=
  leadBytes s ++
    (if viewer = 0 then
      zeros 2 ++ leBytes 4 s.ctl.sealed ++ leBytes 4 s.ctl.adopted ++ leBytes 4 (s.journalUsed / 1024) ++ leBytes 8 s.ctl.lastBeat ++
        complexRecord s 0 ++ complexRecord s 1 ++ threadRecords s
     else zeros 582)

def opSysControlStatus : Op := ((Op.plain 0x0103 .read .all).withRS).withU
def bodySysControlStatus (m : Msg) (s : State) : Answer :=
  orDeny [(m.plen != 0, St.badLength)] s (doneWith (controlStatusRecord s (s.stageOf m)) s)
def execSysControlStatus (m : Msg) (s : State) : Out := commandRow opSysControlStatus bodySysControlStatus m s

/-! ### Firmware replacement (R368) -/

def opSysFwLoad : Op := (Op.plain 0x0104 .owner .cfg).withA
/-- A chunk of a service image (R97, R368); the final one is accepted for verification. -/
def bodySysFwLoad (m : Msg) (s : State) : Answer :=
  match firstRefusal (chunkChecks m) with
  | some st => deny st s
  | none =>
    match takeChunk s.ctl.fwAssembly m with
    | .refused st => deny st s
    | .taken a =>
      if a.final && s.atLimit m then deny St.busy s
      else
        if a.final then accept (s.onCtl (fun c => { c with fwAssembly := none, fwChecking := c.fwChecking ++ [a.bytes] }))
        else done (s.onCtl (fun c => { c with fwAssembly := some a }))
def execSysFwLoad (m : Msg) (s : State) : Out := commandRow opSysFwLoad bodySysFwLoad m s

/-- The image that a service image's header and the checks of step 4 of R363 give (R361): `vendorOk`, `ownerOk`, the hash of
OWNER_PUB and the measurement are what verification finds. -/
def imageOfBytes (bs : List Byte) (vendorOk ownerOk : Bool) (ownerHash measure : Nat) : Image :=
  { magicOk := fieldLE bs 0 4 == 0x57464B54, kind := fieldLE bs 4 1, svn := fieldLE bs 5 1, version := fieldLE bs 8 4,
    build := fieldLE bs 16 8, vendorOk := vendorOk && fieldLE bs 12 4 == bs.length - 512, ownerOk := ownerOk,
    ownerHash := ownerHash, measure := measure }

/-- Does a service image pass step 4 of R363: MAGIC, KIND 2, SVN not below the counter, the signatures, and the enrolled key? -/
def serviceImageOk (c : ControlSt) (i : Image) : Bool :=
  i.magicOk && i.kind == 2 && decide (c.serviceSvn ≤ i.svn) && decide (i.svn ≤ 63) && i.vendorOk &&
    (match c.ownerKeys.getLast? with | some k => i.ownerOk && i.ownerHash == k | none => true)

/-- Root firmware ends verifying a loaded image (R368 step 2, R418): it is held and FW_STAGED completes the load, or the load
completes with CMD_DONE and BAD_FIELD. -/
def execFwStaged (vendorOk ownerOk : Bool) (ownerHash measure : Nat) (s : State) : Out :=
  .next (match s.ctl.fwChecking with
    | bytes :: rest =>
      let s1 := s.onCtl (fun c => { c with fwChecking := rest })
      if (s.findOut 0 0x0104).isSome then
        let img := imageOfBytes bytes vendorOk ownerOk ownerHash measure
        if serviceImageOk s.ctl img then
          (s1.onCtl (fun c => { c with fwStaged := some img })).finish 0 0x0104 Ev.fwStaged Lv.device 0 St.done (leBytes 4 img.version)
        else s1.finishPlain 0 0x0104 St.badField 0xFFFFFFFF
      else s1
    | [] => s)

def opSysFwActivate : Op := (Op.plain 0x0105 .owner .hrl).withA
/-- Starts the replacement of service firmware (R368): BUSY while a commit is accepted and not flipped, NOT_FOUND with no image
staged (log entry 15); otherwise the device enters INTERVAL. -/
def bodySysFwActivate (m : Msg) (s : State) : Answer :=
  orDeny [(m.plen != 0, St.badLength), (s.atLimit m, St.busy), (s.anyCommitPending, St.busy),
          (s.ctl.fwStaged.isNone, St.notFound)] s
    (accept ((s.onCtl (fun c => { c with activation := some { returnMode := s.cmd.mode, since := s.now } })).moveMode Md.interval 6 0))
def execSysFwActivate (m : Msg) (s : State) : Out := commandRow opSysFwActivate bodySysFwActivate m s

/-- A FIRMWARE record of the ledger: slot, VERSION, SVN and result (R488). -/
def firmwareRecord (slot version svn result : Nat) : List Byte := leBytes 1 slot ++ leBytes 4 version ++ leBytes 1 svn ++ leBytes 1 result

/-- Step 6 of R368: back to the mode held before, or to SAFE when SAFE was entered meanwhile (R510). -/
def State.endInterval (s : State) (ret : Nat) : State :=
  let s1 := s.onCtl (fun c => { c with activation := none })
  if s1.cmd.mode = Md.interval then (s1.moveMode ret 6 0).followMode s1.power.leanCause else s1

/-- The new image has adopted the state (R368 step 6): it runs, FW_ACTIVATED gives old and new VERSION. -/
def execFwActivated (s : State) : Out :=
  .next (match s.ctl.activation, s.ctl.fwStaged with
    | some a, some img =>
      let old := imageVersion s.ctl.service
      let s1 := s.onCtl (fun c => { c with fwPrevious := c.service, service := some img, fwStaged := none })
      let s2 := (s1.endInterval a.returnMode).ledgerWrite 3 (firmwareRecord 0 img.version img.svn 0)
      s2.finish 0 0x0105 Ev.fwActivated Lv.device 0 St.done (leBytes 4 old ++ leBytes 4 img.version)
    | _, _ => s)

/-- The activation fails: step 5 has not ended within 500 ms, or the new image faults (R368). The previous image runs on. -/
def State.failActivation (s : State) (status : Nat) : State :=
  match s.ctl.activation with
  | some a => (s.endInterval a.returnMode).finish 0 0x0105 Ev.fwActivateFailed Lv.device 0 status []
  | none => s

/-- FW_ACTIVATE_FAILED (R368): with the new image's fault, or once 500 ms have passed. -/
def execFwActivateFailed (faulted : Bool) (s : State) : Out :=
  .next (match s.ctl.activation with
    | some a =>
      if faulted then s.failActivation St.hwFault
      else if a.since + tkMs 500 ≤ s.now then s.failActivation St.timeout else s
    | none => s)

def opSysSwitchover : Op := Op.plain 0x0106 .owner .ops
/-- A planned takeover (R374): refused while the understudy is RESYNC (BUSY) or ABSENT (HW_FAULT); otherwise a generation is
sealed and adopted and LEAD_SEL flips; the response comes from the new lead. -/
def bodySysSwitchover (m : Msg) (s : State) : Answer :=
  orDeny [(m.plen != 0, St.badLength), (s.ctl.understudy == 1, St.busy), (s.ctl.understudy == 2, St.hwFault)] s
    (done ((((s.onCtl (fun c => { c with sealed := c.sealed + 1, adopted := c.sealed + 1 })).flipLead).newLeadAcks).announceTakeover 0 0))
def execSysSwitchover (m : Msg) (s : State) : Out := commandRow opSysSwitchover bodySysSwitchover m s

/-! ### SYS.RESET (R430) -/

def opSysReset : Op := Op.plain 0x0107 .board .all
/-- Checks KIND and KEY and schedules the reset; it begins 1 ms after the response doorbell. -/
def bodySysReset (m : Msg) (s : State) : Answer :=
  orDeny [(m.plen != 8, St.badLength), (decide (1 < m.u8 0) || !m.zero 1 3 || m.u32 4 != 0x54455352, St.badField)] s
    (done (s.onCmd (fun c => { c with resetPlan := some { cold := m.u8 0 == 1, due := none, sender := s.mbOf m } })))
def execSysReset (m : Msg) (s : State) : Out := commandRow opSysReset bodySysReset m s

/-- The scheduled reset begins once it is due: recorded in the ledger with its sender, and the device passes through LOAD. -/
def execSysResetStart (s : State) : Out :=
  .next (match s.cmd.resetPlan with
    | some p => (match p.due with
        | some d => if d ≤ s.now then s.resetToLoad 7 p.sender [] else s
        | none => s)
    | none => s)

/-! ### SYS.SET, SYS.GET, SYS.ASYNC_STATUS (R431, R432) -/

/-- Scope of a setting: 0 device, 1 stage, 2 lport; none for an unknown KEY. -/
def settingScope (key : Nat) : Option Nat :=
  if key = 1 ∨ key = 2 then some 0
  else if (0x10 ≤ key ∧ key ≤ 0x15) ∨ (0x18 ≤ key ∧ key ≤ 0x20) then some 1
  else if 0x30 ≤ key ∧ key ≤ 0x38 then some 2 else none

/-- Is a value in the range of its setting (R431)? -/
def settingInRange (key v : Nat) : Bool :=
  let within := fun (a b : Nat) => decide (a ≤ v) && decide (v ≤ b)
  if key = 0x01 then within 100 60000 else if key = 0x02 then within 10 10000 else if key = 0x10 then within 1 65535
  else if key = 0x11 then within 1 1000000 else if key = 0x12 then within 0 1 else if key = 0x13 then within 256 65536
  else if key = 0x14 then within 100 100000 else if key = 0x15 then within 16 8192
  else if 0x18 ≤ key ∧ key ≤ 0x1F then true else if key = 0x20 then within 0 0xFFFFFFFF
  else if key = 0x30 then within 0 1 else if key = 0x31 then within 1 1000 else if key = 0x32 then within 1 1000000000
  else if key = 0x33 ∨ key = 0x34 then within 1 4294967295 else if key = 0x35 then within 100 60000
  else if key = 0x36 ∨ key = 0x37 then within 1 600 else if key = 0x38 then within 1 65535 else false

/-- A setting record: KEY, INDEX, VALUE. -/
def settingKey (r : List Byte) : Nat := fieldLE r 0 2
def settingIndex (r : List Byte) : Nat := fieldLE r 2 2
def settingValue (r : List Byte) : Nat := fieldLE r 8 8

/-- Fields of a record in range: KEY known, INDEX an lport for lport scope and zero otherwise, reserved bytes zero. -/
def settingFieldsOk (r : List Byte) (withValue : Bool) : Bool :=
  zeroAt r 4 4 && (match settingScope (settingKey r) with
    | some 2 => decide (settingIndex r < 384)
    | some _ => settingIndex r == 0
    | none => false) && (!withValue || settingInRange (settingKey r) (settingValue r))

/-- May a stage name the setting: the owner for device scope when it sets, the lport's stage for lport scope. -/
def settingAllowed (s : State) (k : Nat) (owner setting : Bool) (r : List Byte) : Bool :=
  match settingScope (settingKey r) with
  | some 0 => owner || !setting
  | some 2 => s.ownsLport k (settingIndex r)
  | _ => true

/-- Where a setting is kept: by lport, by the sender's stage, or once. -/
def settingSlot (k : Nat) (r : List Byte) : Nat :=
  match settingScope (settingKey r) with | some 2 => settingIndex r | some 1 => k | _ => 0

def opSysSet : Op := (Op.plain 0x0108 .stage .ops).withRS
/-- Every record is checked before any is applied. -/
def bodySysSet (m : Msg) (s : State) : Answer :=
  let k := s.stageOf m
  let rs := m.records 0 16
  orDeny [(m.plen == 0 || m.plen % 16 != 0 || decide (1023 * 16 < m.plen), St.badLength),
          (!rs.all (fun r => settingFieldsOk r true), St.badField),
          (!rs.all (settingAllowed s k (s.isOwner m) true), St.notPermitted)] s
    (done (rs.foldl (fun s r => s.putSetting (settingKey r) (settingSlot k r) (settingValue r)) s))
def execSysSet (m : Msg) (s : State) : Out := commandRow opSysSet bodySysSet m s

def opSysGet : Op := (Op.plain 0x0109 .read .all).withRS
/-- Returns the records with VALUE filled in. -/
def bodySysGet (m : Msg) (s : State) : Answer :=
  let k := s.stageOf m
  let rs := m.records 0 16
  orDeny [(m.plen == 0 || m.plen % 16 != 0 || decide (1023 * 16 < m.plen), St.badLength),
          (!rs.all (fun r => settingFieldsOk r false), St.badField),
          (!rs.all (settingAllowed s k (s.isOwner m) false), St.notPermitted)] s
    (doneWith ((rs.map (fun r => r.take 8 ++ leBytes 8 (s.setting (settingKey r) (settingSlot k r)))).flatten) s)
def execSysGet (m : Msg) (s : State) : Out := commandRow opSysGet bodySysGet m s

def opSysAsyncStatus : Op := (Op.plain 0x010A .read .all).withRS.withU
/-- COUNT, then TAG, OPCODE, SEQ and AGE in ms of the sender's accepted and uncompleted commands. -/
def bodySysAsyncStatus (m : Msg) (s : State) : Answer :=
  let os := (s.mb (s.mbOf m)).outstanding
  orDeny [(m.plen != 0, St.badLength)] s
    (doneWith (leBytes 4 os.length ++
      (os.map (fun o => leBytes 4 o.tag ++ leBytes 2 o.opcode ++ leBytes 2 o.seq ++ leBytes 4 ((s.now - o.acceptedAt) / tkMs 1))).flatten) s)
def execSysAsyncStatus (m : Msg) (s : State) : Out := commandRow opSysAsyncStatus bodySysAsyncStatus m s

/-! ### MODE.SET, MODE_CHANGED, MODE.STATUS (R433–R435, R508–R513, R583) -/

/-- Transitions a MODE.SET may ask for (R510, R457): none of INTERVAL, LOAD or LEAN is a target. -/
def commandedMove (s : State) (target : Nat) : Bool :=
  let m := s.cmd.mode
  if target = Md.dark then m != Md.dark
  else if target = Md.house then m == Md.run || m == Md.lean || m == Md.safe || m == Md.rehearsal
  else if target = Md.run then m == Md.house || (m == Md.safe && (s.cmd.commandedSafe || s.fault.standing.isEmpty))
  else if target = Md.rehearsal then m == Md.house
  else m == Md.run || m == Md.lean || m == Md.interval || m == Md.rehearsal || m == Md.safe

def opModeSet : Op := ((Op.plain 0x0201 .board .all).withA).withU
/-- Requests a transition (R433): the REASON is kept in the ledger; the change itself is MODE_CHANGED. -/
def bodyModeSet (m : Msg) (s : State) : Answer :=
  let t := m.u8 0
  orDeny [(m.plen != 8, St.badLength),
          (!(t == Md.dark || t == Md.house || t == Md.run || t == Md.rehearsal || t == Md.safe) || !m.zero 1 3, St.badField),
          (s.atLimit m, St.busy), (!commandedMove s t, St.wrongMode),
          (s.cmd.mode == Md.house && !s.fault.standing.isEmpty, St.hwFault),
          (s.cmd.transition.isSome, St.busy)] s
    (accept ((s.onCmd (fun c => { c with
      reason := m.u32 4,
      transition := some { target := t, cause := 0, mb := some (s.mbOf m), tag := m.tag } })).ledgerWrite 6
        (leBytes 1 t ++ leBytes 4 (m.u32 4))))
def execModeSet (m : Msg) (s : State) : Out := commandRow opModeSet bodyModeSet m s

/-- MODE_CHANGED as the completion of a MODE.SET, to the command's mailbox, and to MB0 when that is another. -/
def State.completeMode (s : State) (r old : Nat) : State :=
  let pay := modeChangedPayload old s.cmd.mode s.cmd.cause 0 0 s.cmd.recoveries
  let s1 := s.finish r 0x0201 Ev.modeChanged Lv.device 0 St.done pay
  if r = 0 then s1 else s1.post 0 Ev.modeChanged Lv.device 0 pay

/-- Entry to DARK (R512, R513): a resume generation stands sealed, and the rails are removed: only the always-on domain runs on. In
LOAD nothing new is sealed: the generation that the start was to resume from stays, where there was one. -/
def State.goDark (s : State) (why : DarkCause) (cause : Nat) : State :=
  let kept := if s.cmd.mode = Md.load then (if s.cmd.prevMode = Md.dark then s.cmd.resume else none)
    else some (imageMeasure s.ctl.root, imageMeasure s.ctl.service, s.cmd.fwdIntent)
  let s1 := s.onCmd (fun c => { c with resume := kept, dark := why })
  let s2 := (s1.setMode Md.dark cause).railsOff
  s2.onPower (fun p => { p with pwrGood := false, gated := true, rootLock := false })

/-- A commanded transition is made (R433, R508): the intent, the budget and the mode it permits, and its completion. A MODE.SET RUN
that finds no port admitted changes no mode and completes with CMD_DONE. -/
def State.makeTransition (s : State) (t : Transition) : State :=
  let r := t.mb.getD 0
  let old := s.cmd.mode
  if t.target = Md.run then
    let s0 := (s.onCmd (fun c => { c with transition := none })).recompute
    let s1 := s0.onCmd (fun c => { c with fwdIntent := true })
    if s1.cmd.mode != old then s1.completeMode r old
    else if s1.intendedMode = Md.house then s1.finishPlain r 0x0201 St.done 0xFFFFFFFF
    else (s1.setMode s1.intendedMode 0).completeMode r old
  else if t.target = Md.house then
    ((s.onCmd (fun c => { c with fwdIntent := false })).setMode Md.house 0).completeMode r old
  else if t.target = Md.rehearsal then (s.setMode Md.rehearsal 0).completeMode r old
  else if t.target = Md.safe then
    (if old = Md.safe then
      ((s.onCmd (fun c => { c with commandedSafe := true, transition := none, cause := 0 })).onFault
        (fun f => { f with quietEnd := none })).completeMode r old
     else ((s.abandonCommits 0).setMode Md.safe 0).completeMode r old)
  else
    let s1 := s.onCmd (fun c => { c with mode := Md.dark, prevMode := old, cause := 0, transition := none })
    let s2 := s1.completeMode r old
    (s2.onCmd (fun c => { c with mode := old, prevMode := s.cmd.prevMode })).goDark .command 0

/-- A mode transition completes (R510). -/
def execModeChanged (s : State) : Out :=
  .next (match s.cmd.transition with | some t => s.makeTransition t | none => s)

/-- QUIET_LEFT (R435): ms left of a running quiet period; the two markers of a SAFE whose period does not run; 0 outside SAFE. -/
def quietLeft (s : State) : Nat :=
  if s.cmd.mode != Md.safe then 0
  else if s.cmd.commandedSafe then 0xFFFFFFFF
  else match s.fault.quietEnd with
    | some e => (e - s.now) / tkMs 1
    | none => 0xFFFFFFFE

/-- The target of a transition in progress, or 0xFF (R435). -/
def pendingMode (s : State) : Nat := match s.cmd.transition with | some t => t.target | none => 0xFF

def modeStatusRecord (s : State) : List Byte :=
  leBytes 1 s.cmd.mode ++ leBytes 1 s.cmd.prevMode ++ leBytes 1 s.cmd.cause ++ leBytes 1 (pendingMode s) ++ leBytes 8 s.cmd.entered ++
    leBytes 4 s.cmd.recoveries ++ leBytes 4 (quietLeft s) ++ zeros 4

def opModeStatus : Op := (Op.plain 0x0202 .read .all).withRS.withU
def bodyModeStatus (m : Msg) (s : State) : Answer :=
  orDeny [(m.plen != 0, St.badLength)] s (doneWith (modeStatusRecord s) s)
def execModeStatus (m : Msg) (s : State) : Out := commandRow opModeStatus bodyModeStatus m s

end Sys2Proof.Machine
end

