-- ==== Sys2Proof/Machine/Power.lean ====
section
/-! DEFINITION. Power, clocks and temperature: their events and the POWER commands (R494–R507, R515–R517, R577). -/
namespace Sys2Proof.Machine
open Sys2Proof

/-- Post to MB0 and to the mailbox of every live stage, and raise the power source (R517, R380). -/
def State.postPower (s : State) (code : Nat) (pay : List Byte) : State :=
  (s.postAll s.liveStages code Lv.device 0 pay).raiseIrq 92

/-- The band after VIN has stayed beyond a threshold (R494): 0 LOW, 1 LEAN, 2 FULL, with the hysteresis of each threshold. -/
def bandAfter (old vin : Nat) : Nat :=
  if old = 2 then (if vin < 8000 then 0 else if vin < 10800 then 1 else 2)
  else if old = 1 then (if vin < 8000 then 0 else if 11000 < vin then 2 else 1)
  else (if 11000 < vin then 2 else if 8200 < vin then 1 else 0)

/-- VIN_BAND's payload: old band, new band, VIN in mV, OVERRIDE (R494, R507). -/
def vinBandPayload (old new vin : Nat) : List Byte := leBytes 1 old ++ leBytes 1 new ++ leBytes 2 vin ++ leBytes 1 1 ++ zeros 3

/-- VIN_BAND is posted for each crossing on the way from one band to another (R511). -/
def State.postBands (s : State) (old new vin : Nat) : State :=
  if old = new then s
  else if old + 2 = new ∨ new + 2 = old then
    (s.postPower Ev.vinBand (vinBandPayload old 1 vin)).postPower Ev.vinBand (vinBandPayload 1 new vin)
  else s.postPower Ev.vinBand (vinBandPayload old new vin)

/-- DARK by the supply or by a trip (R510, R513): the last generation sealed under R369 stands in for a resume generation, but for an
overvoltage, which R513 does not name. -/
def State.hwDark (s : State) (why : DarkCause) (cause : Nat) (resumable : Bool) : State :=
  if s.cmd.mode = Md.dark then s
  else
    let s1 := (s.abandonTransition).goDark why cause
    s1.onCmd (fun c => { c with resume := if resumable && (s.cmd.mode == Md.load || decide (0 < s.ctl.sealed)) then c.resume else none })

/-- VIN falls below AON: everything but the ledger is lost, the calendar stops at its last stored value (R514). -/
def State.vinRemoved (s : State) : State :=
  let t := s.resetTo Md.dark 2 .noVin
  { t with fault := { FaultSt.reset with lifeReal := s.fault.lifeReal, lifeInjected := s.fault.lifeInjected },
           power := { t.power with aonUp := false, uvloOk := false, pwrGood := false, thermLow := false, trips := [] },
           cmd := { t.cmd with resume := none }, mem := MemSt.reset }

/-- Every start passes LOAD: the device leaves DARK for LOAD with root firmware to be booted, and START_UP takes it on (R510, R512). The
fault records become the previous ones (R448), and both clocks start again (R465). -/
def State.leaveDark (s : State) : State :=
  { s with ctl := s.ctl.overReset, fault := s.fault.overDark, time := s.timeOverDark,
           cmd := { s.cmd with mode := Md.load, prevMode := Md.dark, cause := 1, entered := 0 } }

/-- VIN stands between UVLO and OVP: the pins of the supply and the band follow it. -/
def State.vinInRange (s : State) (vin : Nat) : State :=
  s.onPower (fun p => { p with
    vinMv := vin, aonUp := p.aonUp || decide (3000 < vin), uvloOk := p.uvloOk || decide (4700 < vin), ovp := p.ovp && !decide (vin < 20000),
    band := bandAfter s.power.band vin })

/-- VIN crosses a threshold after its debounce (R494): AON, UVLO, OVP, or a band boundary; the budget is computed again (R497). A supply that is
good again ends a DARK that no trip caused (R510). -/
def execVinBand (vin : Nat) (s : State) : Out :=
  .next (if vin < 2900 then s.vinRemoved
    else
      let s1 := s.onPower (fun p => { p with vinMv := vin, aonUp := p.aonUp || decide (3000 < vin) })
      if vin < 4400 then
        (s1.hwDark .uvlo 2 true).onPower (fun p => { p with uvloOk := false, pwrGood := false })
      else if 20500 < vin then (s1.hwDark .ovp 2 false).onPower (fun p => { p with ovp := true })
      else
        let s3 := s.vinInRange vin
        let live := s3.power.uvloOk && !s3.power.ovp
        if s.cmd.mode = Md.dark then
          (if live && !(s.power.uvloOk && !s.power.ovp) && s.cmd.dark != DarkCause.trip then s3.leaveDark else s3)
        else if s.cmd.mode = Md.load then s3 else (s3.postBands s.power.band (bandAfter s.power.band vin) vin).recompute)

/-- CURRENT_LIMIT's payload: step, taken 1 or released 0, IIN, OVERRIDE (R498, R507). -/
def currentLimitPayload (step taken iin : Nat) : List Byte := leBytes 1 step ++ leBytes 1 taken ++ leBytes 2 iin ++ leBytes 1 2 ++ zeros 3

/-- How long after a step the next may be taken (R498). -/
def clWait (step : Nat) : Nat := if step = 0 then 0 else if step = 1 then tkUs 200 else tkMs 1

/-- The admitted port latest in precedence order (R498). -/
def State.latestAdmitted (s : State) : Option Nat := (s.walkOrder.filter (fun p => s.admitted.1.contains p)).getLast?

/-- The first untaken step is taken: 1 throttles, 2 turns lean, each later one holds the port admitted last. -/
def State.takeLimitStep (s : State) (iin : Nat) : State :=
  let step := s.power.clStep + 1
  let s1 := s.onPower (fun p => { p with iin := iin, clStep := step, clAt := s.now, clLow := s.now })
  let s2 := if step = 1 then s1.limitThrottle true
    else if step = 2 then s1.recompute
    else match s1.latestAdmitted with
      | some p => (s1.onPower (fun q => { q with clHeld := q.clHeld ++ [p] })).recompute
      | none => s1
  s2.postPower Ev.currentLimit (currentLimitPayload step 1 iin)

/-- The last step taken is released. -/
def State.releaseLimitStep (s : State) (iin : Nat) : State :=
  let step := s.power.clStep
  let s1 := s.onPower (fun p => { p with
    iin := iin, clStep := step - 1, clLow := s.now, clAt := s.now, clHeld := if 3 ≤ step then p.clHeld.dropLast else p.clHeld })
  let s2 := if step = 1 then s1.limitThrottle false else s1.recompute
  s2.postPower Ev.currentLimit (currentLimitPayload step 0 iin)

/-- IIN at or above LIMIT for the step time: the first untaken step is taken (R498). IIN is in units of 0.01 A, LIMIT of 0.1 A. -/
def execCurrentLimitStep (iin : Nat) (s : State) : Out :=
  .next (if iin < 10 * s.power.limit || s.now < s.power.clAt + clWait s.power.clStep then s.onPower (fun p => { p with iin := iin })
    else s.takeLimitStep iin)

/-- IIN at or below 0.9 × LIMIT for 1 s since the last step was taken or released: one step is released, in reverse order (R498). -/
def execCurrentLimitRelease (iin : Nat) (s : State) : Out :=
  .next (if s.power.clStep = 0 || 9 * s.power.limit < iin || s.now < s.power.clLow + tkS 1 then s.onPower (fun p => { p with iin := iin })
    else s.releaseLimitStep iin)

def State.avsOf (s : State) (d : Nat) : Avs := SMap.get Avs.reset d s.power.avs

/-- AVS_STEP (R499): every 1 ms a die's rail moves at most one step of 5 mV, up when a monitor lacks margin, down while every monitor
has it; a loop that would leave its window pins at the bound and raises LOOP_AT_LIMIT once for the episode (R505). -/
def execAvsStep (die : Nat) (up : Bool) (s : State) : Out :=
  onUnit (decide (die < 11))
    (let a := s.avsOf die
     let out := if up then decide (a.hi < a.mv + 5) else decide (a.mv < a.lo + 5)
     let put := fun (x : Avs) (s : State) => s.onPower (fun p => { p with avs := SMap.put Avs.reset die x p.avs })
     if out then
       let s1 := put { a with mv := (if up then a.hi else a.lo), pinned := some s.now } s
       if !loopEpisodeNew a.pinned s.now then s1 else s1.post 0 Ev.loopAtLimit Lv.die die (loopPayload 0 die (flagNat up))
     else put { a with mv := (if up then a.mv + 5 else a.mv - 5) } s)

/-- CLOCKING_CHANGE (R502): the change in progress completes. -/
def execClockingChange (s : State) : Out := .next s.finishClocking

/-- Every die reads at most, or less than, a temperature in 0.1 °C. -/
def PowerSt.allAtMost (p : PowerSt) (t : Int) : Bool := p.tj.all (fun e => decide (e.2 ≤ t))
def PowerSt.allBelow (p : PowerSt) (t : Int) : Bool := p.tj.all (fun e => decide (e.2 < t))

/-- TWARN of a die (R503): THERMAL_WARN at the rise, over again once the die has fallen 5 °C below. -/
def State.warnDie (s : State) (die : Nat) (tj : Int) : State :=
  if (s.power.twarn * 10 : Nat) ≤ tj then
    (if s.power.warned.contains die then s
     else (s.onPower (fun p => { p with warned := p.warned ++ [die] })).postPower Ev.thermalWarn
       (leBytes 1 die ++ zeros 1 ++ leBytes 2 (unsignedOf tj 16)))
  else if tj ≤ ((s.power.twarn * 10 : Nat) : Int) - 50 then s.onPower (fun p => { p with warned := p.warned.filter (fun d => d != die) })
  else s

/-- THERM_N (R503): low from 110 °C on any die, released at 100 °C on every die. -/
def State.thermPin (s : State) (tj : Int) : State :=
  if 1100 ≤ tj && !s.power.thermLow then (s.onPower (fun p => { p with thermLow := true })).raiseIrq 92
  else if s.power.thermLow && s.power.allAtMost 1000 then s.onPower (fun p => { p with thermLow := false })
  else s

/-- TLEAN (R503): lean clocking from 108 °C on any die until every die has read at most 103 °C for 10 s. -/
def State.tleanRule (s : State) (tj : Int) : State :=
  if 1080 ≤ tj then
    (let s1 := s.onPower (fun p => { p with tlean := true, tleanBelow := none })
     if s.power.tlean || s.cmd.mode ≤ 1 then s1 else s1.recompute)
  else if s.power.tlean then
    (if s.power.allAtMost 1030 then
      match s.power.tleanBelow with
      | none => s.onPower (fun p => { p with tleanBelow := some s.now })
      | some t0 =>
        if t0 + tkS 10 ≤ s.now then
          let s1 := s.onPower (fun p => { p with tlean := false, tleanBelow := none })
          if s.cmd.mode ≤ 1 then s1 else s1.recompute
        else s
     else s.onPower (fun p => { p with tleanBelow := none }))
  else s

/-- TEMPERATURE_READING (R503, R504): the power manager reads a die's hottest sensor, in 0.1 °C. -/
def execTemperatureReading (die : Nat) (tj : Int) (s : State) : Out :=
  onUnit (decide (die < 11))
    (let s1 := s.onPower (fun p => { p with tj := SMap.insert die tj p.tj })
     let s2 := s1.onPower (fun p => { p with tripBelow := if p.allBelow 900 then some (p.tripBelow.getD s.now) else none })
     let s3 := if s.cmd.mode ≤ 1 then s2 else s2.warnDie die tj
     (s3.thermPin tj).tleanRule tj)

/-- Trips within the last 24 h (R504). -/
def State.trips24 (s : State) : List Nat := s.power.trips.filter (fun t => decide (s.now < t + tkS 86400))

/-- THERMAL_TRIP (R504): a die reaches 115 °C, and hardware takes the device to DARK with cause THERMAL. -/
def execThermalTrip (die : Nat) (s : State) : Out :=
  onUnit (decide (die < 11))
    (if s.cmd.mode = Md.dark then s
     else (s.onPower (fun p => { p with trips := s.trips24 ++ [s.now], tripBelow := none })).hwDark .trip 3 true)

/-- THERMAL_DARK_EXIT (R504): once every die has read below 90 °C for 60 s, after the first and the second trip within 24 h. -/
def execThermalDarkExit (s : State) : Out :=
  .next (if s.cmd.mode == Md.dark && s.cmd.dark == DarkCause.trip && s.power.uvloOk && !s.power.ovp && decide (s.trips24.length < 3) &&
      (match s.power.tripBelow with | some t => decide (t + tkS 60 ≤ s.now) | none => false)
    then s.leaveDark else s)

/-- RESET_N (R514, R577): a low pulse of `lowNs`. Shorter than 200 ns it is ignored, from 1 µs it resets, between them `taken` says which
of the two outcomes it has. In DARK it starts the device, once VIN is above UVLO. -/
def execResetN (lowNs : Nat) (taken : Bool) (s : State) : Out :=
  .next (if decide (lowNs < 200) || (decide (lowNs < 1000) && !taken) then s
    else if s.cmd.mode = Md.dark then (if s.power.uvloOk && !s.power.ovp then s.leaveDark else s)
    else
      let t := s.resetToLoad 7 0xFE []
      (t.onCmd (fun c => { c with resume := none })).onPower (fun p => { p with pwrGood := false }))

/-! ### POWER commands (R515, R516) -/

def powerStatusRecord (s : State) (viewer : Nat) : List Byte :=
  let inP := s.power.vinMv * s.power.iin / 100000
  leBytes 1 s.power.band ++ leBytes 1 (flagNat s.power.lean) ++ leBytes 1 s.power.clStep ++ leBytes 1 s.power.leanCause ++
    leBytes 2 s.power.vinMv ++ leBytes 2 s.power.iin ++ leBytes 2 s.power.limit ++ leBytes 2 s.power.reserve ++
    leBytes 4 (s.availPower / 10) ++ leBytes 4 (s.admitted.2 / 10) ++ leBytes 8 s.power.held ++
    leBytes 2 (inP * 92 / 100) ++ leBytes 2 inP ++ leBytes 2 (unsignedOf s.power.hottest.2 16) ++ leBytes 1 s.power.hottest.1 ++
    leBytes 1 s.trips24.length ++
    (if viewer = 0 then ((range 0 11).map (fun d => leBytes 2 (s.avsOf d).mv)).flatten ++ zeros 6 else zeros 28)

def opPowerStatus : Op := (Op.plain 0x0F01 .read .all).withRS.withU
def bodyPowerStatus (m : Msg) (s : State) : Answer :=
  orDeny [(m.plen != 0, St.badLength)] s (doneWith (powerStatusRecord s (s.stageOf m)) s)
def execPowerStatus (m : Msg) (s : State) : Out := commandRow opPowerStatus bodyPowerStatus m s

def opPowerLimit : Op := Op.plain 0x0F02 .board .all
def bodyPowerLimit (m : Msg) (s : State) : Answer :=
  let lim := m.u16 0
  orDeny [(m.plen != 4, St.badLength), (decide (lim < 200) || decide (1300 < lim) || decide (200 < m.u16 2), St.badField)] s
    (done ((s.onPower (fun p => { p with limit := lim, reserve := m.u16 2 })).recompute))
def execPowerLimit (m : Msg) (s : State) : Out := commandRow opPowerLimit bodyPowerLimit m s

def opPowerPrecedence : Op := (Op.plain 0x0F03 .owner .ops).withRS
def bodyPowerPrecedence (m : Msg) (s : State) : Answer :=
  let n := m.u8 0
  let ps : List Nat := (m.payload.drop 4).map (fun b => b.toNat)
  orDeny [(decide (m.plen < 4) || m.plen != 4 + n, St.badLength),
          (decide (48 < n) || !m.zero 1 3 || ps.any (fun p => decide (47 < p)) || !decide ps.Nodup, St.badField)] s
    (done ((s.onPower (fun p => { p with precedence := ps })).recompute))
def execPowerPrecedence (m : Msg) (s : State) : Out := commandRow opPowerPrecedence bodyPowerPrecedence m s

def opPowerBounds : Op := (Op.plain 0x0F04 .owner .ops).withRS
/-- POWER.BOUNDS (R516): the AVS window of a die inside its fused limits, and TWARN of every die. -/
def bodyPowerBounds (m : Msg) (s : State) : Answer :=
  let d := m.u8 0
  let a := s.avsOf d
  let lo := m.u16 2
  let hi := m.u16 4
  orDeny [(m.plen != 6, St.badLength),
          (decide (10 < d) || decide (m.u8 1 < 70) || decide (110 < m.u8 1) || decide (hi < lo) || decide (lo < a.fuseLo) ||
            decide (a.fuseHi < hi), St.badField)] s
    (done ((s.onPower (fun p => { p with
      twarn := m.u8 1, avs := SMap.put Avs.reset d { a with lo := lo, hi := hi } p.avs })).recompute))
def execPowerBounds (m : Msg) (s : State) : Out := commandRow opPowerBounds bodyPowerBounds m s

end Sys2Proof.Machine
end

