-- ==== Sys2Proof/Machine/Boot.lean ====
section
/-! DEFINITION. Start-up: the choice of images, the playbill, the population of external memory, resume, and HOUSE (R326, R361–R364,
R512, R513, R520–R523, R532). -/
namespace Sys2Proof.Machine
open Sys2Proof

/-! ### Boot images (R363) -/

/-- What the choice between two slots found: the slot (1 A, 2 B) and image that run, and those tried before that failed. -/
structure Pick where
  chosen : Option (Nat × Image)
  failed : List (Nat × Image)
  deriving DecidableEq, Repr

/-- Candidates of a kind, the higher VERSION first; slot A first between equals (log entry 107). -/
def candidates (kind svn : Nat) (a b : Option Image) : List (Nat × Image) :=
  let ok := fun (i : Image) => i.magicOk && i.kind == kind && decide (svn ≤ i.svn)
  let la := ((a.toList).filter ok).map (fun i => (1, i))
  let lb := ((b.toList).filter ok).map (fun i => (2, i))
  match la, lb with
  | [x], [y] => if x.2.version < y.2.version then [y, x] else [x, y]
  | _, _ => la ++ lb

/-- Try the candidates in order until one verifies. -/
def pickFrom (verify : Image → Bool) : List (Nat × Image) → List (Nat × Image) → Pick
  | [], failed => { chosen := none, failed := failed }
  | x :: l, failed => if verify x.2 then { chosen := some x, failed := failed } else pickFrom verify l (failed ++ [x])

/-- Root firmware (steps 1 and 2) and service firmware (step 4). -/
def pickRoot (c : ControlSt) (b : BootInput) : Pick := pickFrom (fun i => i.vendorOk) (candidates 1 c.rootSvn b.rootA b.rootB) []
def pickService (c : ControlSt) (b : BootInput) : Pick := pickFrom (serviceImageOk c) (candidates 2 c.serviceSvn b.serviceA b.serviceB) []

/-- FIRMWARE records of a choice: the slots that failed, and the one that runs. Slots 1, 2 root A, B; 3, 4 service A, B. -/
def State.recordPick (s : State) (base : Nat) (p : Pick) : State :=
  let s1 := p.failed.foldl (fun s x => s.ledgerWrite 3 (firmwareRecord (base + x.1) x.2.version x.2.svn 1)) s
  match p.chosen with
  | some x => s1.ledgerWrite 3 (firmwareRecord (base + x.1) x.2.version x.2.svn 0)
  | none => s1

/-- No candidate verifies: the device stays in LOAD with BOOT_FAIL and holds FAULT_N low (cause 1 ROOT, 2 SERVICE). -/
def State.bootFailed (s : State) (cause : Nat) : State :=
  ((s.onCtl (fun c => { c with bootFail := true, bootCause := cause })).onFault (fun f => { f with
    pinAsserted := true, pulseEnd := none, pinHeld := true })).raiseIrq 89

/-! ### The playbill (R520–R523) -/

/-- A valid copy (R520): MAGIC, FORMAT, LENGTH and CRC. -/
def playValid (c : List Byte) : Bool :=
  let n := fieldLE c 6 2
  fieldLE c 0 4 == 0x4C425950 && fieldLE c 4 2 == 1 && decide (16 ≤ n) && decide (n ≤ 4096) && decide (n ≤ c.length) &&
    fieldLE c 12 4 == crc32c (sliceB c 0 12 ++ sliceB c 16 (n - 16))

/-- The records of a copy: TYPE and body; `none` for a body that runs over the end (log entry 109). -/
def playRecords : Nat → List Byte → List (Nat × Option (List Byte))
  | 0, _ => []
  | fuel + 1, bs =>
    if bs.length < 4 then []
    else
      let n := fieldLE bs 2 2
      if bs.length < 4 + n then [(fieldLE bs 0 2, none)]
      else (fieldLE bs 0 2, some (sliceB bs 4 n)) :: playRecords fuel (bs.drop (4 + n))

/-- The copy in use: the valid one with the higher GEN, copy A between equals. -/
def playChoice (a b : Option (List Byte)) : Option (List Byte) :=
  match a.filter playValid, b.filter playValid with
  | some x, some y => some (if fieldLE x 8 4 < fieldLE y 8 4 then y else x)
  | some x, none => some x
  | none, y => y

/-- Each map names every device lane once (R522). -/
def lanePermutation (m : Nat) : Bool := decide ((range 0 8).map (fun i => bitsOf m (3 * i) 3)).Nodup

def chunksOf (n : Nat) : Nat → List Byte → List (List Byte)
  | 0, _ => []
  | k + 1, bs => bs.take n :: chunksOf n k (bs.drop n)

/-- The CAGES record (R522, R523). -/
def cagesOf (b : List Byte) : Option (SMap Cage) :=
  let es := chunksOf 12 (b.length / 12) b
  let cage := fun (e : List Byte) => fieldLE e 0 1
  let good := fun (e : List Byte) => decide (cage e < 48) && decide (fieldLE e 1 1 < 48) && lanePermutation (fieldLE e 2 3) &&
    lanePermutation (fieldLE e 5 3)
  if b.length % 12 = 0 && decide (es.length ≤ 48) && es.all good && decide (es.map cage).Nodup && decide (es.map (fun e => fieldLE e 1 1)).Nodup
  then some (es.foldl (fun a e =>
    let x : Cage := { port := fieldLE e 1 1, txMap := fieldLE e 2 3, rxMap := fieldLE e 5 3, txPol := fieldLE e 8 1, rxPol := fieldLE e 9 1,
                      maxPower := fieldLE e 10 1 }
    SMap.insert (cage e) x a) [])
  else none

/-- The ZONES record (R521). -/
def zonesOf (b : List Byte) : Option (List Zone) :=
  let es := chunksOf 8 (b.length / 8) b
  if b.length % 8 = 0 && decide (es.length ≤ 16) then
    some (es.map (fun e => { number := fieldLE e 0 1, hot := fieldLE e 1 1, cages := fieldLE e 2 6, raised := false }))
  else none

/-- The PRECEDENCE record: COUNT, then COUNT different ports. -/
def precedenceOf (b : List Byte) : Option (List Nat) :=
  let ps : List Nat := (b.drop 1).map (fun x => x.toNat)
  if b.length = 1 + fieldLE b 0 1 && decide (ps.length ≤ 48) && ps.all (fun p => decide (p < 48)) && decide ps.Nodup then some ps else none

/-- The BUSES record: eight rates. -/
def busesOf (b : List Byte) : Option (List Nat) :=
  let rs : List Nat := b.map (fun x => x.toNat)
  if rs.length = 8 && rs.all (fun r => decide (r ≤ 2)) then some rs else none

/-- The HOST record: SMBus address and bifurcation. -/
def hostRecOf (b : List Byte) : Option (Nat × Nat) :=
  if b.length = 4 && decide (fieldLE b 0 1 < 128) && decide (fieldLE b 1 1 ≤ 2) then some (fieldLE b 0 1, fieldLE b 1 1) else none

/-- IDENTITY_MISMATCH for the playbill (subject 0) or a DIMM (subject 2) goes to MB0 (R534). Causes: 0 ABSENT, 1 BAD_CRC, 2 BAD_RECORD. -/
def State.mismatchPost (s : State) (subject cause type unit : Nat) : State :=
  s.post 0 Ev.identityMismatch Lv.device unit (leBytes 1 subject ++ leBytes 1 cause ++ leBytes 2 type)

/-- A record of a type, read by a function that finds it good or not: absent, its value, or bad; a type that appears twice is bad. -/
def playRecord {α : Type} (rs : List (Nat × Option (List Byte))) (type : Nat) (read : List Byte → Option α) : Option (Option α) :=
  match rs.filter (fun r => r.1 == type) with
  | [] => none
  | [(_, some b)] => some (read b)
  | _ => some none

/-- Use a record: its value where it is good; where it is bad, its default stays and IDENTITY_MISMATCH names it. -/
def State.useRecord {α : Type} (s : State) (type : Nat) (v : Option (Option α)) (f : α → State → State) : State :=
  match v with
  | some (some x) => f x s
  | some none => s.mismatchPost 0 2 type 0
  | none => s

/-- Root firmware reads the playbill (R520, R523). On a resume the precedence in force stays. -/
def State.readPlaybill (s : State) (a b : Option (List Byte)) (resumed : Bool) : State :=
  let s0 := (s.onSurr (fun u => { SurroundSt.reset with modules := u.modules, busRecover := u.busRecover })).onPower (fun p => { p with
    precedence := (if resumed then p.precedence else []) })
  match playChoice a b with
  | none => s0.mismatchPost 0 (if a.isNone && b.isNone then 0 else 1) 0 0
  | some c =>
    let rs := playRecords 4096 (sliceB c 16 (fieldLE c 6 2 - 16))
    let s1 := s0.useRecord 1 (playRecord rs 1 (fun b => if b.length = 64 then some b else none)) (fun b s => s.onSurr (fun u => { u with board := b }))
    let s2 := s1.useRecord 2 (playRecord rs 2 cagesOf) (fun m s => s.onSurr (fun u => { u with cagesGiven := true, cages := m }))
    let s3 := s2.useRecord 3 (playRecord rs 3 zonesOf) (fun z s => s.onSurr (fun u => { u with zones := z }))
    let s4 := s3.useRecord 4 (playRecord rs 4 precedenceOf) (fun ps s => if resumed then s else s.onPower (fun p => { p with precedence := ps }))
    let s5 := s4.useRecord 5 (playRecord rs 5 busesOf) (fun rs s => s.onSurr (fun u => { u with buses := rs }))
    s5.useRecord 6 (playRecord rs 6 hostRecOf) (fun x s => s.onSurr (fun u => { u with smbusAddr := x.1, bifurcation := x.2 }))

/-! ### The population of external memory (R326, R336, R532) -/

/-- A lost odd channel leaves the four even channels (R336). -/
def MemSt.lessLost (m : MemSt) : MemSt :=
  if m.failed.any (fun c => c % 2 == 1) then { m with channels := SMap.keep (fun c _ => c % 2 == 0) m.channels } else m

/-- Is the population legal (R326, R327, R532)? -/
def MemSt.legal (m : MemSt) : Bool :=
  let ds := m.populated.filterMap (fun c => (m.channel c).dimm)
  (m.populated == range 0 8 || m.populated == [0, 2, 4, 6]) &&
    ds.all (fun d => d.supported && d.crcOk) &&
    ds.all (fun d => ds.all (fun e => d.capacity == e.capacity && d.ranks == e.ranks && d.width == e.width && d.speed == e.speed)) &&
    decide (128 ≤ ds.foldl (fun a d => a + d.capacity) 0)

/-- The population is judged: a wrong SPD block is an IDENTITY_MISMATCH, an illegal population MEM_POPULATION. -/
def State.judgeMemory (s : State) : State :=
  let s1 := s.onMem MemSt.lessLost
  let bad := s1.mem.populated.filter (fun c => match (s1.mem.channel c).dimm with | some d => !d.crcOk | none => false)
  let s2 := forEach bad (fun c s => s.mismatchPost 2 1 0 c) s1
  if s2.mem.legal then s2 else s2.report (Report.of Fc.memPopulation Lv.device 0 7 (11 * 1024) 0 0 0)

/-! ### Resume (R513) -/

/-- Does this start resume? It ends a DARK, and the images that boot are those that sealed the generation. -/
def State.resumes (s : State) (root service : Image) : Bool :=
  s.cmd.prevMode == Md.dark &&
    (match s.cmd.resume with | some (r, v, _) => r == root.measure && v == service.measure | none => false)

/-- A start from DARK that does not resume starts empty. -/
def State.emptied (s : State) : State :=
  { s with
    host := { s.host with mbs := SMap.mapD Mailbox.reset (fun _ b => { b with outstanding := [] }) s.host.mbs, rings := [], pools := Pools.reset },
    fault := { s.fault with raised := [], interrupt := [], quietPeriod := 60, pinOnQ := false, pinMode := 0, captureCe := false },
    cmd := { CmdSt.reset with mode := s.cmd.mode, prevMode := s.cmd.prevMode, cause := s.cmd.cause, entered := s.cmd.entered, dark := s.cmd.dark },
    power := { s.power with limit := 1300, reserve := 20, precedence := [], twarn := 100 },
    time := { TimeSt.reset with zero := s.time.zero, sec := s.time.sec, ns := s.time.ns, frac := s.time.frac, calendar := s.time.calendar,
                                calTick := s.time.calTick },
    book := s.book.overReset, port := PortSt.reset, tab := TableSt.reset, sw := SwitchSt.reset,
    mem := { MemSt.reset with channels := s.mem.channels, failed := s.mem.failed, speed := s.mem.speed, repaired := s.mem.repaired } }

/-- The configuration is restored: an armed commit is abandoned with cause SAFE, a retiring version is taken as retired, FWD_INTENT is
as the generation sealed it. -/
def State.restored (s : State) : State :=
  let s1 := s.abandonCommits 0
  let s2 := forEach s1.liveStages (fun k s => if s.hasRetiring k then s.retire k else s) s1
  (s2.onHost (fun h => { h with mbs := SMap.mapD Mailbox.reset (fun _ b => { b with outstanding := [] }) h.mbs })).onCmd (fun c => { c with
    fwdIntent := (match c.resume with | some (_, _, f) => f | none => false), resume := none })

/-! ### START_UP -/

/-- Rails at AVS_MAX within the fused window; a window the owner narrowed stays on a resume (R499). -/
def avsAt (fuses : List (Nat × Nat)) (old : SMap Avs) (resumed : Bool) : SMap Avs :=
  (range 0 11).foldl (fun a d =>
    let f := fuses.getD d (0, 0)
    let o := SMap.get Avs.reset d old
    let lo := if resumed then max o.lo f.1 else f.1
    let hi := if resumed && decide (o.hi ≤ f.2) then o.hi else f.2
    SMap.put Avs.reset d { mv := hi, lo := lo, hi := hi, fuseLo := f.1, fuseHi := f.2, pinned := none } a) []

/-- The understudy after a boot: its copy runs, or it failed its self-test and is reported once HOUSE is reached (R363). -/
def State.bootUnderstudy (s : State) (b : BootInput) : State :=
  if b.selfTest0 && b.selfTest1 then s.onCtl (fun c => { c with understudy := 1, lastBeat := s.localNs })
  else (s.onCtl (fun c => { c with understudy := 2, lastBeat := s.localNs })).post 0 Ev.understudyAbsent Lv.die 2
    (leBytes 1 0 ++ leBytes 1 (1 - s.ctl.lead) ++ zeros 2)

/-- Steps 5 to 9 of R512 with both images running. -/
def State.bootHouse (s : State) (b : BootInput) (root service : Nat × Image) : State :=
  let resumed := s.resumes root.2 service.2
  let s0 := if s.cmd.prevMode = Md.dark && !resumed then s.emptied else s
  let s1 := (s0.onCtl (fun c => { c with
    root := some root.2, service := some service.2, rootSlot := root.1, serviceSlot := service.1, deviceIdKnown := true,
    lead := (if b.selfTest0 then 0 else 1) })).onPower (fun p => { p with
    rootLock := true, pwrGood := true, avs := avsAt b.avs p.avs resumed })
  let s2 := s1.onFault (fun f => if f.pulseEnd.isNone then { f with pinAsserted := false, pinHeld := false } else f)
  let s3 := (if resumed then s2.restored else s2.onCmd (fun c => { c with resume := none })).readPlaybill b.playA b.playB resumed
  let s4 := (s3.judgeMemory.setMode Md.house 1).reportMode Md.load (flagNat resumed) 0
  let seated := (range 0 48).filter (fun c => (s4.module c).state != 0)
  let s5 := forEach seated (fun c s => s.insertModule c) (s4.bootUnderstudy b)
  if resumed then s5.recompute else s5

/-- Does a FATAL fault found in LOAD hold the device there (R454)? -/
def FaultSt.fatalLive (f : FaultSt) : Bool := [f.first, f.higher].any (fun r => match r with | some x => x.sev == Sev.fatal | none => false)

/-- The images the four slots hold at a start (R363). -/
def State.slots (s : State) (b : BootInput) : State :=
  s.onCtl (fun c => { c with rootA := b.rootA, rootB := b.rootB, serviceA := b.serviceA, serviceB := b.serviceB })

/-- START_UP (R363, R512): the device goes from LOAD to HOUSE, or stays in LOAD with BOOT_FAIL. A start after a trip records it (R504). -/
def execStartUp (b : BootInput) (s : State) : Out :=
  .next (s.when (s.cmd.mode == Md.load && !s.ctl.bootFail && !s.fault.fatalLive) (fun s =>
    let s0 := if s.cmd.prevMode = Md.dark ∧ s.cmd.dark = DarkCause.trip then s.ledgerWrite 5 (leBytes 1 3 ++ leBytes 1 0xFF) else s
    let s1 := s0.slots b
    let r := pickRoot s1.ctl b
    let s2 := s1.recordPick 0 r
    match r.chosen with
    | none => s2.bootFailed 1
    | some root =>
      let v := pickService s2.ctl b
      let s3 := s2.recordPick 2 v
      match v.chosen with
      | none => (s3.onCtl (fun c => { c with root := some root.2, rootSlot := root.1, deviceIdKnown := true })).bootFailed 2
      | some service => s3.bootHouse b root service))

end Sys2Proof.Machine
end

