-- ==== Sys2Proof/Machine/Buffer.lean ====
section
/-! DEFINITION. The BUFFER group (R273, R290–R292): class and lport settings of admission, mirror and sample sessions, BUFFER.STATUS. -/
namespace Sys2Proof.Machine
open Sys2Proof

/-- Do a stage's reservations exceed its quota in any of its tiles (R280)? -/
def State.overReserved (s : State) (k : Nat) : Bool :=
  (s.stageTiles k).any (fun t => decide (s.foldQuota k t < s.reservedCells k t))

/-- The stage of a VOQ: its front exit's, or its lane's. -/
def State.voqStage (s : State) (key : Nat) : Nat :=
  let x := key / 40 % 408
  if x < 384 then s.portStage (x / 8) else key % 5

/-! ### BUFFER.CLASS (R290) -/

def opBufferClass : Op := (Op.plain 0x0C01 .stage .cfg).withRS
/-- The class settings of one record. -/
def classOf (r : Nat) : ClassCfg :=
  { voqMin := bitsOf r 116 9, alphaExp := signedOf (bitsOf r 112 4) 4, dtMin := bitsOf r 94 18, dtMax := bitsOf r 76 18,
    spillEn := bitOf r 75, spillOn := bitsOf r 57 18, spillOff := bitsOf r 39 18 }
/-- The checks of R290. -/
def classOk (r : Nat) : Bool :=
  let x := classOf r
  bitsOf r 0 39 == 0 && decide (-6 ≤ x.alphaExp) && decide (x.alphaExp ≤ 3) && decide (x.dtMin ≤ x.dtMax) && decide (x.spillOff < x.spillOn)
/-- One record, for every tile of the stage. -/
def State.writeClass (s : State) (k r : Nat) : State :=
  s.onSw (fun w => { w with classes := SMap.insert (k * 8 + bitsOf r 125 3) (classOf r) w.classes })
def bodyBufferClass (m : Msg) (s : State) : Answer :=
  let k := s.stageOf m
  let rs := (m.records 0 16).map leNat
  let s1 := rs.foldl (fun s r => s.writeClass k r) s
  orDeny [(m.plen == 0 || m.plen % 16 != 0, St.badLength), (rs.any (fun r => !classOk r), St.badField), (s1.overReserved k, St.noSpace)] s
    (done (forEach (s1.sw.spilling.filter (fun key => s1.voqStage key == k)) (fun key s => s.settleSpill k key) s1))
def execBufferClass (m : Msg) (s : State) : Out := commandRow opBufferClass bodyBufferClass m s

/-! ### BUFFER.LPORT (R291) -/

def opBufferLport : Op := (Op.plain 0x0C02 .stage .cfg).withRS
def bufLport (r : Nat) : Nat := bitsOf r 55 9
def State.writeBufLport (s : State) (r : Nat) : State :=
  s.onEg (bufLport r) (fun e => { e with
    lportMin := bitsOf r 43 12, headroom := bitsOf r 31 12, xonGap := bitsOf r 21 10, pauseWd := bitsOf r 11 10 })
def bodyBufferLport (m : Msg) (s : State) : Answer :=
  let k := s.stageOf m
  let rs := (m.records 0 8).map leNat
  let s1 := rs.foldl (fun s r => s.writeBufLport r) s
  orDeny [(m.plen == 0 || m.plen % 8 != 0, St.badLength),
          (rs.any (fun r => decide (383 < bufLport r) || bitsOf r 11 10 == 0 || decide (1000 < bitsOf r 11 10) || bitsOf r 0 11 != 0), St.badField),
          (rs.any (fun r => !s.ownsLport k (bufLport r)), St.notPermitted), (s1.overReserved k, St.noSpace)] s (done s1)
def execBufferLport (m : Msg) (s : State) : Out := commandRow opBufferLport bodyBufferLport m s

/-! ### BUFFER.SESSION (R273) -/

def opBufferSession : Op := (Op.plain 0x0C03 .stage .cfg).withRS
def sessDest (r : Nat) : Nat := bitsOf r 114 9
def sessOk (r : Nat) : Bool :=
  let n := bitsOf r 97 14
  decide (sessDest r < 400) && (n == 0 || (decide (64 ≤ n) && decide (n ≤ 16000))) && (!bitOf r 127 || bitsOf r 60 24 != 0) && bitsOf r 0 41 == 0
def bodyBufferSession (m : Msg) (s : State) : Answer :=
  let k := s.stageOf m
  let rs := (m.records 0 16).map leNat
  orDeny [(m.plen == 0 || m.plen % 16 != 0, St.badLength), (rs.any (fun r => !sessOk r), St.badField),
          (rs.any (fun r => decide (sessDest r < 384) && !s.ownsLport k (sessDest r)), St.notPermitted)] s
    (done (s.onSw (fun w => { w with sessions := rs.foldl (fun l r => SMap.insert (k * 32 + bitsOf r 123 5) r l) w.sessions })))
def execBufferSession (m : Msg) (s : State) : Out := commandRow opBufferSession bodyBufferSession m s

/-! ### BUFFER.STATUS (R292; log entry for the layout) -/

def opBufferStatus : Op := (Op.plain 0x0C04 .read .cfg).withRS
/-- VOQs of a stage in a tile that hold more than their VOQ_MIN. -/
def State.voqsAbove (s : State) (k t : Nat) : List Nat :=
  (s.sw.voqs.map (fun e => e.1)).filter (fun key =>
    key / 16320 == t && s.voqStage key == k && decide ((s.classCfg k (key / 5 % 8)).voqMin < s.voqCells key))
/-- (lport, class) pairs of a stage with headroom in use in a tile. -/
def State.headPairs (s : State) (k t : Nat) : List (Nat × Nat) :=
  ((s.tileLports k t).map (fun l => (range 0 8).map (fun c => (l, c)))).flatten.filter (fun x => s.headUsed x.1 x.2 != 0)
/-- Far-pasture bytes a stage's frames of a tile hold. -/
def State.farBytes (s : State) (k t : Nat) : Nat :=
  s.sumPkts (fun p => if p.phase = .far ∧ p.tile = t ∧ p.ctx.stage = k then spillBytes p.ctx.len else 0)
def bodyBufferStatus (m : Msg) (s : State) : Answer :=
  let k := s.stageOf m
  let t := m.u8 0
  let voqs := s.voqsAbove k t
  let heads := s.headPairs k t
  let quota := s.foldQuota k t
  let reserved := s.reservedCells k t
  orDeny [(m.plen != 4, St.badLength), (decide (7 < t) || !m.zero 1 3, St.badField), (!(s.stageTiles k).contains t, St.notPermitted)] s
    (doneWith (leBytes 4 quota ++ leBytes 4 reserved ++ leBytes 4 (quota - reserved) ++ leBytes 4 (s.sharedFree k t) ++
      leBytes 4 (s.flushingCells k t) ++ leBytes 4 4096 ++ leBytes 4 (s.reentryUsed t) ++ leBytes 4 8192 ++ leBytes 4 (s.holdUsed t) ++
      leBytes 4 (s.cellsOut t) ++ leBytes 8 (s.farBytes k t) ++ leBytes 4 voqs.length ++ leBytes 4 heads.length ++
      (voqs.map (fun key => leBytes 2 (key / 40 % 408) ++ leBytes 1 (key / 5 % 8) ++ leBytes 1 (flagNat (s.sw.spilling.contains key)) ++
        leBytes 4 (s.voqCells key))).flatten ++
      (heads.map (fun x => leBytes 2 x.1 ++ leBytes 1 x.2 ++ zeros 1 ++ leBytes 4 (s.headUsed x.1 x.2))).flatten) s)
def execBufferStatus (m : Msg) (s : State) : Out := commandRow opBufferStatus bodyBufferStatus m s

end Sys2Proof.Machine
end

