-- ==== Sys2Proof/Machine/Compare.lean ====
section
/-! DEFINITION. Intended against observed state (R462, R67, R530). -/
namespace Sys2Proof.Machine
open Sys2Proof

/-- The two states of a unit, and whether they agree. -/
structure Pairing where
  intended : Nat
  observed : Nat
  agree : Bool
  deriving DecidableEq, Repr

/-- A sub-port's ADMIN and OPER (R67). -/
def State.lportPair (s : State) (l : Nat) : Pairing :=
  let p := s.lport l
  { intended := flagNat p.admin, observed := p.oper,
    agree := if p.admin then
        p.oper == 2 || p.oper == 3 || p.oper == 4 || (p.oper == 1 && decide (s.now < p.trainSince + tkS (s.setting 0x0037 l))) ||
          (p.oper == 5 && !s.portAdmitted (l / 8))
      else p.oper == 0 }

/-- A module's intended state, READY or LOW_POWER, and the state observed, by its port (R530). -/
def State.modulePair (s : State) (p : Nat) : Pairing :=
  let m := match s.cageOf p with | some c => s.module c | none => Module.absent
  let want := s.moduleWanted p
  { intended := if want then 4 else 2, observed := m.state,
    agree := if want then m.state == 4 || (m.state == 3 && (match moduleLimit m with | some n => decide (s.now < m.since + n) | none => true)) else m.state == 2 }

/-- A ring's ENABLE and STATE (log entry 106): enabled agrees with RUN, FLUSHING and HELD; not enabled with OFF, or with items outstanding. -/
def State.ringPair (s : State) (p : Nat) : Pairing :=
  let g := s.ring p
  { intended := flagNat g.enable, observed := g.state,
    agree := if g.enable then g.state == 1 || g.state == 2 || g.state == 4 else g.state == 0 || !g.items.isEmpty }

/-- A populated channel is meant to be in service (log entry 106): LOST disagrees. -/
def State.channelPair (s : State) (c : Nat) : Pairing :=
  let x := SMap.get Channel.reset c s.mem.channels
  { intended := if x.dimm.isSome then 3 else 0, observed := x.state, agree := x.state != 4 }

/-- A die's throttle step as temperature, bounds and overrides ask for it, and in force (log entry 106). -/
def State.throttlePair (s : State) (die : Nat) : Pairing :=
  { intended := s.effStep die, observed := s.stepOf die, agree := s.effStep die == s.stepOf die }

/-- A stage's state is set and found by firmware itself (log entry 106): the two agree. -/
def State.stagePair (s : State) (k : Nat) : Pairing :=
  { intended := (s.stage k).state, observed := (s.stage k).state, agree := true }

/-- One comparison of a unit: agreement ends an episode; the third disagreement in a row raises STATE_MISMATCH once. -/
def State.compareUnit (s : State) (key level unit : Nat) (mbs : List Nat) (x : Pairing) : State :=
  let old := SMap.get { count := 0, raised := false } key s.fault.mismatch
  let put (m : Mismatch) (s : State) : State := s.onFault (fun f => { f with mismatch := SMap.put { count := 0, raised := false } key m f.mismatch })
  if x.agree then put { count := 0, raised := false } s
  else
    let n := old.count + 1
    let s1 := put { count := min n 3, raised := old.raised || decide (3 ≤ n) } s
    if !old.raised && decide (3 ≤ n) then
      s1.postAll mbs Ev.stateMismatch level unit (leBytes 1 x.intended ++ leBytes 1 x.observed ++ zeros 2)
    else s1

/-- Mailboxes of an event of a stage and of MB0. -/
def stageAndOwner (k : Nat) : List Nat := if k = 0 then [0] else [0, k]

/-- Every unit compared once. -/
def State.compareAll (s : State) : State :=
  let s1 := forEach ((range 0 384).filter (fun l => (s.lport l).configured)) (fun l s =>
    s.compareUnit l Lv.port l [s.portStage (l / 8)] (s.lportPair l)) s
  let s2 := forEach (range 0 48) (fun p s => s.compareUnit (1000 + p) Lv.port (8 * p) (stageAndOwner (s.portStage p)) (s.modulePair p)) s1
  let s3 := forEach (range 0 8) (fun c s => s.compareUnit (2000 + c) Lv.device c [0] (s.channelPair c)) s2
  let s4 := forEach ((range 0 64).filter (fun p => (s.ring p).assigned)) (fun p s =>
    s.compareUnit (3000 + p) Lv.device p [(s.ring p).stage] (s.ringPair p)) s3
  let s5 := forEach s.sideStages (fun k s => s.compareUnit (4000 + k) Lv.device k [0] (s.stagePair k)) s4
  forEach [0, 1] (fun d s => s.compareUnit (5000 + d) Lv.die d [0] (s.throttlePair d)) s5

/-- STATE_COMPARISON: every 1 ms while service firmware runs. -/
def execStateComparison (s : State) : Out :=
  .next (s.when (decide (2 ≤ s.cmd.mode) && s.cmd.mode != Md.interval && !s.ctl.noService && decide (s.fault.comparedAt + tkMs 1 ≤ s.now)) (fun s =>
    (s.onFault (fun f => { f with comparedAt := s.now })).compareAll))

end Sys2Proof.Machine
end

