-- ==== Sys2Proof/Machine/Control.lean ====
section
/-! DEFINITION. The control complexes: threads, generations, heartbeat, takeover and recovery (R353–R377), and the IDENTITY group
(R362, R364, R367). -/
namespace Sys2Proof.Machine
open Sys2Proof

def State.onThread (s : State) (i : Nat) (f : Thread → Thread) : State :=
  s.onCtl (fun c => { c with threads := SMap.upd Thread.reset i f c.threads })

/-! ### Commands in flight when their firmware restarts (R357, R373, R421) -/

/-- The completion event that R418 names for an opcode answered ACCEPTED. -/
def completionEvent (opcode : Nat) : Nat :=
  if opcode = 0x0104 then Ev.fwStaged else if opcode = 0x0105 then Ev.fwActivateFailed else if opcode = 0x0201 then Ev.modeChanged
  else if opcode = 0x0301 then Ev.stageReady else if opcode = 0x0302 then Ev.stageResized else if opcode = 0x0303 then Ev.stageDissolved
  else if opcode = 0x0601 then Ev.graphStaged else if opcode = 0x0701 then Ev.instanceReady else if opcode = 0x070A then Ev.commitCancelled
  else if opcode = 0x0901 then Ev.patternStaged else if opcode = 0x0906 then Ev.surveyResult else if opcode = 0x0A01 then Ev.editStaged
  else if opcode = 0x0D04 then Ev.memSpeedStep else if opcode = 0x1203 then Ev.ledgerBackup else Ev.cmdDone

/-- An accepted command completes with its event and status RESTARTED. -/
def State.restartOutst (s : State) (r : Nat) (o : Outst) : State :=
  let ev := completionEvent o.opcode
  (s.dropOut r o).postDone r ev Lv.device 0 o.tag St.restarted (if ev = Ev.cmdDone then cmdDonePayload o.opcode 0 else [])

/-- Does an accepted command go on under a new lead (R421): sent with REPLAY_SAFE, or a commit (which R186 settles) or a change of
mode that hardware makes? -/
def Outst.goesOn (o : Outst) : Bool := o.replaySafe || o.opcode == 0x070A || o.opcode == 0x0105

/-- A held command completes with RESTARTED: the journal's COMPLETE and its response (R357 step 4). -/
def State.restartHeld (s : State) (h : Held) : State :=
  respond h.opcode h.msg (deny St.restarted (s.onCmd (fun c => { c with held := c.held.erase h })))

/-- Step 4 of R373 and R421: what is replay-safe is run again (its work goes on), everything else completes with RESTARTED. -/
def State.completeInFlight (s : State) : State :=
  let s1 := (s.cmd.held.filter (fun h => !h.msg.replaySafe)).foldl (fun s h => s.restartHeld h) s
  let s2 := forEach (range 0 8) (fun r s => ((s.mb r).outstanding.filter (fun o => !o.goesOn)).foldl (fun s o => s.restartOutst r o) s) s1
  s2.abandonCommits 2

/-- How many commands a new lead runs again, and how many it completes with RESTARTED (TAKEOVER, R377). -/
def State.rerunCount (s : State) : Nat :=
  (s.cmd.held.filter (fun h => h.msg.replaySafe)).length +
    sumOver (range 0 8) (fun r => ((s.mb r).outstanding.filter (fun o => o.replaySafe)).length)
def State.restartCount (s : State) : Nat :=
  (s.cmd.held.filter (fun h => !h.msg.replaySafe)).length +
    sumOver (range 0 8) (fun r => ((s.mb r).outstanding.filter (fun o => !o.goesOn)).length)

/-- Steps 2–6 of R373 by a complex that is now lead. -/
def State.takeUp (s : State) : State :=
  let rerun := s.rerunCount
  let restarted := s.restartCount
  (((s.completeInFlight).failActivation St.hwFault).newLeadAcks).announceTakeover rerun restarted

/-- No complex serves the device (R375): CONTROL_LOST, severity DEGRADE, and SAFE at once; recovery starts. -/
def State.controlLostNow (s : State) : State :=
  (s.onCtl (fun c => { c with noService := true, attempts := 0, attemptAt := s.now, understudy := 2 })).report
    (Report.of Fc.controlLost Lv.device 0 7 0 8 0 s.ctl.lead)

/-- The lead is lost (R372, R373, R375): a ready understudy takes over, adopting first a sealed generation whose check passes;
without one, control is lost. -/
def State.loseLead (s : State) : State :=
  if s.ctl.noService then s
  else if s.ctl.understudy = 0 then
    let s1 := s.onCtl (fun c => if c.sealValid then ({ c with adopted := c.sealed }).freeJournal c.sealed else c)
    s1.flipLead.takeUp
  else s.controlLostNow

/-! ### Threads (R356–R360) -/

/-- The thread that serves a lane (R355); WORK ring p is served by thread 5 + (p / 4) mod 11 of core p mod 4 (log entry 31). -/
def threadOfLane (lead : Nat) (l : Lane) : Nat :=
  64 * lead + (match l with
    | .mailbox r => 16 * (r % 4) + 1 + r / 4
    | .urgent r => 16 * (r % 4) + 3 + r / 4
    | .work p => 16 * (p % 4) + 5 + p / 4 % 11)

/-- The command a thread is serving: one whose write is held. -/
def State.servedBy (s : State) (i : Nat) : Option Held := s.cmd.held.find? (fun h => threadOfLane s.ctl.lead h.msg.lane == i)

/-- FRAME_SPILL (R356): a call. With a frame of the cache free it takes that frame; with all four in use the outermost cached frame
moves to the spill area. A full spill area stops the thread (FRAME_FAULT). -/
def execFrameSpill (i : Nat) (s : State) : Out :=
  let t := s.thread i
  onUnit (decide (i < 128)) (s.when (!t.halted) (fun s => s.onThread i (fun t =>
    if t.cached < 4 then { t with cached := t.cached + 1 }
    else if t.spilled < 32 then { t with spilled := t.spilled + 1 } else t)))

/-- FRAME_FILL (R356): a return. A caller in the cache is returned to; one in the spill area moves back into the cache. -/
def execFrameFill (i : Nat) (s : State) : Out :=
  let t := s.thread i
  onUnit (decide (i < 128)) (s.when (!t.halted) (fun s => s.onThread i (fun t =>
    if 1 < t.cached then { t with cached := t.cached - 1 }
    else if 0 < t.spilled then { t with spilled := t.spilled - 1 } else t)))

/-- Steps 3 and 4 of R357: the supervisor acknowledges, discards the thread's frames, restarts it at its service entry, and completes
its command; a thread restarted more than three times in 1 s is a THREAD_STORM. -/
def State.restartThread (s : State) (i cls : Nat) : State :=
  let served := s.servedBy i
  let opcode := match served with | some h => h.opcode | none => 0
  let recent := ((s.thread i).restartTimes.filter (fun t => decide (s.now < t + tkS 1))) ++ [s.now]
  let s1 := s.onFault (fun f => match f.openFor cls Lv.die 2 with | some e => f.ack e.record.seq | none => f)
  let s2 := s1.onThread i (fun t => { Thread.reset with faults := t.faults, restarts := t.restarts + 1, restartTimes := recent })
  let pay := leBytes 1 (i / 64) ++ leBytes 1 (i / 16 % 4) ++ leBytes 1 (i % 16) ++ zeros 1 ++ leBytes 2 opcode ++ zeros 2
  let s3 := (s2.bump 8 0 (0x08 + i / 64)).post 0 Ev.threadRestart Lv.die 2 pay
  let s4 := match served with
    | some h =>
      let r := s.mbOf h.msg
      let s5 := if r = 0 then s3 else s3.post r Ev.threadRestart Lv.die 2 pay
      if h.msg.replaySafe && !h.rerun then
        s5.onCmd (fun c => { c with held := c.held.map (fun x => if x = h then { h with rerun := true } else x) })
      else s5.restartHeld h
    | none => s3
  if 3 < recent.length then s4.report (Report.of Fc.threadStorm Lv.die 2 7 (6 * 1024 + i) 6 0 opcode) else s4

/-- FRAME_FAULT (R357): an exception raised in the handler frame (`nested`), or a spill that finds the spill area full. -/
def execFrameFault (i : Nat) (nested : Bool) (s : State) : Out :=
  let t := s.thread i
  let opcode := match s.servedBy i with | some h => h.opcode | none => 0
  onUnit (decide (i < 128)) (s.when (!t.halted && (nested || (t.cached == 4 && t.spilled == 32))) (fun s =>
    (((s.onThread i (fun t => { t with faults := t.faults + 1 })).bump 8 0 (0x06 + i / 64)).report
      (Report.of Fc.frameFault Lv.die 2 7 (6 * 1024 + i) 6 0 opcode)).restartThread i Fc.frameFault))

/-- THREAD_WAKE (R358): a wake reaches a thread; where the thread is halted, or is halted in the same CCLK, it stays latched. -/
def execThreadWake (i reason : Nat) (halt : Bool) (s : State) : Out :=
  onUnit (decide (i < 128)) (s.onThread i (fun t =>
    if halt || t.halted then { t with halted := true, wakes := t.wakes ++ [reason] } else { t with wakes := [] }))

/-- ROOT_WRITE (R360): a service thread's access to a ROOT register or root memory is refused and recorded, and the thread restarts. -/
def execRootWrite (i address : Nat) (write : Bool) (s : State) : Out :=
  onUnit (decide (i < 128)) (s.when (i % 16 != 0) (fun s =>
    (s.report (Report.of Fc.rootWrite Lv.die 2 7 (6 * 1024 + i) (if write then 1 else 0) address 0)).restartThread i Fc.rootWrite))

/-! ### Generations (R369–R371) -/

/-- GENERATION_SEAL: the lead seals generation n + 1; it is delayed while its staging area still holds a generation not adopted. -/
def execGenerationSeal (s : State) : Out :=
  .next (if s.ctl.noService then s
    else if s.ctl.sealed + 1 ≤ s.ctl.adopted + 2 then s.onCtl (fun c => { c with sealed := c.sealed + 1, sealValid := true })
    else (s.onCtl (fun c => { c with sealDelayed := setAt c.sealDelayed c.lead (c.sealDelayed.getD c.lead 0 + 1) })).bump 8 0 (0x02 + s.ctl.lead))

/-- GENERATION_ADOPT: the understudy reads the seal word and checks the CRC-64 of every staged page; it applies the generation and
frees the journal, or counts GEN_REJECT and waits for the next one. -/
def execGenerationAdopt (crcOk : Bool) (s : State) : Out :=
  .next (s.when (s.ctl.understudy == 0 && s.ctl.sealValid && !s.ctl.noService) (fun s =>
    if crcOk then s.onCtl (fun c => ({ c with adopted := c.sealed, sealValid := false }).freeJournal c.sealed)
    else (s.onCtl (fun c => { c with
      genReject := setAt c.genReject (1 - c.lead) (c.genReject.getD (1 - c.lead) 0 + 1), sealValid := false })).bump 8 0 (1 - s.ctl.lead)))

/-! ### Heartbeat, takeover and recovery (R372–R375) -/

/-- HEARTBEAT_WRITE: the lead's beat; a beat of the other complex is discarded and counted LATE_BEAT. -/
def execHeartbeatWrite (complex : Nat) (s : State) : Out :=
  onUnit (decide (complex < 2)) (
    if complex = s.ctl.lead && !s.ctl.noService then s.onCtl (fun c => { c with missCount := 0, lastBeat := s.localNs })
    else (s.onCtl (fun c => { c with lateBeat := setAt c.lateBeat complex (c.lateBeat.getD complex 0 + 1) })).bump 8 0 (0x04 + complex))

/-- HEARTBEAT_MISS: each 100 µs without a beat is a miss; at the third in a row LEAD_SEL flips. -/
def execHeartbeatMiss (s : State) : Out :=
  .next (s.when (!s.ctl.noService && decide (2 ≤ s.cmd.mode) && decide (s.ctl.lastBeat + 100000 * (s.ctl.missCount + 1) ≤ s.localNs)) (fun s =>
    if s.ctl.missCount + 1 < 3 then s.onCtl (fun c => { c with missCount := c.missCount + 1 }) else s.loseLead))

/-- LEAD_YIELD: root firmware on the lead found an uncorrectable error in its own complex, and LEAD_SEL flips at once. -/
def execLeadYield (s : State) : Out := .next (s.when (decide (2 ≤ s.cmd.mode)) (fun s => s.loseLead))

/-- UNDERSTUDY_READY (R374): the reset old lead passes its self-test and receives the copy, or is reported ABSENT. -/
def execUnderstudyReady (selfTestOk : Bool) (s : State) : Out :=
  .next (s.when (s.ctl.understudy == 1 && !s.ctl.noService) (fun s =>
    if selfTestOk then
      (s.onCtl (fun c => ({ c with understudy := 0, adopted := c.sealed, sealValid := false }).freeJournal c.sealed)).post 0
        Ev.understudyReady Lv.die 2 []
    else (s.onCtl (fun c => { c with understudy := 2 })).post 0 Ev.understudyAbsent Lv.die 2
      (leBytes 1 0 ++ leBytes 1 (1 - s.ctl.lead) ++ zeros 2)))

/-- CONTROL_RECOVERY_ATTEMPT (R375): with no complex serving, the complexes are reset in turn, beginning with the one that was not
the last lead, 2 s each and six attempts in all; the first whose root firmware starts becomes lead. -/
def execControlRecoveryAttempt (started : Bool) (s : State) : Out :=
  .next (s.when (s.ctl.noService && decide (s.ctl.attempts < 6) && decide (s.ctl.attemptAt + (if s.ctl.attempts = 0 then 0 else tkS 2) ≤ s.now)) (fun s =>
    let who := if s.ctl.attempts % 2 = 0 then 1 - s.ctl.lead else s.ctl.lead
    if started then
      ((s.onCtl (fun c => { c with
        lead := who, noService := false, attempts := 0, understudy := 1, missCount := 0, lastBeat := s.localNs,
        sealValid := false })).controlBack).takeUp
    else s.onCtl (fun c => { c with attempts := c.attempts + 1, attemptAt := s.now })))

/-! ### IDENTITY (R362, R364, R367) -/

def opIdentityChain : Op := ((Op.plain 0x1501 .identity .all).withRS).withU
/-- IDENTITY.CHAIN: the DeviceID and Alias certificates. -/
def bodyIdentityChain (m : Msg) (s : State) : Answer :=
  orDeny [(m.plen != 0, St.badLength)] s (doneWith Config.certificateChain s)
def execIdentityChain (m : Msg) (s : State) : Out := commandRow opIdentityChain bodyIdentityChain m s

/-- An image's entry of the measurement list: VERSION, SVN and the SHA-384 of header and body. -/
def measureEntry (i : Option Image) : List Byte :=
  match i with
  | some x => leBytes 4 x.version ++ leBytes 1 x.svn ++ zeros 3 ++ leBytes 48 x.measure
  | none => zeros 56

/-- The measurement list (R367, entries 0–4). -/
def measurementList (c : ControlSt) : List Byte :=
  measureEntry c.root ++ measureEntry c.service ++ leBytes 48 (c.ownerKeys.getLast?.getD 0) ++ leBytes 1 c.rootSvn ++ leBytes 1 c.serviceSvn ++
    zeros 2 ++ leBytes 1 (flagNat c.rehearsed) ++ leBytes 1 (flagNat c.mb7Used) ++ leBytes 1 (flagNat c.jtagUnlocked) ++ zeros 1

def opIdentityQuote : Op := ((Op.plain 0x1502 .identity .all).withRS).withU
/-- IDENTITY.QUOTE: a nonce of 32–64 bytes; the measurement list and the Alias-key signature over SHA-384 of nonce and list. -/
def bodyIdentityQuote (m : Msg) (s : State) : Answer :=
  let list := measurementList s.ctl
  orDeny [(decide (m.plen < 32) || decide (64 < m.plen), St.badLength)] s
    (doneWith (list ++ Config.quoteSignature (m.payload ++ list)) s)
def execIdentityQuote (m : Msg) (s : State) : Out := commandRow opIdentityQuote bodyIdentityQuote m s

def opIdentityOwnerEnrol : Op := Op.plain 0x1503 .owner .h
/-- IDENTITY.OWNER_ENROL: the SHA-384 of an owner key into the first empty fuse slot; with both written, NO_SPACE. -/
def bodyIdentityOwnerEnrol (m : Msg) (s : State) : Answer :=
  orDeny [(m.plen != 48, St.badLength), (decide (2 ≤ s.ctl.ownerKeys.length), St.noSpace)] s
    (done ((s.onCtl (fun c => { c with ownerKeys := c.ownerKeys ++ [leNat m.payload] })).ledgerWrite 3
      (firmwareRecord s.ctl.ownerKeys.length 0 0 0)))
def execIdentityOwnerEnrol (m : Msg) (s : State) : Out := commandRow opIdentityOwnerEnrol bodyIdentityOwnerEnrol m s

def opIdentityRollbackCommit : Op := Op.plain 0x1504 .owner .houseRun
/-- IDENTITY.ROLLBACK_COMMIT: each counter is raised to the SVN of the running image of its kind; a counter at 64 refuses. -/
def bodyIdentityRollbackCommit (m : Msg) (s : State) : Answer :=
  let r := max s.ctl.rootSvn (imageSvn s.ctl.root)
  let v := max s.ctl.serviceSvn (imageSvn s.ctl.service)
  orDeny [(m.plen != 0, St.badLength), (s.ctl.rootSvn == 64 || s.ctl.serviceSvn == 64, St.noSpace)] s
    (done (((s.onCtl (fun c => { c with rootSvn := r, serviceSvn := v })).ledgerWrite 3
      (firmwareRecord 0 (imageVersion s.ctl.service) v 0)).post 0 Ev.rollbackAdvanced Lv.device 0
        (leBytes 1 r ++ leBytes 1 v ++ zeros 2)))
def execIdentityRollbackCommit (m : Msg) (s : State) : Out := commandRow opIdentityRollbackCommit bodyIdentityRollbackCommit m s

end Sys2Proof.Machine
end

