-- ==== Sys2Proof/Machine/Counters.lean ====
section
/-! DEFINITION. Snapshots and the COUNTER commands on event counters (R442–R444, R540–R544, R557–R560). -/
namespace Sys2Proof.Machine
open Sys2Proof

/-- A snapshot is requested (R543, R544): it joins a request whose edge has not come; otherwise the edge is fixed 1 µs ahead. While a
copy is in progress the request waits for the next edge. -/
def State.requestSnapshot (s : State) (w : List SnapWaiter) : State :=
  s.onCount (fun c =>
    if c.snapAt.isSome then { c with snapWaiters := c.snapWaiters ++ w }
    else { c with snapAt := some (s.now + tkUs 1), snapWaiters := w })

/-- PMC_SNAP (R543, R557): a write with bit 0 set requests a snapshot. -/
def execPmcSnap (value : Nat) (s : State) : Out := .next (if bitOf value 0 then s.requestSnapshot [] else s)

/-- The bank a snapshot is written into (R544, R560): the one no pin holds, or the one not last written. -/
def CountSt.bankFor (c : CountSt) (now : Nat) : Nat :=
  match c.pin with
  | some (b, ends) => if now < ends then 1 - b else (match c.lastWritten with | some x => 1 - x | none => 0)
  | none => (match c.lastWritten with | some x => 1 - x | none => 0)

/-- The snapshot edge (R543): every counter is copied into a bank, with SNAP_ID and the local count; a pin on that bank that has
lapsed sets PIN_LOST (R560). An edge that is not due, or that would start a second copy, changes nothing. -/
def execSnapshotEdge (s : State) : Out :=
  .next (match s.count.snapAt with
    | some d =>
      if d ≤ s.now && s.count.copyEnd.isNone then
        let b := s.count.bankFor s.now
        let bank : Bank := { id := s.count.nextId, time := s.localNs, events := s.count.events, stats := s.port.stats }
        s.onCount (fun c => { c with
          bank0 := (if b = 0 then bank else c.bank0), bank1 := (if b = 0 then c.bank1 else bank),
          lastWritten := some b, copyBank := b, copyEnd := some (s.now + tkUs 2), copyWaiters := c.snapWaiters,
          snapWaiters := [], snapAt := none, nextId := c.nextId + 1,
          pinLost := (c.pinLost || (c.pinUsed && c.pinned == b)) })
      else s
    | none => s)

/-- SNAP_ID in four bytes and TIME in eight, of a bank (R442). -/
def Bank.idTime (b : Bank) : List Byte := leBytes 4 b.id ++ leBytes 8 b.time

def CountSt.bank (c : CountSt) (b : Nat) : Bank := if b = 0 then c.bank0 else c.bank1

/-- The newest complete bank; before the first snapshot one that reads zero (R544). -/
def CountSt.newestBank (c : CountSt) : Bank := match c.newest with | some b => c.bank b | none => Bank.reset

/-- The command whose response a snapshot's waiter still owes. -/
def SnapWaiter.msg (w : SnapWaiter) : Msg :=
  { lane := match w.ring with | some p => .work p | none => if w.urgent then .urgent w.mb else .mailbox w.mb,
    tag := w.tag, seq := w.seq, replaySafe := false, async := false, payload := [], ext := none }

/-- The copy is complete 2 µs after the edge (R543): the bank is the newest, SNAPSHOT_TAKEN goes to every mailbox of a live stage,
source 91 is raised, and COUNTER.SNAPSHOT commands that asked for it are answered with SNAP_ID and TIME (R442). -/
def execSnapshotTaken (s : State) : Out :=
  .next (match s.count.copyEnd with
    | some d =>
      if d ≤ s.now then
        let b := s.count.bank s.count.copyBank
        let s1 := s.onCount (fun c => { c with newest := some c.copyBank, copyEnd := none, copyWaiters := [] })
        let s2 := (s1.postAll s1.liveStages Ev.snapshotTaken Lv.device 0 b.idTime).raiseIrq 91
        s.count.copyWaiters.foldl (fun x w => respond 0x1302 w.msg (doneWith b.idTime x)) s2
      else s
    | none => s)

/-- Reading PMC_SNAP_ID pins the newest complete bank for 10 ms (R560). -/
def execPmcSnapIdRead (s : State) : Out :=
  .next (match s.count.newest with
    | some b => s.onCount (fun c => { c with pin := some (b, s.now + tkMs 10), pinned := b, pinUsed := true })
    | none => s)

/-- A pin ends 10 ms after the read that set it (R560). -/
def execSnapshotPinLapse (s : State) : Out :=
  .next (match s.count.pin with
    | some (_, ends) => if ends ≤ s.now then s.onCount (fun c => { c with pin := none }) else s
    | none => s)

def opCounterSnapshot : Op := Op.plain 0x1302 .owner .all
/-- Requests a snapshot; the response waits for its edge and copy (R442). -/
def bodyCounterSnapshot (m : Msg) (s : State) : Answer :=
  orDeny [(m.plen != 0, St.badLength)] s
    (hold (s.requestSnapshot [{ mb := s.mbOf m, urgent := laneUrgent m.lane, ring := laneRing m.lane, tag := m.tag, seq := m.seq }]))
def execCounterSnapshot (m : Msg) (s : State) : Out := commandRow opCounterSnapshot bodyCounterSnapshot m s

/-! ### Event numbers (R541, R542): which are per stage -/

/-- Is event e of a tile per stage? The ranges of the chapters' own counter rules; within a chapter's range the per-stage counters
come first in 0x90–0xB7 and 0xB8–0xCF. -/
def tileEventPerStage (e : Nat) : Bool :=
  if e ≤ 0x04 then false
  else if e ≤ 0x13 then true
  else if e ≤ 0x1F then false
  else !((decide (0xAD ≤ e) && decide (e ≤ 0xB7)) || (decide (0xC3 ≤ e) && decide (e ≤ 0xCF)) || decide (0xE4 ≤ e))

/-- A control-die event is device level but for PUNT_RECLAIM and the per-stage counters of time and records (R412, R492). -/
def ctlEventPerStage (e : Nat) : Bool := e == 0xBC || (decide (0xC0 ≤ e) && decide (e ≤ 0xCD))

def eventPerStage (t e : Nat) : Bool :=
  if 0x100 ≤ e then true else if t = 8 then ctlEventPerStage e else tileEventPerStage e

/-- The value at an event number: a device-level event ignores STAGE (R540); numbers from 0x100 read zero (R443). -/
def eventValue (ev : SMap Nat) (t k e : Nat) : Nat :=
  if 0x100 ≤ e then 0 else SMap.get 0 (evtKey t (if eventPerStage t e then k else 0) e) ev

def opCounterEvents : Op := (Op.plain 0x1303 .stage .all).withRS
/-- COUNT values from FIRST on, live or from the newest snapshot (R443); a side stage may name its own per-stage events only. -/
def bodyCounterEvents (m : Msg) (s : State) : Answer :=
  let view := m.u8 0
  let t := m.u8 1
  let k := m.u8 2
  let first := m.u16 4
  let n := m.u16 6
  let own := s.stageOf m
  let b := s.count.newestBank
  let ev := if view = 0 then s.count.events else b.events
  orDeny [(m.plen != 8, St.badLength),
          (decide (1 < view) || decide (8 < t) || decide (4 < k) || !m.zero 3 1 || n == 0 || decide (2040 < n), St.badField),
          (if own = 0 then k != 0 && (range first n).any (fun e => decide (e < 0x100) && eventPerStage t e)
           else k != own || (range first n).any (fun e => decide (e < 0x100) && !eventPerStage t e), St.notPermitted)] s
    (doneWith (leBytes 4 (if view = 0 then 0 else b.id) ++ zeros 4 ++ leBytes 8 (if view = 0 then s.localNs else b.time) ++
      ((range first n).map (fun e => leBytes 8 (eventValue ev t k e))).flatten) s)
def execCounterEvents (m : Msg) (s : State) : Out := commandRow opCounterEvents bodyCounterEvents m s

def opCounterSlots : Op := (Op.plain 0x1304 .owner .all).withRS
/-- The slot totals, events 0x18–0x1F of T0 to T7 (R444, R542). -/
def bodyCounterSlots (m : Msg) (s : State) : Answer :=
  let view := m.u8 0
  let b := s.count.newestBank
  let ev := if view = 0 then s.count.events else b.events
  orDeny [(m.plen != 4, St.badLength), (decide (1 < view) || !m.zero 1 3, St.badField)] s
    (doneWith (leBytes 4 (if view = 0 then 0 else b.id) ++ zeros 4 ++ leBytes 8 (if view = 0 then s.localNs else b.time) ++
      ((range 0 8).map (fun t => ((range 0x18 8).map (fun e => leBytes 8 (eventValue ev t 0 e))).flatten)).flatten) s)
def execCounterSlots (m : Msg) (s : State) : Out := commandRow opCounterSlots bodyCounterSlots m s

/-! ### COUNTER.READ and COUNTER.LPORT (R122, R133, R441, R445) -/

/-- The place of a counter's lost-contents mark. -/
def lostKey (k t idx : Nat) : Nat := (k * 8 + t) * 2 ^ 20 + idx
/-- A counter lost contents in a tile, or stands poisoned there. -/
def State.ctrLostIn (s : State) (i : Inst) (k t idx : Nat) : Bool :=
  SMap.get 0 (lostKey k t idx) s.tab.ctrLost != 0 || s.locPoison i t (directLoc 13 idx)
/-- A counter of one tile: PACKETS and BYTES; a poisoned word reads as nothing. -/
def State.counterIn (s : State) (i : Inst) (t idx : Nat) : Nat × Nat :=
  if s.locPoison i t (directLoc 13 idx) then (0, 0)
  else let w := s.readLoc i t (directLoc 13 idx); (bitsOf w 0 64, bitsOf w 64 64)
/-- A clearing read zeroes every tile's word and its mark. -/
def State.clearCounter (s : State) (i : Inst) (k idx : Nat) : State :=
  forEach (s.stageTiles k) (fun t s =>
    (if s.locPoison i t (directLoc 13 idx) then s else s.writeLoc i t (directLoc 13 idx) 0).onTab (fun a => { a with
      ctrLost := SMap.put 0 (lostKey k t idx) 0 a.ctrLost })) s

/-- The bits of a map, eight to a byte. -/
def packBits : List Bool → Nat
  | [] => 0
  | b :: l => flagNat b + 2 * packBits l

def opCounterRead : Op := (Op.plain 0x1301 .stage .all).withRS
def bodyCounterRead (m : Msg) (s : State) : Answer :=
  let k := s.stageOf m
  let first := m.u32 0
  let n := m.u16 4
  let clear := bitOf (m.u8 6) 0
  let most := match m.lane with | .work _ => 4000 | _ => 1000
  let inst := s.instOf k 13 (s.ver k).cur
  let tiles := s.stageTiles k
  orDeny [(m.plen != 8, St.badLength),
          (n == 0 || decide (most < n) || decide (1 < m.u8 6) || !m.zero 7 1 ||
            (match inst with | some i => decide (i.capacity < first + n) | none => true), St.badField)] s
    (match inst with
     | none => deny St.badField s
     | some i =>
       let lost := (range first n).map (fun c => tiles.any (fun t => s.ctrLostIn i k t c))
       let s1 := if clear then forEach (range first n) (fun c s => s.clearCounter i k c) s else s
       doneWith (leBytes 4 first ++ leBytes 2 n ++ leBytes 2 (flagNat (lost.any (fun b => b))) ++
         ((range first n).map (fun c =>
           leBytes 8 (sumOver tiles (fun t => (s.counterIn i t c).1)) ++ leBytes 8 (sumOver tiles (fun t => (s.counterIn i t c).2)))).flatten ++
         leBytes ((n + 7) / 8) (packBits lost)) s1)
def execCounterRead (m : Msg) (s : State) : Out := commandRow opCounterRead bodyCounterRead m s

def opCounterLport : Op := (Op.plain 0x1305 .stage .all).withRS
/-- The 48 counters of an lport, live, live with the clearing read of R53, or of the newest snapshot. -/
def bodyCounterLport (m : Msg) (s : State) : Answer :=
  let l := m.u16 0
  let view := m.u8 2
  let b := s.count.newestBank
  let from_ := if view = 2 then b.stats else s.port.stats
  let s1 := if view = 1 then s.onPort (fun p => { p with stats := SMap.keep (fun key _ => key / 64 != l) p.stats }) else s
  orDeny [(m.plen != 4, St.badLength), (decide (383 < l) || decide (2 < view) || !m.zero 3 1, St.badField),
          (!s.ownsLport (s.stageOf m) l, St.notPermitted)] s
    (doneWith (leBytes 8 (if view = 2 then b.time else s.localNs) ++
      ((range 0 48).map (fun i => leBytes 8 (SMap.get 0 (l * 64 + i) from_))).flatten) s1)
def execCounterLport (m : Msg) (s : State) : Out := commandRow opCounterLport bodyCounterLport m s

end Sys2Proof.Machine
end

