-- ==== Sys2Proof/Machine/LoadOps.lean ====
section
/-! DEFINITION. Chunked loads of parse graphs, pattern sets and edit programs (R97, R223, R256), shared by the three kinds. -/
namespace Sys2Proof.Machine
open Sys2Proof

/-- The assembly of a stage and kind (1 graph, 2 pattern set, 3 edit program). -/
def State.assembly (s : State) (k kind : Nat) : Option Assembly :=
  (SMap.find (k * 4 + kind) s.tab.loads).map (fun a => { total := a.2, bytes := a.1, final := false })

/-- Keep the assembly, or, with its final chunk, hand the image over for validation. -/
def State.keepChunk (s : State) (k kind : Nat) (a : Assembly) : State :=
  s.onTab (fun t =>
    if a.final then { t with loads := SMap.erase (k * 4 + kind) t.loads, checking := t.checking ++ [(k * 4 + kind, a.bytes)] }
    else { t with loads := SMap.insert (k * 4 + kind) (a.bytes, a.total) t.loads })

/-- A chunk of a load: its own checks, the limit of R419 for a final chunk, the chapter's conditions, and the assembly. -/
def loadChunk (kind : Nat) (conds : State → Nat → List (Bool × Nat)) (m : Msg) (s : State) : Answer :=
  let k := s.stageOf m
  match firstRefusal (chunkChecks m) with
  | some st => deny st s
  | none =>
    match takeChunk (s.assembly k kind) m with
    | .refused st => deny st s
    | .taken a =>
      orDeny ((a.final && s.atLimit m, St.busy) :: conds s k) s
        (if a.final then accept (s.keepChunk k kind a) else done (s.keepChunk k kind a))

/-- The image of a stage and kind first in line for validation. -/
def State.firstChecking (s : State) (k kind : Nat) : Option (List Byte) :=
  (s.tab.checking.find? (fun e => e.1 == k * 4 + kind)).map (fun e => e.2)
def State.popChecking (s : State) (k kind : Nat) : State :=
  s.onTab (fun t => { t with checking := match t.checking.find? (fun e => e.1 == k * 4 + kind) with
    | some e => t.checking.erase e | none => t.checking })

/-- The chunk of an image at an offset, as the READ commands return it (log entry for their payload: VERSION, three zero bytes, OFFSET). -/
def imageChunk (img : List Byte) (offset : Nat) : List Byte := chunkOf img offset chunkMax

/-- The checks of such a READ's payload. -/
def imageReadChecks (m : Msg) : List (Bool × Nat) :=
  [(m.plen != 8, St.badLength), (!m.zero 1 3 || (decide (13 < m.u8 0) && m.u8 0 != 0xF), St.badField)]

/-- What a binding holds for the version a READ names: a live version, or 0xF for what is staged. -/
def bindOf {α : Type} (s : State) (k version : Nat) (b : Bind α) : Option α :=
  let v := s.ver k
  if version = 0xF then b.next
  else if version = v.cur then b.cur
  else if v.retiring = some version then b.serving true
  else none

/-- The live and staged versions of a stage with what serves each (R99, R223): current, retiring, staged. -/
def servings {α : Type} (s : State) (k : Nat) (b : Bind α) : List (Nat × α) :=
  let v := s.ver k
  (match b.cur with | some x => [(v.cur, x)] | none => []) ++
    (match v.retiring, b.serving true with | some r, some x => [(r, x)] | _, _ => []) ++ (match b.next with | some x => [(0xF, x)] | none => [])

end Sys2Proof.Machine
end

