-- ==== Sys2Proof/Machine/LearnOps.lean ====
section
/-! DEFINITION. Learning (R123–R128): source lookups, provisional and conversational entries, verdicts, and the entries a tile holds. -/
namespace Sys2Proof.Machine
open Sys2Proof

/-! ### Fields of an L2 entry (R115) -/

def l2Hit (raw : Nat) : Bool := bitOf raw 121
def l2Prov (raw : Nat) : Bool := bitOf raw 120
def l2Dest (raw : Nat) : Nat := bitsOf raw 51 9
def l2Prev (raw : Nat) : Nat := bitsOf raw 42 9
def l2Pv (raw : Nat) : Bool := bitOf raw 41
def l2Seq (raw : Nat) : Nat := bitsOf raw 29 12
/-- Write a field of `n` bits at `lo`. -/
def putBits (raw lo n v : Nat) : Nat := raw - bitsOf raw lo n * 2 ^ lo + v % 2 ^ n * 2 ^ lo

/-- The key of a station (R110). -/
def l2Key (k vid mac : Nat) : Nat := k * 2 ^ 61 + vid % 4096 * 2 ^ 48 + mac % 2 ^ 48

/-- A learned entry: valid in every version (R114), HIT set. -/
def l2Learned (k vid mac lport : Nat) : Nat := 3 * 2 ^ 126 + k * 2 ^ 123 + 2 ^ 121 + vid % 4096 * 2 ^ 108 + mac % 2 ^ 48 * 2 ^ 60 + lport * 2 ^ 51

/-- The slot of the learned entry of a key, and what it holds. -/
def State.learnedSlot (s : State) (i : Inst) (t key : Nat) : Option (Nat × Nat × Nat) :=
  (s.slotsOfKey i t key).find? (fun x => entLearned 1 x.2.2)
/-- The slot of the static entry of a key valid in a parity. -/
def State.staticSlot (s : State) (i : Inst) (t key parity : Nat) : Option (Nat × Nat × Nat) :=
  (s.slotsOfKey i t key).find? (fun x => !entLearned 1 x.2.2 && bitOf (entVmask 1 x.2.2) parity)

/-- Write a slot of an L2 instance in place. -/
def State.putSlot (s : State) (i : Inst) (t b j raw : Nat) : State := s.writeLoc i t (i.slot b j false) raw

/-- A firm station move is counted, and its second's total kept (R128). -/
def State.stationMove (s : State) (t k : Nat) : State :=
  let sec := s.now / tkS 1
  (s.bump t k 0x37).onTab (fun a => { a with
    moveRate := SMap.upd (0, 0) (t * 5 + k) (fun m => if m.1 = sec then (sec, m.2 + 1) else (sec, 1)) a.moveRate })

/-- LEARN_FULL: counted, and the first in a tile after a second without one is an event (R113, R135). -/
def State.learnFull (s : State) (t k : Nat) : State :=
  let o := (s.bump t k 0x35).onset 2 (t * 5 + k)
  if o.1 then o.2.post k Ev.learnTableFull Lv.tile t (leBytes 1 t ++ zeros 3) else o.2

/-- What a source lookup did: the state, LEARN_PROV of the frame, and a static conflict met. -/
structure Learned where
  state : State
  prov : Bool
  conflict : Bool

/-- A provision awaits its frame's verdict. -/
def State.addProv (s : State) (p : Prov) : State := s.onTab (fun t => { t with provs := t.provs ++ [p] })

/-- A source lookup on an arrival (R123, R125, R127): `room` says whether the tile's learning queue has a place for the request. -/
def State.learnSource (s : State) (t k v vid mac lport seq : Nat) (room : Bool) : Learned :=
  match s.instOf k 1 v with
  | none => { state := s, prov := false, conflict := false }
  | some i =>
    let key := l2Key k vid mac
    let prov : Prov := { tile := t, stage := k, vid := vid, mac := mac, lport := lport, seq := seq, verdict := none }
    match s.staticSlot i t key (v % 2) with
    | some x =>
      let s1 := s.putSlot i t x.1 x.2.1 (setBit x.2.2 121 true)
      if l2Dest x.2.2 = lport then { state := s1, prov := false, conflict := false }
      else { state := s1.bump t k 0x38, prov := false, conflict := true }
    | none =>
      match s.learnedSlot i t key with
      | some x =>
        if l2Dest x.2.2 = lport then
          if l2Prov x.2.2 then
            { state := (s.putSlot i t x.1 x.2.1 (putBits (setBit x.2.2 121 true) 29 12 seq)).addProv prov, prov := true, conflict := false }
          else { state := s.putSlot i t x.1 x.2.1 (setBit x.2.2 121 true), prov := false, conflict := false }
        else if !room then { state := s.bump t k 0x36, prov := false, conflict := false }
        else
          let raw := putBits (putBits (putBits (setBit (setBit (setBit x.2.2 121 true) 120 true) 41 true) 42 9 (l2Dest x.2.2)) 51 9 lport) 29 12 seq
          { state := ((s.putSlot i t x.1 x.2.1 raw).bump t k 0x33).addProv prov, prov := true, conflict := false }
      | none =>
        if !room then { state := s.bump t k 0x36, prov := false, conflict := false }
        else match s.insertEnt i t 4 (putBits (setBit (l2Learned k vid mac lport) 120 true) 29 12 seq) with
          | some s1 => { state := (s1.bump t k 0x33).addProv prov, prov := true, conflict := false }
          | none => { state := s.learnFull t k, prov := false, conflict := false }

/-- Conversational learning on a transmission (R124): never provisional, never over a static entry. -/
def State.learnTalk (s : State) (t k v vid mac lport : Nat) (room : Bool) : State :=
  match s.instOf k 1 v with
  | none => s
  | some i =>
    let key := l2Key k vid mac
    match s.staticSlot i t key (v % 2) with
    | some _ => s
    | none =>
      match s.learnedSlot i t key with
      | some x =>
        if l2Dest x.2.2 = lport then s.putSlot i t x.1 x.2.1 (setBit x.2.2 121 true)
        else if !room then s.bump t k 0x36
        else
          let raw := putBits (setBit (setBit (putBits (putBits (setBit x.2.2 121 true) 51 9 lport) 42 9 0) 120 false) 41 false) 29 12 0
          (s.putSlot i t x.1 x.2.1 raw).stationMove t k
      | none =>
        if !room then s.bump t k 0x36
        else match s.insertEnt i t 4 (l2Learned k vid mac lport) with
          | some s1 => s1
          | none => s.learnFull t k

/-- The frame's verdict reaches the provisions it made (R126). -/
def State.giveVerdict (s : State) (t lport seq : Nat) (good : Bool) : State :=
  s.onTab (fun a => { a with provs := a.provs.map (fun p =>
    if p.tile = t ∧ p.lport = lport ∧ p.seq = seq ∧ p.verdict = none then { p with verdict := some good } else p) })

/-- The sequencer acts on one verdict, on the instance given. -/
def State.judgeProvIn (s : State) (i : Inst) (p : Prov) (good : Bool) : State :=
  match s.learnedSlot i p.tile (l2Key p.stage p.vid p.mac) with
  | none => s
  | some x =>
    let raw := x.2.2
    if !(l2Prov raw && l2Dest raw == p.lport) then s
    else if good then
      let firm := putBits (putBits (setBit (setBit raw 120 false) 41 false) 42 9 0) 29 12 0
      let s1 := s.putSlot i p.tile x.1 x.2.1 firm
      if l2Pv raw then s1.stationMove p.tile p.stage else s1
    else if l2Seq raw != p.seq then s
    else
      let s1 := if l2Pv raw then
          s.putSlot i p.tile x.1 x.2.1 (putBits (putBits (putBits (setBit (setBit raw 120 false) 41 false) 51 9 (l2Prev raw)) 42 9 0) 29 12 0)
        else s.putSlot i p.tile x.1 x.2.1 0
      s1.bump p.tile p.stage 0x34

/-! ### The learned entries of a tile -/

/-- Does a word key lie in a list of paddocks of a tile? -/
def inPads (t : Nat) (pads : List Nat) (key : Nat) : Bool := key / 4 / 8192 / 96 == t && pads.contains (key / 4 / 8192 % 96)

/-- The words of a tile that hold learned entries of a stage's L2 instances, in memory order (log entry 22). -/
def State.learnedWords (s : State) (t k : Nat) (is : List Inst) : List (Nat × Nat) :=
  let pads := (is.map (fun i => SMap.get [] t i.pads)).flatten
  s.tab.sram.filter (fun e => inPads t pads e.1 && entVmask 1 e.2 != 0 && entLearned 1 e.2 && entStage 1 e.2 == k)

end Sys2Proof.Machine
end

