-- ==== Sys2Proof/Machine/Tables.lean ====
section
/-! DEFINITION. The TABLE commands that stage and read table state (R107, R129, R136, R152–R154, R428) and INSTANCE_READY. -/
namespace Sys2Proof.Machine
open Sys2Proof

/-! ### Shared checks -/

/-- A staging command of a stage: BUSY while its resize runs (R438), VERSION_CONFLICT while a commit is accepted and not flipped (R182). -/
def stagingChecks (s : State) (k : Nat) : List (Bool × Nat) :=
  [((s.stage k).state == 3, St.busy), (s.committing k, St.versionConflict)]
/-- A change of a bank: BUSY while the retiring version uses it (R165, R182). -/
def bankChecks (s : State) (k : Nat) : List (Bool × Nat) := stagingChecks s k ++ [(s.hasRetiring k, St.busy)]

/-- The first failing item of a list: its status and index. -/
def firstBad {α : Type} (f : α → Option Nat) : List α → Nat → Option (Nat × Nat)
  | [], _ => none
  | a :: l, i => match f a with | some st => some (st, i) | none => firstBad f l (i + 1)

/-- A refusal that names its item, or the answer. -/
def orDenyAt (bad : Option (Nat × Nat)) (s : State) (a : Answer) : Answer :=
  match bad with | some x => denyAt x.1 x.2 s | none => a

/-- Apply each item in turn; the first that fails gives its status and index. -/
def stageAll {α : Type} (f : α → State → Sum State Nat) : List α → Nat → State → Sum State (Nat × Nat)
  | [], _, s => .inl s
  | a :: l, i, s => match f a s with | .inl x => stageAll f l (i + 1) x | .inr st => .inr (st, i)

/-- All records or none (R152). -/
def stagedAnswer {α : Type} (f : α → State → Sum State Nat) (l : List α) (s : State) : Answer :=
  match stageAll f l 0 s with | .inl x => done x | .inr e => denyAt e.1 e.2 s

/-- Complete the accepted command a test finds (R418). -/
def State.finishFor (s : State) (r : Nat) (p : Outst → Bool) (code level unit status : Nat) (payload : List Byte) : State :=
  match (s.mb r).outstanding.find? p with
  | some o => (s.dropOut r o).postDone r code level unit o.tag status payload
  | none => s

/-! ### TABLE.CREATE and INSTANCE_READY (R105–R108) -/

/-- Is P one that R105 gives a kind (R143 for FILTER4; FILTER6 is bounded by the tile alone, log entry 42)? -/
def paddocksOk (kind p : Nat) : Bool :=
  let pow2 (hi : Nat) : Bool := [1, 2, 4, 8, 16, 32, 64].contains p && decide (p ≤ hi)
  let upTo (hi : Nat) : Bool := decide (1 ≤ p) && decide (p ≤ hi)
  if kind = 1 then pow2 32 else if 2 ≤ kind ∧ kind ≤ 5 then pow2 64 else if kind = 6 then upTo 32 else if kind = 7 then upTo 8
  else if kind = 8 then upTo 96 else if kind = 9 ∨ kind = 10 then upTo 8 else if kind = 11 then p == 2 else if kind = 12 then upTo 16
  else if kind = 13 then upTo 32 else false

/-- SPLIT is allowed (R106). -/
def splitOk (s : State) (k kind p : Nat) : Bool :=
  (kind == 2 || kind == 3 || kind == 9 || kind == 10 || kind == 12) && p % 2 == 0 &&
    (s.stageTiles k).all (fun t => (s.stageTiles k).contains (twinOf t))

/-- The instance that a create gives, with its paddocks in every tile of the stage. -/
def State.newInst (s : State) (k kind : Nat) (split : Bool) (p seed1 seed2 : Nat) : Inst :=
  { kind := kind, split := split, p := p, seed1 := seed1, seed2 := seed2,
    pads := (s.stageTiles k).map (fun t => (t, s.takePads t (if split then p / 2 else p))), ready := false }

def opTableCreate : Op := (Op.plain 0x0701 .stage .cfg).withA
def bodyTableCreate (m : Msg) (s : State) : Answer :=
  let kind := m.u8 0
  let split := m.u8 1 == 1
  let p := m.u8 2
  let k := s.stageOf m
  orDeny [(m.plen != 16, St.badLength),
          (!paddocksOk kind p || decide (1 < m.u8 1) || (split && !splitOk s k kind p) || !m.zero 3 1 || !m.zero 12 4, St.badField),
          (s.atLimit m, St.busy), ((s.stage k).state == 3, St.busy),
          ((s.stageTiles k).any (fun t => decide (s.padsFree k t < (if split then p / 2 else p))), St.noSpace),
          (s.committing k, St.versionConflict), ((s.insts k kind).next.isSome, St.busy)] s
    (accept ((s.onInsts k kind (fun b => { b with next := some (s.newInst k kind split p (m.u32 4) (m.u32 8)) })).setBatch k))
def execTableCreate (m : Msg) (s : State) : Out := commandRow opTableCreate bodyTableCreate m s

/-- Write what the backing store holds of a hashed kind into a new instance (log entry 38). -/
def State.fillHash (s : State) (k : Nat) (i : Inst) : State :=
  (s.backsOf k i.kind).foldl (fun s e => e.2.foldl (fun s x =>
    (insertTiles i (entSetVmask i.kind x.content x.vmask) (s.instTiles k i) s).getD s) s) s

/-- The raw word of a direct entry of the backing store: members and replication entries carry no VMASK. -/
def directRaw (kind key : Nat) (x : BEnt) : Nat :=
  if kind = 12 ∨ (kind = 10 ∧ 2 ^ 30 ≤ key) then x.content else x.content + x.vmask * 2 ^ 126

/-- The tiles a direct entry stands in. -/
def State.directTiles (s : State) (k : Nat) (i : Inst) (tile : Option Nat) : List Nat :=
  (s.instTiles k i).filter (fun t => match tile with | some u => u == t || (i.split && twinOf u == t) | none => true)

def State.fillDirect (s : State) (k : Nat) (i : Inst) : State :=
  (s.backsOf k i.kind).foldl (fun s e => match e.2.head? with
    | some x => forEach (s.directTiles k i (directPlace i.kind e.1).1) (fun t y =>
        y.writeLoc i t (directPlace i.kind e.1).2 (directRaw i.kind e.1 x)) s
    | none => s) s

/-- The direct halves of a new instance: what the next version holds, valid in whichever version reads the instance. -/
def State.fillHalves (s : State) (k : Nat) (i : Inst) : State :=
  let mask := if s.hasRetiring k then s.curMask k else s.nextMask k
  (s.backsOf k 6).foldl (fun s e =>
    let d := e.1 / 2 ^ 33
    let ps := s.shortPrefixes k d mask
    let len := pkeyLen 32 (e.1 % 2 ^ 33)
    forEach (s.instTiles k i) (fun t s =>
      forEach (range (pkeyAddr 32 (e.1 % 2 ^ 33) / 65536) (2 ^ (16 - len))) (fun x s =>
        s.writeLoc i t (directHalfLoc d x) (directWord k (3, coverOf ps x) (0, 0))) s) s) s

/-- Fill a new instance with the stage's entries of its kind. -/
def State.fillInst (s : State) (k : Nat) (i : Inst) : State :=
  if i.kind = 6 then s.fillHalves k i
  else if i.kind = 7 then (s.backsOf k 4).foldl (fun s e =>
    s.setFilter4In i k (e.1 / 2 ^ 56 % 32) (e.1 % 2 ^ 33 / 2 ^ 17) (pkeyLen 32 (e.1 % 2 ^ 33)) true) s
  else if i.kind = 8 then forEach (range 0 32) (fun d s =>
    forEach (s.instTiles k i) (fun t s => forEach (s.tops6 k d) (fun top s => s.addFilter6 i k d top t) s) s) s
  else if i.kind = 13 then s
  else if 9 ≤ i.kind then s.fillDirect k i
  else s.fillHash k i

/-- INSTANCE_READY (R107): every tile has zeroed the staged instance's paddocks; the create completes with its kind and P. -/
def execInstanceReady (k kind : Nat) (s : State) : Out :=
  onUnit (decide (k ≤ 4) && decide (kind < 16))
    (match (s.insts k kind).next with
     | some i =>
       if i.ready then s
       else ((((s.zeroInst i).fillInst k i).onInsts k kind (fun b => { b with next := b.next.map (fun x => { x with ready := true }) })).finishFor k
         (fun o => o.opcode == 0x0701 && fieldLE o.payload 0 1 == kind) Ev.instanceReady Lv.device k St.done
         (leBytes 1 kind ++ leBytes 1 i.p ++ zeros 2))
     | none => s)

/-! ### TABLE.PROFILE (R153) and TABLE.DOMAIN (R154) -/

def opTableProfile : Op := (Op.plain 0x0702 .stage .cfg).withRS
/-- A field of R153 is out of range. -/
def profileBad (m : Msg) (s : State) (k : Nat) : Bool :=
  decide (1 < m.u8 0) || decide (63 < m.u8 1) || decide (31 < m.u8 2) || !m.zero 3 1 || decide (4095 < m.u16 4) || decide (62 < m.u8 6) ||
    decide (63 < m.u8 7) || decide (63 < m.u8 8) || decide (60 < m.u8 9) || decide (62 < m.u8 12) || decide (16 < m.u8 13) || !m.zero 14 2 ||
    decide (2 ^ 18 ≤ m.u32 16) || decide (2 ^ 18 ≤ m.u32 20) ||
    (range 0 (m.u8 13)).any (fun i => bitsOf (m.u16 (30 + 8 * i)) 12 3 != 0) ||
    (range 0 384).any (fun l => decide (4095 < m.u16 (152 + 2 * l)) && s.ownsLport k l)
def bodyTableProfile (m : Msg) (s : State) : Answer :=
  let k := s.stageOf m
  orDeny ([(m.plen != 920, St.badLength), (profileBad m s k, St.badField)] ++ bankChecks s k) s
    (done (s.stageCfg k (fun c => { c with profile := m.payload })))
def execTableProfile (m : Msg) (s : State) : Out := commandRow opTableProfile bodyTableProfile m s

/-- An index of a next hop (RKIND 0) or group (RKIND 1). -/
def resultOk (rkind result : Nat) : Bool := (rkind == 0 && decide (result < 2 ^ 18)) || (rkind == 1 && decide (result < 16384))

/-- RD records, and DEFAULT6 records, of TABLE.DOMAIN. -/
def rdRecords (m : Msg) : List (List Byte) := recordsOf m.payload 4 4 (m.u16 0)
def d6Records (m : Msg) : List (List Byte) := recordsOf m.payload (4 + 4 * m.u16 0) 8 (m.u8 2)

/-- Index of the first record that breaks R154, over the RD records and then the DEFAULT6 records. -/
def domainBad (m : Msg) (s : State) (k : Nat) : Option (Nat × Nat) :=
  let rds := rdRecords m
  let d6s := d6Records m
  let rdOf (r : List Byte) : Nat := fieldLE r 0 2
  let bad (x : Nat × List Byte) : Option Nat :=
    let r := x.2
    if x.1 < rds.length then
      let dom4 := fieldLE r 2 1
      let dom6 := fieldLE r 3 1
      if 4095 < rdOf r ∨ (dom4 ≠ 255 ∧ s.d4 k ≤ dom4) ∨ (dom6 ≠ 255 ∧ 31 < dom6) ∨ ((rds.take x.1).any (fun y => rdOf y == rdOf r)) then
        some St.badField else none
    else if 31 < fieldLE r 0 1 ∨ 1 < fieldLE r 1 1 ∨ ¬ zeroAt r 3 1 ∨ ¬ resultOk (fieldLE r 2 1) (fieldLE r 4 4) ∨
        ((d6s.take (x.1 - rds.length)).any (fun y => fieldLE y 0 1 == fieldLE r 0 1)) then some St.badField else none
  firstBad bad ((range 0 (rds.length + d6s.length)).zip (rds ++ d6s)) 0

/-- The configuration with the named RD and DEFAULT6 records applied. -/
def applyDomain (m : Msg) (c : LookCfg) : LookCfg :=
  let c1 := { c with domains := (rdRecords m).foldl (fun d r => SMap.insert (fieldLE r 0 2) (fieldLE r 2 1 + 256 * fieldLE r 3 1) d) c.domains }
  { c1 with default6 := (d6Records m).foldl (fun d r =>
      if fieldLE r 1 1 = 0 then SMap.erase (fieldLE r 0 1) d else SMap.insert (fieldLE r 0 1) (resultOf (fieldLE r 2 1) (fieldLE r 4 4)) d) c1.default6 }

def opTableDomain : Op := (Op.plain 0x0703 .stage .cfg).withRS
def bodyTableDomain (m : Msg) (s : State) : Answer :=
  let k := s.stageOf m
  orDeny [(m.plen != 4 + 4 * m.u16 0 + 8 * m.u8 2, St.badLength), (decide (4096 < m.u16 0) || decide (32 < m.u8 2) || !m.zero 3 1, St.badField)] s
    (orDenyAt (domainBad m s k) s (orDeny (bankChecks s k) s (done (s.stageCfg k (applyDomain m)))))
def execTableDomain (m : Msg) (s : State) : Out := commandRow opTableDomain bodyTableDomain m s

/-! ### TABLE.PFX_ADD and TABLE.PFX_DELETE (R152) -/

/-- A prefix record: family, length, RD, result and address. -/
structure PfxRec where
  family : Nat
  len : Nat
  rd : Nat
  rkind : Nat
  result : Nat
  addr : Nat
  deriving DecidableEq, Repr

def pfxRec (r : List Byte) : PfxRec :=
  let family := fieldLE r 0 1
  { family := family, len := fieldLE r 1 1, rd := fieldLE r 2 2, rkind := fieldLE r 4 1, result := fieldLE r 8 4,
    addr := beNat (sliceB r 12 (if family = 4 then 4 else 16)) }

/-- The domain a record's RD maps to. -/
def PfxRec.dom (p : PfxRec) (c : LookCfg) : Option Nat := if p.family = 4 then c.dom4 p.rd else c.dom6 p.rd

/-- A record breaks R152. -/
def pfxBad (c : LookCfg) (add : Bool) (r : List Byte) : Option Nat :=
  let p := pfxRec r
  let n := if p.family = 4 then 32 else 128
  if (p.family ≠ 4 ∧ p.family ≠ 6) ∨ (if p.family = 4 then 32 else 127) < p.len ∨ ¬ zeroAt r 5 3 ∨ (p.family = 4 ∧ ¬ zeroAt r 16 12) ∨
      p.addr % 2 ^ (n - p.len) ≠ 0 ∨ (p.dom c).isNone ∨ (add ∧ ¬ resultOk p.rkind p.result) then some St.badField else none

/-- The kind that holds a prefix is created (log entry 46: without it an addition finds no room). -/
def State.pfxHome (s : State) (k : Nat) (p : PfxRec) : Bool :=
  if p.family = 4 then (s.nextInst k (if p.len ≤ 16 then 6 else 4)).isSome else p.len == 0 || (s.nextInst k 5).isSome

/-- Stage one prefix record. -/
def stagePfx (k : Nat) (add : Bool) (r : List Byte) (s : State) : Sum State Nat :=
  let p := pfxRec r
  let d := (p.dom (s.nextCfg k)).getD 0
  if add then
    if !s.pfxHome k p then .inr St.noSpace
    else match s.addPrefix k p.family p.len d p.addr (resultOf p.rkind p.result) with
      | some x => .inl x
      | none => .inr St.noSpace
  else match s.dropPrefix k p.family p.len d p.addr with
    | some x => .inl x
    | none => .inr St.notFound

/-- Writes to direct halves that a hold delays: counted DIRECT_HELD in every tile (R142, R180; one a record, log entry 45). -/
def State.directHeld (s : State) (k : Nat) (rs : List (List Byte)) : State :=
  let n := (rs.filter (fun r => fieldLE r 0 1 == 4 && decide (fieldLE r 1 1 ≤ 16))).length
  forEach (s.stageTiles k) (fun t s => s.bumpN t k 0x49 n) s

/-- Both prefix commands. -/
def bodyPfx (opcode : Nat) (add : Bool) (m : Msg) (s : State) : Answer :=
  let k := s.stageOf m
  let rs := m.records 0 28
  orDeny [(m.plen % 28 != 0 || rs.isEmpty || decide (512 < rs.length), St.badLength)] s
    (orDenyAt (firstBad (pfxBad (s.nextCfg k) add) rs 0) s
      (orDeny (stagingChecks s k) s
        (if s.holdsWrites k then hold ((s.directHeld k rs).holdCommand opcode k rs.length m)
         else stagedAnswer (stagePfx k add) rs s)))

def opTablePfxAdd : Op := (Op.plain 0x0704 .stage .cfg).withRS
def bodyTablePfxAdd (m : Msg) (s : State) : Answer := bodyPfx 0x0704 true m s
def execTablePfxAdd (m : Msg) (s : State) : Out := commandRow opTablePfxAdd bodyTablePfxAdd m s

def opTablePfxDelete : Op := (Op.plain 0x0705 .stage .cfg).withRS
def bodyTablePfxDelete (m : Msg) (s : State) : Answer := bodyPfx 0x0705 false m s
def execTablePfxDelete (m : Msg) (s : State) : Out := commandRow opTablePfxDelete bodyTablePfxDelete m s

/-! ### TABLE.ENTRY_WRITE and TABLE.ENTRY_DELETE (R428) -/

/-- An entry record. -/
structure EntRec where
  kind : Nat
  words : Nat
  tile : Nat
  flags : Nat
  index : Nat
  value : Nat
  deriving DecidableEq, Repr

/-- Split a payload into entry records; none where it does not end with a record. -/
def entRecs (bs : List Byte) : Nat → Nat → Option (List EntRec)
  | 0, at_ => if at_ = bs.length then some [] else none
  | n + 1, at_ =>
    if at_ = bs.length then some []
    else
      let words := fieldLE bs (at_ + 1) 1
      if bs.length < at_ + 8 + 16 * words then none
      else match entRecs bs n (at_ + 8 + 16 * words) with
        | some l => some ({ kind := fieldLE bs at_ 1, words := words, tile := fieldLE bs (at_ + 2) 1, flags := fieldLE bs (at_ + 3) 1,
                            index := fieldLE bs (at_ + 4) 4, value := fieldLE bs (at_ + 8) (16 * words) } :: l)
        | none => none

def EntRec.member (r : EntRec) : Bool := r.kind == 10 && r.flags == 1
def EntRec.hashed (r : EntRec) : Bool := r.kind == 1 || r.kind == 2 || r.kind == 3

/-- The parts every record shares: KIND, WORDS, TILE, FLAGS and INDEX. -/
def EntRec.headOk (r : EntRec) (delete : Bool) : Bool :=
  (r.hashed || (decide (9 ≤ r.kind) && decide (r.kind ≤ 12))) &&
    r.words == (if r.kind = 3 then 2 else if r.hashed then 1 else if delete then 0 else 1) &&
    (if r.kind = 11 ∨ r.kind = 12 then decide (r.tile < 8) else r.tile == 0xFF) && (r.flags == 0 || r.member) && (!r.hashed || r.index == 0)

/-- The key fields of a hashed kind's words. -/
def hashedKeyBits (kind v : Nat) : Nat :=
  if kind = 1 then v / 2 ^ 60 % 2 ^ 60 * 2 ^ 60
  else if kind = 2 then v / 2 ^ 79 % 2 ^ 44 * 2 ^ 79
  else bitsOf v 111 12 * 2 ^ 111 + bitsOf v 43 64 * 2 ^ 43 + bitsOf v 188 64 * 2 ^ 188

/-- The key of a hashed record: VID and MAC, RD and address. -/
def hashedKeyOnly (kind v : Nat) : Nat :=
  if kind = 1 then bitsOf v 108 12 * 2 ^ 108 + bitsOf v 60 48 * 2 ^ 60 else hashedKeyBits kind v

/-- The value fields of a written record hold what R115–R121 allow, device fields and reserved fields zero. -/
def EntRec.valueOk (r : EntRec) (p : Nat) : Bool :=
  let v := r.value
  if r.kind = 1 then bitsOf v 123 5 == 0 && bitOf v 122 && bitsOf v 120 2 == 0 && decide (bitsOf v 51 9 ≤ 399) && bitsOf v 0 51 == 0
  else if r.kind = 2 then bitsOf v 123 5 == 0 && bitsOf v 0 35 == 0 && resultOk (bitsOf v 78 1) (bitsOf v 60 18)
  else if r.kind = 3 then
    bitsOf v 123 5 == 0 && bitsOf v 107 4 == 0 && bitsOf v 0 43 == 0 && bitsOf v 252 4 == 0 && bitsOf v 128 16 == 0 &&
      resultOk (bitsOf v 187 1) (bitsOf v 169 18)
  else if r.kind = 9 then bitsOf v 123 5 == 0 && decide (bitsOf v 114 9 ≤ 399) && bitsOf v 0 3 == 0
  else if r.member then decide (v < 2 ^ 18)
  else if r.kind = 10 then
    let n := bitsOf v 112 10
    let blog := bitsOf v 88 4
    let span := if bitOf v 122 then 2 ^ blog else n
    bitsOf v 123 5 == 0 && bitsOf v 0 85 == 0 && decide (1 ≤ n) && decide (n ≤ 512) && (!bitOf v 122 || (decide (6 ≤ blog) && decide (blog ≤ 12))) &&
      decide (65536 ≤ bitsOf v 92 20) && decide (bitsOf v 92 20 + span ≤ 131072 * p)
  else if r.kind = 11 then bitsOf v 123 5 == 0 && bitsOf v 0 83 == 0
  else
    let exit := bitsOf v 55 9
    decide (v < 2 ^ 64) && bitsOf v 0 36 == 0 &&
      ((decide (exit < 384) && tileOfLport exit == r.tile) || (decide (384 ≤ exit) && decide (exit < 392)) || exit == 392 + r.tile)

/-- The index lies in the instance (R109, R119: next hop 0 is no entry). -/
def EntRec.indexOk (r : EntRec) (i : Inst) : Bool :=
  if r.kind = 9 then decide (1 ≤ r.index) && decide (r.index < 32768 * i.p)
  else if r.member then decide (65536 ≤ r.index) && decide (r.index < 131072 * i.p)
  else if r.kind = 10 then decide (r.index < 16384)
  else if r.kind = 11 then decide (r.index < 65536)
  else decide (r.index < 65536 * i.p)

/-- A record breaks its layout. -/
def entBad (s : State) (k : Nat) (delete : Bool) (r : EntRec) : Option Nat :=
  if !r.headOk delete then some St.badField
  else if r.hashed then
    (if (if delete then r.value != hashedKeyOnly r.kind r.value else !r.valueOk 0) then some St.badField else none)
  else match s.nextInst k r.kind with
    | none => some St.badField
    | some i => if !r.indexOk i || (!delete && !r.valueOk i.p) then some St.badField else none

/-- A record names a tile or a multicast head of another stage (R121). -/
def entForeign (s : State) (k : Nat) (r : EntRec) : Option Nat :=
  if (r.kind = 11 ∨ r.kind = 12) ∧ !(s.stageTiles k).contains r.tile then some St.notPermitted
  else if r.kind = 11 ∧ !s.ownsHead k r.index then some St.notPermitted else none

/-- The backing key and the place of a direct record. -/
def EntRec.key (r : EntRec) : Nat :=
  if r.member then memberKey r.index else if r.kind = 11 ∨ r.kind = 12 then tileKey r.tile r.index else r.index

/-- Does a live version use a direct index (R118)? A versioned entry is used while it is valid in the current version; a member or a
replication entry while a group or a head valid in it reaches the word. -/
def State.indexUsed (s : State) (k : Nat) (r : EntRec) : Bool :=
  let cb := s.curMask k
  let live (l : List BEnt) : List BEnt := l.filter (fun x => x.vmask &&& cb != 0)
  if r.member then
    (s.backsOf k 10).any (fun e => decide (e.1 < 2 ^ 30) && (live e.2).any (fun x =>
      let base := bitsOf x.content 92 20
      decide (base ≤ r.index) && decide (r.index < base + (if bitOf x.content 122 then 2 ^ bitsOf x.content 88 4 else bitsOf x.content 112 10))))
  else if r.kind = 12 then
    (s.backsOf k 11).any (fun e => e.1 / 2 ^ 24 == r.tile && (live e.2).any (fun x =>
      decide (bitsOf x.content 95 20 ≤ r.index) && decide (r.index < bitsOf x.content 95 20 + bitsOf x.content 83 12)))
  else !(live (s.backs k r.kind r.key)).isEmpty

/-- Write a direct entry to the backing store and to the tiles it stands in. -/
def State.putDirect (s : State) (k kind key : Nat) (l : List BEnt) : State :=
  let p := directPlace kind key
  let raw := match l.head? with | some x => directRaw kind key x | none => 0
  ((s.writeDirect k kind p.1 p.2 raw).putBacks k kind key l).setBatch k

/-- Stage one record of TABLE.ENTRY_WRITE. -/
def stageEntry (k : Nat) (r : EntRec) (s : State) : Sum State Nat :=
  if r.hashed then
    let content := r.value + k * 2 ^ 123
    if (s.nextInst k r.kind).isNone then .inr St.noSpace
    else match s.stageHash k r.kind (entKey r.kind content) content with
      | some x => .inl x
      | none => .inr St.noSpace
  else if s.indexUsed k r then .inr St.versionConflict
  else if r.member ∨ r.kind = 12 then .inl (s.putDirect k r.kind r.key [{ vmask := 3, content := r.value }])
  else .inl (s.putDirect k r.kind r.key [{ vmask := s.nextMask k, content := r.value + k * 2 ^ 123 }])

/-- Stage one record of TABLE.ENTRY_DELETE. -/
def unstageEntry (k : Nat) (r : EntRec) (s : State) : Sum State Nat :=
  if r.hashed then
    match s.unstageHash k r.kind (entKey r.kind (r.value + k * 2 ^ 123)) with
    | some x => .inl x
    | none => .inr St.notFound
  else
    let l := s.backs k r.kind r.key
    if !inNext (s.nextMask k) l then .inr St.notFound
    else if r.member ∨ r.kind = 12 then (if s.indexUsed k r then .inr St.versionConflict else .inl (s.putDirect k r.kind r.key []))
    else .inl (s.putDirect k r.kind r.key
      ((l.filter (fun x => x.vmask == 3)).map (fun x => { x with vmask := s.curMask k })))

/-- Both entry commands. -/
def bodyEntries (opcode : Nat) (delete : Bool) (m : Msg) (s : State) : Answer :=
  let k := s.stageOf m
  match entRecs m.payload 513 0 with
  | none => deny St.badLength s
  | some rs =>
    orDeny [(rs.isEmpty || decide (512 < rs.length), St.badLength)] s
      (orDenyAt (firstBad (entBad s k delete) rs 0) s (orDenyAt (firstBad (entForeign s k) rs 0) s
        (orDeny (stagingChecks s k) s
          (if s.holdsWrites k then hold (s.holdCommand opcode k rs.length m)
           else stagedAnswer (if delete then unstageEntry k else stageEntry k) rs s))))

def opTableEntryWrite : Op := (Op.plain 0x0706 .stage .cfg).withRS
def bodyTableEntryWrite (m : Msg) (s : State) : Answer := bodyEntries 0x0706 false m s
def execTableEntryWrite (m : Msg) (s : State) : Out := commandRow opTableEntryWrite bodyTableEntryWrite m s

def opTableEntryDelete : Op := (Op.plain 0x0707 .stage .cfg).withRS
def bodyTableEntryDelete (m : Msg) (s : State) : Answer := bodyEntries 0x0707 true m s
def execTableEntryDelete (m : Msg) (s : State) : Out := commandRow opTableEntryDelete bodyTableEntryDelete m s

/-! ### TABLE.READ (R136) -/

/-- What a read may return: by VERSION, the parity an entry must be valid in (none: every entry), and the instance. -/
structure ReadView where
  parity : Option Nat
  inst : Option Inst
  live : Bool
  deriving DecidableEq, Repr

def State.readView (s : State) (k kind version : Nat) : ReadView :=
  let v := s.ver k
  if version = 0xE then { parity := none, inst := (s.insts k kind).cur, live := true }
  else if version = 0xF then { parity := some (nextVersion v.cur % 2), inst := s.nextInst k kind, live := true }
  else { parity := some (version % 2), inst := s.instOf k kind version, live := version == v.cur || v.retiring == some version }

/-- A record of R428 as a tile holds the entry. -/
def tableRecord (kind tile index raw : Nat) (member : Bool) : List Byte :=
  let words := if kind = 3 ∨ entLong kind raw then 2 else 1
  leBytes 1 kind ++ leBytes 1 words ++ leBytes 1 (if kind = 11 ∨ kind = 12 then tile else 0xFF) ++
    leBytes 1 ((if member then 1 else 0) + (if entLearned kind raw then 2 else 0)) ++ leBytes 4 index ++ leBytes (16 * words) raw

/-- Does a raw entry pass a view? -/
def passes (parity : Option Nat) (vmask : Nat) : Bool := match parity with | some p => bitOf vmask p | none => vmask != 0

/-- The records of one key of a hashed kind in a tile. -/
def State.readHashed (s : State) (i : Inst) (t key : Nat) (parity : Option Nat) : List (List Byte) :=
  ((s.slotsOfKey i t key).filter (fun x => passes parity (entVmask i.kind x.2.2))).map (fun x => tableRecord i.kind t 0 x.2.2 false)

/-- The record of one direct index in a tile; members and replication entries are there when the backing store lists them. -/
def State.readDirect (s : State) (k : Nat) (i : Inst) (t key index : Nat) (member : Bool) (parity : Option Nat) : List (List Byte) :=
  let raw := s.readLoc i t (directPlace i.kind key).2
  let here := if member ∨ i.kind = 12 then !(s.backs k i.kind key).isEmpty else passes parity (bitsOf raw 126 2)
  if here then [tableRecord i.kind t index raw member] else []

/-- The index of a backing key of a direct kind, and whether it is a member word. -/
def directIndex (kind key : Nat) : Nat × Bool :=
  if kind = 10 ∧ 2 ^ 30 ≤ key then (key - 2 ^ 30, true) else if kind = 11 ∨ kind = 12 then (key % 2 ^ 24, false) else (key, false)

/-- The records of a walk of the versioned entries, in key or index order. -/
def State.walkVersioned (s : State) (k kind t : Nat) (i : Inst) (parity : Option Nat) : List (List Byte) :=
  if kind ≤ 5 then
    ((s.backsOf k kind).map (fun e => ((s.slotsOfKey i t e.1).filter (fun x =>
      passes parity (entVmask kind x.2.2) && !entLearned kind x.2.2)).map (fun x => tableRecord kind t 0 x.2.2 false))).flatten
  else
    (((s.backsOf k kind).filter (fun e => if kind = 11 ∨ kind = 12 then e.1 / 2 ^ 24 == t else true)).map (fun e =>
      s.readDirect k i t e.1 (directIndex kind e.1).1 (directIndex kind e.1).2 parity)).flatten

/-- The learned records of a tile from a place on: place and record. -/
def State.walkLearned (s : State) (k t : Nat) (i : Inst) (from_ : Nat) : List (Nat × List Byte) :=
  ((s.learnedWords t k [i]).map (fun e => (e.1 % (96 * 32768), tableRecord 1 t 0 e.2 false))).filter (fun e => decide (from_ ≤ e.1))

/-- The answer of a read: NEXT_CURSOR, COUNT, MOVED, zero bytes and the records. -/
def readAnswer (next moved : Nat) (rs : List (List Byte)) : List Byte :=
  leBytes 4 next ++ leBytes 4 rs.length ++ leBytes 4 moved ++ zeros 4 ++ rs.flatten

/-- One response of a walk: the versioned entries by ordinal, then, for L2, the learned ones by place. -/
def State.walkAnswer (s : State) (k kind t cursor n : Nat) (i : Inst) (parity : Option Nat) (moved : Nat) : List Byte :=
  let learned (from_ want : Nat) : List (Nat × List Byte) := if kind = 1 then (s.walkLearned k t i from_).take want else []
  let nextLearned (from_ want : Nat) : Nat :=
    match (if kind = 1 then (s.walkLearned k t i from_).drop want else []) with | x :: _ => 0x80000000 + x.1 | [] => 0xFFFFFFFF
  if cursor < 0x80000000 then
    let vs := (s.walkVersioned k kind t i parity).drop cursor
    let got := vs.take n
    if n < vs.length then readAnswer (cursor + n) moved got
    else readAnswer (nextLearned 0 (n - got.length)) moved (got ++ (learned 0 (n - got.length)).map (fun e => e.2))
  else readAnswer (nextLearned (cursor - 0x80000000) n) moved ((learned (cursor - 0x80000000) n).map (fun e => e.2))

/-- The key of a BY_KEY read: for a hashed kind its key, for a prefix the key of its record, otherwise the index. -/
def State.readKey (s : State) (k kind version : Nat) (m : Msg) : Option Nat :=
  let key := m.payload.drop 12
  if kind ≤ 3 then some (beNat (key.drop (28 - keyLen kind)))
  else if kind ≤ 5 then
    let p := pfxRec key
    let c := if version = 0xF then s.nextCfg k else s.cfgOf k (if version = 0xE then (s.ver k).cur else version)
    match p.dom c with
    | none => none
    | some d =>
      if kind = 4 then (if p.len ≤ 16 then none else some (pfx4Key k d (pkeyOf 32 p.len p.addr)))
      else (if p.len = 0 then none else some (pfx6Key k d (pkeyOf 128 p.len p.addr)))
  else some (leNat (key.take 4))

/-- The KEY field of a BY_KEY read is well formed. -/
def readKeyOk (kind : Nat) (m : Msg) : Bool :=
  let key := m.payload.drop 12
  if kind ≤ 3 then zeroAt key 0 (28 - keyLen kind)
  else if kind ≤ 5 then
    let p := pfxRec key
    p.family == (if kind = 4 then 4 else 6) && decide (p.len ≤ (if kind = 4 then 32 else 127)) && zeroAt key 4 8 &&
      (kind == 5 || zeroAt key 16 12) && p.addr % 2 ^ ((if kind = 4 then 32 else 128) - p.len) == 0
  else zeroAt key 4 24

/-- A BY_KEY read. -/
def State.readByKey (s : State) (k kind t version : Nat) (m : Msg) (view : ReadView) : List (List Byte) :=
  match view.inst, s.readKey k kind version m with
  | some i, some key =>
    if kind ≤ 5 then s.readHashed i t key view.parity
    else if kind = 10 ∧ 65536 ≤ key then s.readDirect k i t (memberKey key) key true view.parity
    else s.readDirect k i t (if kind = 11 ∨ kind = 12 then tileKey t key else key) key false view.parity
  | _, _ => []

/-- The moves of an instance since its walk began; a walk begins at cursor 0. -/
def State.walkMoved (s : State) (k kind t cursor : Nat) : Nat × State :=
  let key := (t * 5 + k) * 16 + kind
  let n := SMap.get 0 key s.tab.moves
  if cursor = 0 then (0, s.onTab (fun a => { a with walks := SMap.put 0 key n a.walks }))
  else (n - SMap.get 0 key s.tab.walks, s)

def opTableRead : Op := (Op.plain 0x0708 .read .all).withRS
def bodyTableRead (m : Msg) (s : State) : Answer :=
  let kind := m.u8 0
  let t := m.u8 1
  let walk := m.u8 2 == 1
  let version := m.u8 3
  let cursor := m.u32 4
  let n := m.u16 8
  let k := s.stageOf m
  let view := s.readView k kind version
  orDeny [(m.plen != 40, St.badLength),
          (!(decide (1 ≤ kind) && decide (kind ≤ 12)) || kind == 6 || kind == 7 || kind == 8 || decide (7 < t) || decide (1 < m.u8 2) ||
            decide (15 < version) || !m.zero 10 2 ||
            (if walk then n == 0 || decide (256 < n) || !m.zero 12 28 else cursor != 0 || n != 0 || !readKeyOk kind m), St.badField),
          (!(s.stageTiles k).contains t, St.notPermitted), (!view.live, St.notFound)] s
    (if walk then
      let w := s.walkMoved k kind t cursor
      match view.inst with
      | some i => doneWith (w.2.walkAnswer k kind t cursor n i view.parity w.1) w.2
      | none => doneWith (readAnswer 0xFFFFFFFF 0 []) s
     else
      let rs := s.readByKey k kind t version m view
      if rs.isEmpty then deny St.notFound s else doneWith (readAnswer 0xFFFFFFFF 0 rs) s)
def execTableRead (m : Msg) (s : State) : Out := commandRow opTableRead bodyTableRead m s

/-! ### TABLE.FLUSH_LEARNED (R129) -/

/-- Remove the learned entries of a stage that match, in every tile, and count them. -/
def State.flushLearned (s : State) (k how lport vid : Nat) : Nat × State :=
  let hit (raw : Nat) : Bool := (how == 0 || how == 2 || l2Dest raw == lport) && (how == 0 || how == 1 || bitsOf raw 108 12 == vid)
  let ws := ((s.stageTiles k).map (fun t => (s.learnedWords t k (s.insts k 1).all).filter (fun e => hit e.2))).flatten
  (ws.length, ws.foldl (fun s e => s.putWord e.1 0) s)

def opTableFlushLearned : Op := ((Op.plain 0x0709 .stage .ops).withE).withRS
def bodyTableFlushLearned (m : Msg) (s : State) : Answer :=
  let how := m.u8 0
  let k := s.stageOf m
  let byPort := how == 1 || how == 3
  let r := s.flushLearned k how (m.u16 2) (m.u16 4 % 4096)
  orDeny [(m.plen != 8, St.badLength),
          (decide (3 < how) || !m.zero 1 1 || decide (4095 < m.u16 4) || !m.zero 6 2 || (byPort && decide (383 < m.u16 2)), St.badField),
          (byPort && !s.ownsLport k (m.u16 2), St.notPermitted), (m.async && s.atLimit m, St.busy)] s
    (doneWith (leBytes 8 r.1) r.2)
def execTableFlushLearned (m : Msg) (s : State) : Out := commandRow opTableFlushLearned bodyTableFlushLearned m s

end Sys2Proof.Machine
end

