-- ==== Sys2Proof/Machine/Parse.lean ====
section
/-! DEFINITION. The PARSE group (R97–R99), GRAPH_STAGED and GRAPH_NODE_REPAIR (R93, R101). -/
namespace Sys2Proof.Machine
open Sys2Proof

/-- Both slots of a binding serve live versions: no slot is free to stage into (R98, R204). -/
def Bind.full {α : Type} (b : Bind α) : Bool := b.split && b.old.isSome && b.cur.isSome

/-- The conditions a load of a graph meets (R98, R438). -/
def parseLoadConds (s : State) (k : Nat) : List (Bool × Nat) :=
  [((s.stage k).state == 3, St.busy), (s.committing k, St.versionConflict), ((s.graphs k).full, St.busy)]

def opParseLoad : Op := (Op.plain 0x0601 .stage .cfg).withA
def bodyParseLoad (m : Msg) (s : State) : Answer := loadChunk 1 parseLoadConds m s
def execParseLoad (m : Msg) (s : State) : Out := commandRow opParseLoad bodyParseLoad m s

/-- The load fails: GRAPH_REJECTED with the status and the first failing node. -/
def State.rejectGraph (s : State) (k st node : Nat) : State :=
  s.finish k 0x0601 Ev.graphRejected Lv.device k st (leBytes 2 st ++ leBytes 2 node)

/-- A valid graph is written to every tile end, is bound as the staged one, and its load completes. -/
def State.stageGraph (s : State) (k : Nat) (img : List Byte) : State :=
  ((((s.onGraphs k (fun b => { b with next := some (s.placeGraph k (graphOf img)) })).writeNodes
    (s.placeGraph k (graphOf img)).words).setBatch k)).finish k 0x0601 Ev.graphStaged Lv.device k St.done (imageLabel img ++ leBytes 4 (imageCrc img))

/-- GRAPH_STAGED (R96, R97, R101): validation of a complete image and writing to every tile end; `written` is false where a write fails. -/
def execGraphStaged (k : Nat) (written : Bool) (s : State) : Out :=
  onUnit (decide (k ≤ 4))
    (match s.firstChecking k 1 with
     | none => s
     | some img =>
       let s1 := s.popChecking k 1
       match graphBad img with
       | some b => s1.rejectGraph k b.1 b.2
       | none =>
         let s2 := s1.onGraphs k (fun b => { b with next := none })
         if !s2.graphFits k (graphOf img).nodes.length then s1.rejectGraph k St.noSpace 0xFFFF
         else if !written then s1.rejectGraph k St.hwFault 0xFFFF
         else s2.stageGraph k img)

def opParseDiscard : Op := Op.plain 0x0602 .stage .cfg
/-- Withdraws the staged graph (R98); with none staged nothing changes (log entry 49). -/
def bodyParseDiscard (m : Msg) (s : State) : Answer :=
  let k := s.stageOf m
  orDeny ([(m.plen != 0, St.badLength)] ++ stagingChecks s k) s (done (s.onGraphs k (fun b => { b with next := none })))
def execParseDiscard (m : Msg) (s : State) : Out := commandRow opParseDiscard bodyParseDiscard m s

def opParseRead : Op := (Op.plain 0x0603 .read .all).withRS
def bodyParseRead (m : Msg) (s : State) : Answer :=
  let k := s.stageOf m
  match firstRefusal (imageReadChecks m) with
  | some st => deny st s
  | none =>
    match bindOf s k (m.u8 0) (s.graphs k) with
    | none => deny St.notFound s
    | some g => orDeny [(decide (g.image.length ≤ m.u32 4), St.badField)] s (doneWith (imageChunk g.image (m.u32 4)) s)
def execParseRead (m : Msg) (s : State) : Out := commandRow opParseRead bodyParseRead m s

/-- The record of one graph (R99; log entry for its layout). -/
def graphRecord (v : Nat) (g : Graph) : List Byte :=
  leBytes 1 v ++ leBytes 1 g.maxNodes ++ leBytes 2 g.nodes.length ++ leBytes 4 (imageCrc g.image) ++ leBytes 8 (imageBuild g.image) ++
    imageLabel g.image

def opParseStatus : Op := (Op.plain 0x0604 .read .all).withRS
def bodyParseStatus (m : Msg) (s : State) : Answer :=
  let k := s.stageOf m
  let l := servings s k (s.graphs k)
  let free := ((s.stageTiles k).map s.nodesFree).foldl min 1024
  orDeny [(m.plen != 0, St.badLength)] s
    (doneWith (leBytes 1 l.length ++ zeros 1 ++ leBytes 2 free ++ (l.map (fun e => graphRecord e.1 e.2)).flatten) s)
def execParseStatus (m : Msg) (s : State) : Out := commandRow opParseStatus bodyParseStatus m s

/-- The stage and node that a word of a tile's node store holds. -/
def State.nodeOwner (s : State) (t w : Nat) : Option (Nat × Nat) :=
  (s.tab.graphs.map (fun e => (e.2.all.filterMap (fun g => (findIdxVal (fun x => x == w) (SMap.get [] t g.words) 0).map (fun x => (e.1, x.1)))))).flatten.head?

/-- GRAPH_NODE_REPAIR (R93): a damaged node word is rewritten from the backing store, and its stage is told. -/
def execGraphNodeRepair (t w : Nat) (s : State) : Out :=
  onUnit (decide (t < 8) && decide (w < 1024))
    (s.when (s.tab.nodeBad.contains (t * 1024 + w)) (fun s =>
      let s1 := s.onTab (fun a => { a with
        nodeBad := a.nodeBad.filter (fun x => x != t * 1024 + w), nodeTile := SMap.erase (t * 1024 + w) a.nodeTile })
      match s1.nodeOwner t w with
      | some o => s1.post o.1 Ev.graphNodeRepair Lv.tile t (leBytes 1 t ++ zeros 1 ++ leBytes 2 o.2)
      | none => s1))

end Sys2Proof.Machine
end

