-- ==== Sys2Proof/Machine/RuleOps.lean ====
section
/-! DEFINITION. The ordered match array (R156–R168): blocks, insertion with holes, and the configuration a search uses. -/
namespace Sys2Proof.Machine
open Sys2Proof

def State.block (s : State) (b : Nat) : Block := SMap.get Block.reset b s.tab.blocks
def State.onBlock (s : State) (b : Nat) (f : Block → Block) : State :=
  s.onTab (fun t => { t with blocks := SMap.upd Block.reset b f t.blocks })

/-! ### Holes (R167) -/

def Block.interval (b : Block) : Nat := 2 ^ b.holeLog
/-- Is a position kept free? -/
def Block.isHole (b : Block) (h : Nat) : Bool := h % b.interval == b.interval - 1
/-- Rules a block holds with every hole intact. -/
def Block.capacity (b : Block) : Nat := 1024 - 1024 / b.interval
/-- A rule stands in a hole. -/
def Block.holeUsed (b : Block) : Bool := b.rules.any (fun e => b.isHole e.1)

/-- The position a new rule belongs at: that of the first rule of a later priority, or the next place that is no hole after the last rule. -/
def Block.target (b : Block) (prio : Nat) : Nat :=
  match b.rules.find? (fun e => decide (prio < e.2.prio)) with
  | some e => e.1
  | none => match b.rules.getLast? with
    | some e => if b.isHole (e.1 + 1) then e.1 + 2 else e.1 + 1
    | none => 0

def Block.freeAt (b : Block) (p : Nat) : Bool := !SMap.has p b.rules
/-- The nearest free positions at or above, and below, a position. -/
def Block.freeAbove (b : Block) (q : Nat) : Option Nat := (range q (1024 - q)).find? b.freeAt
def Block.freeBelow (b : Block) (q : Nat) : Option Nat := (range 0 (min q 1024)).reverse.find? b.freeAt

/-- Shift the entries from q up to a free position f by one toward it, and put the rule at q. -/
def Block.shiftUp (b : Block) (q f : Nat) (r : Rule) : Block :=
  { b with rules := SMap.insert q r (b.rules.map (fun e => if q ≤ e.1 ∧ e.1 < f then (e.1 + 1, e.2) else e)) }
/-- Shift the entries below q down to a free position f by one toward it, and put the rule at q − 1. -/
def Block.shiftDown (b : Block) (q f : Nat) (r : Rule) : Block :=
  { b with rules := SMap.insert (q - 1) r (b.rules.map (fun e => if f < e.1 ∧ e.1 < q then (e.1 - 1, e.2) else e)) }

/-- Insert a rule with the fewer moves, upward on a tie; none where no position is free. -/
def Block.insertRule (b : Block) (r : Rule) : Option Block :=
  let q := b.target r.prio
  match b.freeAbove q, b.freeBelow q with
  | some u, some d => some (if u - q ≤ q - 1 - d then b.shiftUp q u r else b.shiftDown q d r)
  | some u, none => some (b.shiftUp q u r)
  | none, some d => some (b.shiftDown q d r)
  | none, none => none

/-- Spacing restored: the rules in order at the lowest positions that are no holes (log entry 48). -/
def Block.respaced (b : Block) : Block :=
  { b with rules := ((range 0 b.rules.length).zip b.rules).map (fun x => (x.1 + x.1 / (b.interval - 1), x.2.2)), exhausted := false }

/-- A block holds more rules than its holes allow: HOLES_EXHAUSTED is raised once (R167, R173). -/
def State.checkHoles (s : State) (b : Nat) : State :=
  let x := s.block b
  if decide (x.capacity < x.rules.length) && !x.exhausted then
    (s.onBlock b (fun x => { x with exhausted := true })).post x.stage Ev.holesExhausted Lv.device x.stage
      (leBytes 1 b ++ zeros 1 ++ leBytes 2 (1024 - x.rules.length))
  else s

/-- Writes and moves leave good entries in a block in every tile. -/
def State.cleanBlock (s : State) (b : Nat) : State :=
  s.onTab (fun t => { t with
    omaTile := t.omaTile.filter (fun e => e.1 % 32768 / 1024 != b), omaBad := t.omaBad.filter (fun x => x % 32768 / 1024 != b) })

/-! ### Banks -/

/-- The banks of a stage that a live or a staged version uses (R165). -/
def State.banksInUse (s : State) (k : Nat) : List LookCfg :=
  if s.tab.cfgStarted.contains k || s.hasRetiring k then [s.cfgBank k 0, s.cfgBank k 1] else [s.cfgOf k (s.ver k).cur]

/-- Another stage has written a comparator or pre-selector entry in a bank in use (log entry 40: whose it is). -/
def State.othersHold (s : State) (k : Nat) (f : LookCfg → Bool) : Bool :=
  s.liveStages.any (fun j => j != k && (s.banksInUse j).any f)

/-- The rule of a stage with an identifier, valid under a mask: block, position, rule. -/
def State.findRule (s : State) (k id mask : Nat) : Option (Nat × Nat × Rule) :=
  (s.tab.blocks.filterMap (fun e => (e.2.rules.find? (fun r =>
    r.2.stage == k && r.2.ruleId == id && r.2.vmask &&& mask != 0)).map (fun r => (e.1, r.1, r.2)))).head?

/-- The policers of a stage (R295): base and count. -/
def State.policersOf (s : State) (k : Nat) : Nat × Nat := SMap.get (0, 0) k s.sw.polRange
def State.ownsPolicer (s : State) (k p : Nat) : Bool := decide ((s.policersOf k).1 ≤ p) && decide (p < (s.policersOf k).1 + (s.policersOf k).2)

/-! ### Action words (R162) -/

def actFwd (a : Nat) : Nat := bitsOf a 125 3
def actTarget (a : Nat) : Nat := bitsOf a 107 18
def actPolEn (a : Nat) : Bool := bitOf a 102
def actPolicer (a : Nat) : Nat := bitsOf a 89 13

/-- FWD, TARGET and the reserved bits hold what R162 allows. -/
def actionOk (a : Nat) : Bool :=
  bitsOf a 0 40 == 0 && decide (actFwd a ≤ 6) && (actFwd a != 5 || decide (actTarget a < 16384)) &&
    (actFwd a != 6 || decide (actTarget a % 512 ≤ 399))

end Sys2Proof.Machine
end

