-- ==== Sys2Proof/Machine/PipeOps.lean ====
section
/-! DEFINITION. What a pipe does to a packet (chapters 4, 5 and 7): the profile, the routed decision, prefix rounds, next hops, counters, the
scan decision, search keys and the ordered match. -/
namespace Sys2Proof.Machine
open Sys2Proof

/-! ### The lookup profile (R137, R138, R153) -/

def slotAt (slots : SMap Nat) (i : Nat) : Nat := SMap.get 0 i slots
/-- A MAC address held in two slots. -/
def macAt (slots : SMap Nat) (i : Nat) : Nat := (slotAt slots i * 2 ^ 32 + slotAt slots (i + 1)) % 2 ^ 48
def prU8 (pf : List Byte) (i : Nat) : Nat := fieldLE pf i 1
def vidOf (pf : List Byte) (slots : SMap Nat) : Nat := slotAt slots (prU8 pf 7) % 4096
def dmacOf (pf : List Byte) (slots : SMap Nat) : Nat := macAt slots (prU8 pf 6)
def smacOf (pf : List Byte) (slots : SMap Nat) : Nat := macAt slots (prU8 pf 12)

/-- Do a destination and VID match an RMAC entry? -/
def rmacHit (pf : List Byte) (dmac vid : Nat) : Bool :=
  (range 0 (prU8 pf 13)).any (fun i =>
    let w := fieldLE pf (24 + 8 * i + 6) 2
    fieldLE pf (24 + 8 * i) 6 == dmac && (bitOf w 15 || w % 4096 == vid))

/-- The routed decision: 0 bridged, 4 or 6. -/
def routedOf (pf : List Byte) (slots : SMap Nat) (flags : Nat) : Nat :=
  let r4 := prU8 pf 10
  let r6 := prU8 pf 11
  if !rmacHit pf (dmacOf pf slots) (vidOf pf slots) then 0
  else if r4 != 0 && flags &&& r4 == r4 then 4
  else if r6 != 0 && flags &&& r6 == r6 then 6 else 0

/-- The routing domain of a packet (R137). -/
def rdOf (pf : List Byte) (p : Pkt) : Nat :=
  (if prU8 pf 0 = 0 then
    (if p.ctx.inLport < 384 then fieldLE pf (152 + 2 * p.ctx.inLport) 2 else match p.inj with | some j => j.rd | none => p.lk.rd)
   else slotAt p.pr.slots (prU8 pf 1) / 2 ^ prU8 pf 2 &&& fieldLE pf 4 2) % 4096

/-! ### Counters of entries (R122) -/

/-- Count a packet in a counter of its tile, once; a poisoned counter is skipped (R133). -/
def State.countIn (s : State) (t k v idx len : Nat) : State :=
  match s.instOf k 13 v with
  | none => s
  | some i =>
    let l := directLoc 13 idx
    if i.capacity ≤ idx || s.locPoison i t l then s
    else
      let w := s.readLoc i t l
      s.writeLoc i t l ((bitsOf w 64 64 + len) % 2 ^ 64 * 2 ^ 64 + (bitsOf w 0 64 + 1) % 2 ^ 64)

/-- Count for a packet the counter of an entry it hit, never twice. -/
def State.countEntry (s : State) (p : Pkt) (lk : LookRes) (en : Bool) (idx : Nat) : State × LookRes :=
  if en && !lk.ctrs.contains idx then
    (s.countIn p.tile p.ctx.stage p.ctx.ver idx p.ctx.len, { lk with ctrs := lk.ctrs ++ [idx] })
  else (s, lk)

/-! ### Where a result leads (R119, R120, R146) -/

/-- What a lookup found on the way to the destination: the state, twin reads that followed one another, and the result. -/
structure Hop where
  state : State
  twins : Nat
  exit : Nat
  nhop : Nat
  edit : Nat
  dmac : Nat
  smac : Nat
  trap : Bool
  dropped : Bool

/-- A result that leads nowhere: the packet is dropped (log entry 77). -/
def Hop.none (s : State) (twins : Nat) : Hop :=
  { state := s, twins := twins, exit := 0, nhop := 0, edit := 0, dmac := 0, smac := 0, trap := false, dropped := true }

/-- A next hop is read; next hop 0, the bridging next hop, serves no routed packet (log entry 77). -/
def State.nextHop (s : State) (t k v n tc : Nat) : Hop :=
  if n = 0 then Hop.none s 0
  else
    let r := s.lookDirect t k v 9 n
    match r.1 with
    | none => Hop.none r.2.2 r.2.1
    | some w =>
      let h : Hop := { state := r.2.2, twins := r.2.1, exit := bitsOf w 114 9, nhop := n, edit := bitsOf w 101 13, dmac := bitsOf w 53 48,
                       smac := bitsOf w 5 48, trap := false, dropped := false }
      if bitOf w 3 then { h with state := h.state.bump t k 0x3C, dropped := true }
      else if bitOf w 4 then { h with exit := 384 + tc, trap := true } else h

/-- A result: a next hop, or a group resolved to a member. -/
def State.resolve (s : State) (t k v rkind idx tc : Nat) (slots : SMap Nat) : Hop :=
  if rkind = 0 then s.nextHop t k v idx tc
  else
    let g := s.resolveGroup t k v idx slots
    match g.1 with
    | none => Hop.none g.2.2 g.2.1
    | some n =>
      let h := g.2.2.nextHop t k v n tc
      { h with twins := h.twins + g.2.1 }

/-! ### Prefix rounds (R146, R150) -/

/-- Probe the lengths of one round, longest first: the first that hits, whether a twin was read, the state. -/
def State.probeRound (s : State) (t k v kind : Nat) (key : Nat → Nat) : List Nat → Bool → Option (Nat × Nat) × Bool × State
  | [], tw => (none, tw, s)
  | len :: ls, tw =>
    let r := s.lookHash t k v kind (key len)
    let tw1 := tw || r.2.1 != 0
    match r.1 with
    | some raw => (some (len, raw), tw1, (ls.foldl (fun s l => (s.lookHash t k v kind (key l)).2.2) r.2.2))
    | none => r.2.2.probeRound t k v kind key ls tw1

/-- What the rounds found: the length and entry, rounds made, rounds with a twin read. -/
structure Rounds where
  state : State
  hit : Option (Nat × Nat)
  rounds : Nat
  twins : Nat

/-- Rounds of four lengths until one hits; a round that hits nothing is counted FILTER_EMPTY_ROUND. -/
def State.probe (s : State) (t k v kind : Nat) (key : Nat → Nat) : Nat → List Nat → Nat → Nat → Rounds
  | 0, _, n, tw => { state := s, hit := none, rounds := n, twins := tw }
  | fuel + 1, ls, n, tw =>
    if ls.isEmpty then { state := s, hit := none, rounds := n, twins := tw }
    else
      let r := s.probeRound t k v kind key (ls.take 4) false
      let tw1 := tw + (if r.2.1 then 1 else 0)
      match r.1 with
      | some h => { state := r.2.2, hit := some h, rounds := n + 1, twins := tw1 }
      | none => (r.2.2.bump t k 0x46).probe t k v kind key fuel (ls.drop 4) (n + 1) tw1

/-- Rounds are counted by their number (R172). -/
def State.countRounds (s : State) (t k n : Nat) : State := if n = 0 then s else s.bump t k (0x40 + min n 5 - 1)

/-- Lengths a map names, longest first: bit b stands for length b + base. -/
def mapLengths (map base n : Nat) : List Nat := ((range 0 n).filter (fun b => map.testBit b)).reverse.map (fun b => b + base)

/-- What an address lookup found: the state, kind of result, index, HIT_KIND, prefix length, PCLK beyond R147's, and the fields of a host
entry (CTR_EN, CTR, TC_OVR, TC). -/
structure Route where
  state : State
  rkind : Nat
  idx : Nat
  kind : Nat
  plen : Nat
  extra : Nat
  host : Option (Bool × Nat × Bool × Nat)

/-- The IPv4 filter map of a domain at an index (R143, R151). -/
def State.map4 (s : State) (t k v d top : Nat) : Nat × Nat × State :=
  match s.instOf k 7 v with
  | none => (0, 0, s)
  | some i =>
    let l := filter4Loc d top
    if i.p ≤ d / 4 then (0, 0, s)
    else if s.locPoison i t l then (s.fallback4 k d, 0, s.bump t k 0x48)
    else if locTwin i t l then (s.readLoc i t l, 1, s.bump t k 0x3B) else (s.readLoc i t l, 0, s)

/-- The direct half of an IPv4 address valid in a version (R141): length and result content, none for NONE. -/
def State.directHalf (s : State) (t k v d top : Nat) : Option (Nat × Nat) × Nat × State :=
  let r := s.lookLoc t k v 6 (directHalfLoc d top)
  match r.1 with
  | none => (none, r.2.1, r.2.2)
  | some raw =>
    let h := if bitOf (halfOf raw 1).1 (v % 2) then some (halfOf raw 1) else if bitOf (halfOf raw 0).1 (v % 2) then some (halfOf raw 0) else none
    match h with
    | some x => (if bitsOf raw 35 3 = k ∧ x.2 / 2 ^ 19 ≤ 16 then some (x.2 / 2 ^ 19, x.2 % 2 ^ 19) else none, r.2.1, r.2.2)
    | none => (none, r.2.1, r.2.2)

/-- A routed IPv4 packet's lookup (R146). -/
def State.route4 (s : State) (p : Pkt) (pf : List Byte) (rd da : Nat) : Route :=
  let t := p.tile
  let k := p.ctx.stage
  let v := p.ctx.ver
  let h := s.lookHash t k v 2 (k * 2 ^ 61 + rd * 2 ^ 48 + da)
  match h.1 with
  | some w => { state := h.2.2, rkind := bitsOf w 78 1, idx := bitsOf w 60 18, kind := 1, plen := 32, extra := 6 * h.2.1,
                host := some (bitOf w 59, bitsOf w 39 20, bitOf w 38, bitsOf w 35 3) }
  | none =>
    match (s.cfgOf k v).dom4 rd with
    | none => { state := h.2.2.bump t k 0x45, rkind := 0, idx := fieldLE pf 16 4, kind := 0, plen := 0, extra := 6 * h.2.1, host := none }
    | some d =>
      let dir := h.2.2.directHalf t k v d (da / 65536)
      let m := dir.2.2.map4 t k v d (da / 65536)
      let r := m.2.2.probe t k v 4 (fun len => pfx4Key k d (pkeyOf 32 len da)) 4 (mapLengths m.1 17 16) 0 0
      let s1 := r.state.countRounds t k r.rounds
      let extra := 6 * (max h.2.1 (max dir.2.1 m.2.1)) + 6 * r.twins + 2 * (r.rounds - 1)
      match r.hit with
      | some x => { state := s1, rkind := bitsOf x.2 20 1, idx := bitsOf x.2 2 18, kind := 2, plen := x.1, extra := extra, host := none }
      | none =>
        match dir.1 with
        | some x => { state := s1, rkind := x.2 / 2 ^ 18, idx := x.2 % 2 ^ 18, kind := 3, plen := x.1, extra := extra, host := none }
        | none => { state := s1.bump t k 0x45, rkind := 0, idx := fieldLE pf 16 4, kind := 0, plen := 0, extra := extra, host := none }

/-- The IPv6 filter map of a /32 (R148, R151): a /32 without an entry, or a damaged one, takes FALLBACK6. -/
def State.mapOf6 (s : State) (t k v d top : Nat) : Nat × Nat × State :=
  match s.instOf k 8 v with
  | none => (s.fallback6 k d, 0, s)
  | some i =>
    let idx := i.filter6Idx k d top
    let ls := [0, 1, 2].map (fun e => i.filter6Loc idx e)
    let twin := if ls.any (fun l => locTwin i t l) then 1 else 0
    let s1 := if twin = 1 then s.bump t k 0x3B else s
    if ls.any (fun l => s.locPoison i t l) then (s.fallback6 k d, twin, s1.bump t k 0x48)
    else match s.filter6Slot i t k d top with
      | some e => (s.readLoc i t (i.filter6Loc idx e) % 2 ^ 127, twin, s1)
      | none => (s.fallback6 k d, twin, s1)

/-- The result of a PFX6 entry. -/
def pfx6Result (raw : Nat) : Nat × Nat :=
  if entLong 5 raw then (bitsOf raw 186 1, bitsOf raw 168 18) else (bitsOf raw 51 1, bitsOf raw 33 18)

/-- A routed IPv6 packet's lookup (R150). -/
def State.route6 (s : State) (p : Pkt) (pf : List Byte) (rd da : Nat) : Route :=
  let t := p.tile
  let k := p.ctx.stage
  let v := p.ctx.ver
  let h := s.lookHash t k v 3 (k * 2 ^ 141 + rd * 2 ^ 128 + da)
  match h.1 with
  | some w => { state := h.2.2, rkind := bitsOf w 187 1, idx := bitsOf w 169 18, kind := 1, plen := 128 % 128, extra := 6 * h.2.1,
                host := some (bitOf w 168, bitsOf w 148 20, bitOf w 147, bitsOf w 144 3) }
  | none =>
    match (s.cfgOf k v).dom6 rd with
    | none => { state := h.2.2.bump t k 0x45, rkind := 0, idx := fieldLE pf 20 4, kind := 0, plen := 0, extra := 6 * h.2.1, host := none }
    | some d =>
      let m := h.2.2.mapOf6 t k v d (da / 2 ^ 96)
      let r := m.2.2.probe t k v 5 (fun len => pfx6Key k d (pkeyOf 128 len da)) 32 (mapLengths m.1 1 127) 0 0
      let s1 := r.state.countRounds t k r.rounds
      let extra := 6 * (max h.2.1 m.2.1) + 6 * r.twins + 2 * (r.rounds - 1)
      match r.hit with
      | some x => { state := s1, rkind := (pfx6Result x.2).1, idx := (pfx6Result x.2).2, kind := 2, plen := x.1, extra := extra, host := none }
      | none =>
        match SMap.find d (s.cfgOf k v).default6 with
        | some x => { state := s1, rkind := x / 2 ^ 18, idx := x % 2 ^ 18, kind := 3, plen := 0, extra := extra, host := none }
        | none => { state := s1.bump t k 0x45, rkind := 0, idx := fieldLE pf 20 4, kind := 0, plen := 0, extra := extra, host := none }

/-! ### Forwarding scans (R206–R213) -/

/-- The window of a scan of a packet: B, E; none where it cannot start. -/
def scanBounds (r : Nat) (p : Pkt) : Option (Nat × Nat) :=
  let b := if srFrom r = 8 then 0 else (p.pr.hdrOff[srFrom r]?).getD 0
  let e := min (b + 32 * (srWin r + 1)) (min 256 (p.ctx.len - 4))
  if srFrom r != 8 && !p.pr.marked.testBit (srFrom r) then none else if e ≤ b then none else some (b, e)

/-- PATTERN_W of a packet that was not scanned. -/
def unscannedW (cause : Nat) (mark : Bool) : Nat := cause * 2 ^ 26 + flagNat mark * 2 ^ 29

/-- A scan does not run, with a cause 1–5 (R212, R213): REQUIRED takes its fallback, OPTIONAL is skipped. -/
def State.scanMissed (s : State) (id cause : Nat) (p : Pkt) : State :=
  let t := p.tile
  let k := p.ctx.stage
  if p.scan.mode != 2 then
    (s.bump t k (0x93 + (cause - 1))).onPkt id (fun q => { q with scan := { q.scan with st := 2 }, lk := { q.lk with patternW := unscannedW cause false } })
  else
    let act := p.scan.fallback
    let o := (s.bump t k (0x98 + 3 * (cause - 1) + act)).onset 3 t
    let s1 := if o.1 then o.2.post k Ev.scanFallbackOnset Lv.tile t (leBytes 1 t ++ leBytes 1 p.lk.tc0 ++ leBytes 1 cause ++ zeros 1) else o.2
    s1.onPkt id (fun q => { q with
      scan := { q.scan with st := 2 },
      lk := { q.lk with
        patternW := unscannedW cause (act == 0),
        reason := if act = 1 then 3 else q.lk.reason,
        drop := if act = 2 then 3 else q.lk.drop },
      ctx := { q.ctx with
        unscanned := q.ctx.unscanned || act == 0, exit := (if act = 1 then 384 + q.scan.hostq else q.ctx.exit),
        mc := if act = 1 then false else q.ctx.mc } })

/-- The scan decision at PCLK 16 (R206–R208): NO_START, a decided cause OFF or NO_SET, or a queued scan. -/
def State.scanDecide (s : State) (id : Nat) (p : Pkt) : State :=
  let t := p.tile
  let k := p.ctx.stage
  let r := s.scanRecord k p.ctx.ver p.lk.tc0
  if srMode r = 0 then s
  else
    let a := srWin r - 3
    match scanBounds r p with
    | none => ((s.bump t k 0xA7).delayPkt id a).onPkt id (fun q => { q with
        scan := { Scan.none with st := 2, mode := srMode r }, lk := { q.lk with patternW := unscannedW 6 false } })
    | some w =>
      let n := (w.2 - w.1 + 31) / 32
      let arr := s.reachAt p w.2 + 1 - p.adder
      let late := decide (32 + a - n < arr)
      let wait := if late then arr + n + 3 - (35 + a) else 0
      let sc : Scan := { st := 1, mode := srMode r, fallback := srFallback r, hostq := srHostq r, b := w.1, e := w.2, n := n,
                         latest := (if late then arr else 32 + a - n), add := a }
      let s1 := ((s.bumpN t k 0xA8 wait).delayPkt id (a + wait)).onPkt id (fun q => { q with scan := sc })
      let q := { p with scan := sc }
      if s.stepOf (dieOfTile t) = 3 then s1.scanMissed id 3 q
      else if (match s.setOf k p.ctx.ver with | some x => x.forward.isNone | none => true) then s1.scanMissed id 4 q
      else s1

/-! ### Search keys (R157–R159) -/

/-- SRC_KIND of a packet. -/
def Pkt.srcKind (p : Pkt) : Nat := if p.src = 48 then 1 else if p.src = 49 then 2 else 0
/-- PORT_PROFILE of a packet under its graph. -/
def State.profileOf (s : State) (p : Pkt) : Nat :=
  match s.graphFor p with
  | some g => if p.ctx.inLport < 384 then ((g.profiles[p.ctx.inLport]?).map (fun b => b.toNat)).getD 0 else 0
  | none => 0
/-- PEER_META, zero where no peer tag was removed. -/
def Pkt.peerMeta (p : Pkt) : Nat := if p.passes = 0 then p.peer.getD 0 % 2 ^ 48 else 0

/-- A lane source's 32 bits; `rng` are the range bits. -/
def State.lane32 (s : State) (p : Pkt) (rng src : Nat) : Nat :=
  if src < 64 then slotAt p.pr.slots src
  else if src = 0x40 then rng % 2 ^ 32
  else if src = 0x41 then rng / 2 ^ 32 % 2 ^ 32
  else if src = 0x42 then p.pr.flags % 256 * 2 ^ 24 + flagNat p.pr.px * 2 ^ 23 + p.pr.pxCode % 256 * 2 ^ 15 + p.pr.nodes % 64 * 2 ^ 9 + p.pr.lastNode % 512
  else if src = 0x43 then
    p.ctx.stage % 8 * 2 ^ 29 + p.srcKind * 2 ^ 27 + p.passes % 4 * 2 ^ 25 + p.ctx.inLport % 512 * 2 ^ 16 + s.profileOf p % 256 * 2 ^ 8 +
      flagNat (p.passes == 0 && p.peer.isSome) * 2 ^ 7 + flagNat (p.passes == 0 && p.tagIns) * 2 ^ 6
  else if src = 0x44 then p.lk.rd % 4096 * 2 ^ 20 + flagNat (p.lk.routed != 0) * 2 ^ 19 + p.lk.hitKind % 4 * 2 ^ 17 + p.lk.plen % 128 * 2 ^ 10
  else if src = 0x45 then (if p.ctx.mc then 0 else p.ctx.exit % 512) * 2 ^ 23 + p.ctx.nhop % 2 ^ 18 * 2 ^ 5 + p.ctx.tc % 8 * 4
  else if src = 0x46 then p.lk.patternW % 2 ^ 32
  else if src = 0x47 then p.peerMeta / 65536
  else if src = 0x48 then p.peerMeta % 65536 * 65536
  else 0

/-- The range bits of a packet's stage (R158). -/
def State.rangeBits (s : State) (p : Pkt) : Nat :=
  (s.cfgOf p.ctx.stage p.ctx.ver).ranges.foldl (fun r e =>
    match e.2 with
    | [src, boff, low, high, inv] =>
      let f := s.lane32 p 0 src / 2 ^ boff % 65536
      if (decide (low ≤ f ∧ f ≤ high)) != (inv == 1) then r + 2 ^ e.1 else r
    | _ => r) 0

/-- The blocks the pre-selector names for a packet (R159). -/
def State.preselected (s : State) (p : Pkt) (rng : Nat) : List Nat :=
  let key := rng * 2 ^ 32 + p.pr.flags % 256 * 2 ^ 24 + s.profileOf p % 256 * 2 ^ 16 + p.pipe % 16 * 2 ^ 12 + p.lk.tc0 % 8 * 2 ^ 9 + p.srcKind * 2 ^ 7 +
    flagNat (p.lk.routed != 0) * 2 ^ 6 + flagNat p.pr.px * 2 ^ 5
  match (s.cfgOf p.ctx.stage p.ctx.ver).presel.find? (fun e =>
    match e.2 with | value :: mask :: _ => (key ^^^ value) &&& mask == 0 | _ => false) with
  | some (_, [_, _, a, b]) => [a, b].filter (fun x => x != 0x3F)
  | _ => []

/-- The 480-bit key of a block. -/
def State.searchKey (s : State) (p : Pkt) (rng b : Nat) : Nat :=
  let lanes := SMap.get [] (s.block b).layout (s.cfgOf p.ctx.stage p.ctx.ver).layouts
  (range 0 15).foldl (fun a i => a + s.lane32 p rng ((lanes[i]?).getD 0xFF) * 2 ^ (32 * i)) 0

/-- The entries of a block by position, as a tile holds them: the rules, and words that differ in the tile. -/
def State.rulesIn (s : State) (t b : Nat) : SMap Rule :=
  (s.tab.omaTile.filter (fun e => e.1 / 1024 == t * 32 + b)).foldl (fun m e => SMap.insert (e.1 % 1024) e.2 m) (s.block b).rules
/-- The first entry of a block that a key matches in a version, as a tile holds it (R161). -/
def State.firstMatch (s : State) (t v b key : Nat) : Option Rule :=
  ((s.rulesIn t b).map (fun e => e.2)).find? (fun r => bitOf r.vmask (v % 2) && (key ^^^ r.value) &&& r.mask == 0)
/-- A block of a tile with a damaged entry (R171). -/
def State.blockBad (s : State) (t b : Nat) : Bool := s.tab.omaBad.any (fun x => x / 32768 == t && x % 32768 / 1024 == b)

/-- The outcome of a search of one block: the winning action, whether the stage's default is taken instead (R171), extra PCLK. -/
structure Search where
  state : State
  action : Option Nat
  dflt : Bool
  extra : Nat

/-- Search one block for a packet: a damaged block in the twin where the stage owns both tiles. -/
def State.searchBlock (s : State) (p : Pkt) (rng b : Nat) : Search :=
  let t := p.tile
  let k := p.ctx.stage
  let bad := s.blockBad t b
  if bad && !(s.stageTiles k).contains (twinOf t) then { state := s.bump t k 0x4E, action := none, dflt := true, extra := 0 }
  else
    let tt := if bad then twinOf t else t
    let s1 := if bad then s.bump t k 0x3B else s
    let extra := if bad then 6 else 0
    match s.firstMatch tt p.ctx.ver b (s.searchKey p rng b) with
    | none => { state := s1, action := none, dflt := false, extra := extra }
    | some r =>
      if r.chk != bitsOf r.action 40 4 then { state := s1.bump t k 0x4C, action := none, dflt := false, extra := extra }
      else { state := s1, action := some r.action, dflt := false, extra := extra }

/-- The action word of a packet (R161, R163): BLK_A's match wins over BLK_B's; without a match the stage's default. -/
def State.matchPkt (s : State) (p : Pkt) : Nat × Nat × State :=
  let t := p.tile
  let k := p.ctx.stage
  let c := s.cfgOf k p.ctx.ver
  let dflt := if p.pr.px then c.dfltPx else c.dflt
  let rng := s.rangeBits p
  match s.preselected p rng with
  | [] => (dflt, 0, s.bump t k 0x4D)
  | [a] =>
    let r := s.searchBlock p rng a
    match r.action with
    | some x => (x, r.extra, r.state.bump t k (0x4F + a))
    | none => (dflt, r.extra, r.state)
  | a :: b :: _ =>
    let ra := s.searchBlock p rng a
    let rb := ra.state.searchBlock p rng b
    let extra := max ra.extra rb.extra
    match ra.action, rb.action with
    | some x, some _ => (x, extra, (rb.state.bump t k (0x4F + a)).bump t k 0x4B)
    | some x, none => (x, extra, rb.state.bump t k (0x4F + a))
    | none, some y => (y, extra, rb.state.bump t k (0x4F + b))
    | none, none => (dflt, extra, rb.state)

/-! ### Action words (R162) -/

def actTcSet (a : Nat) : Bool := bitOf a 106
def actTc (a : Nat) : Nat := bitsOf a 103 3
def actMirrorEn (a : Nat) : Bool := bitOf a 88
def actMirror (a : Nat) : Nat := bitsOf a 84 4
def actSampleEn (a : Nat) : Bool := bitOf a 83
def actSample (a : Nat) : Nat := bitsOf a 79 4
def actCtrEn (a : Nat) : Bool := bitOf a 78
def actCtr (a : Nat) : Nat := bitsOf a 58 20
def actEditSet (a : Nat) : Bool := bitOf a 57
def actEdit (a : Nat) : Nat := bitsOf a 44 13

end Sys2Proof.Machine
end

