-- ==== Sys2Proof/Machine/SweepOps.lean ====
section
/-! DEFINITION. The consistency sweep (R195): what a tile's words are compared with, kind by kind, and how they are corrected. -/
namespace Sys2Proof.Machine
open Sys2Proof

/-- A correction: counted in its tile and kind; the first of a pass posts SWEEP_MISMATCH (R195, R201). -/
def State.sweepFix (s : State) (t k kind key : Nat) : State :=
  let s1 := s.bump t k (0x79 + kind)
  if s1.tab.sweepPosted.contains k then s1
  else (s1.post k Ev.sweepMismatch Lv.tile t (leBytes 1 t ++ leBytes 1 kind ++ zeros 2 ++ leBytes 24 key)).onTab
    (fun a => { a with sweepPosted := k :: a.sweepPosted })

/-- The words of an instance that hold something in a tile: number of the paddock in the instance, line and word. -/
def State.usedWords (s : State) (i : Inst) (t : Nat) : List (Nat × Nat × Nat) :=
  let pads := SMap.get [] t i.pads
  let base := if i.split && t % 2 == 1 then i.p / 2 else 0
  (s.tab.sram.filter (fun e => inPads t pads e.1)).map (fun e =>
    (base + ((findIdxVal (fun p => p == e.1 / 4 / 8192 % 96) pads 0).map (fun x => x.1)).getD 0, e.1 / 4 % 8192, e.1 % 4))

/-- The words of an instance a tile of the stage writes: its own, and those of the twin for a SPLIT instance. -/
def State.usedAll (s : State) (i : Inst) (t : Nat) : List (Nat × Nat × Nat) :=
  if i.split then s.usedWords i t ++ s.usedWords i (twinOf t) else s.usedWords i t

/-- The bucket a word belongs to. -/
def Inst.bucketOf (i : Inst) (w : Nat × Nat × Nat) : Nat :=
  if i.kind = 3 then w.2.1 / 2 * i.p + w.1
  else if i.kind = 4 then (2 * w.2.1 + (if 2 ≤ w.2.2 then 0 else 1)) * i.p + w.1
  else w.2.1 * i.p + w.1

/-- Does the backing store hold an entry as a slot has it? -/
def State.backed (s : State) (k kind raw : Nat) : Bool :=
  (s.backs k kind (entKey kind raw)).any (fun x => x.content == entContent kind raw && x.vmask == entVmask kind raw)

/-- Entries of a tile that the backing store does not hold are cleared; poisoned slots wait for their repair. -/
def State.sweepStrays (s : State) (k : Nat) (i : Inst) (t : Nat) : State :=
  forEach ((s.usedAll i t).map i.bucketOf).eraseDups (fun b s =>
    forEach (range 0 4) (fun j s =>
      let raw := s.slotRaw i t b j
      let st := s.slotState i t b j
      if (st == 1 || st == 2) && !entLearned i.kind raw && !s.backed k i.kind raw && !s.locPoison i t (i.slot b j (st == 2)) then
        (s.clearEnt i t b j).sweepFix t k i.kind (entKey i.kind raw)
      else s) s) s

/-- Entries of the backing store that a tile lacks are inserted. -/
def State.sweepMissing (s : State) (k : Nat) (i : Inst) (t : Nat) : State :=
  (s.backsOf k i.kind).foldl (fun s e => e.2.foldl (fun s x =>
    if (s.slotsOfKey i t e.1).any (fun y => entContent i.kind y.2.2 == x.content && entVmask i.kind y.2.2 == x.vmask) then s
    else match s.insertEnt i t 8 (entSetVmask i.kind x.content x.vmask) with
      | some y => y.sweepFix t k i.kind e.1
      | none => s) s) s

/-- The direct entries that a word may hold: backing key and place. -/
def Inst.directsIn (i : Inst) (t : Nat) (w : Nat × Nat × Nat) : List (Nat × Loc) :=
  let idx := w.1 * 32768 + w.2.1 * 4 + w.2.2
  if i.kind = 12 then (range (2 * idx) 2).map (fun x => (tileKey t x, directLoc 12 x))
  else if i.kind = 11 then [(tileKey t idx, directLoc 11 idx)]
  else if i.kind = 10 ∧ 16384 ≤ idx then (range (4 * idx) 4).map (fun x => (memberKey x, memberLoc x))
  else [(idx, directLoc i.kind idx)]

/-- Direct entries: what the backing store lacks is cleared, what differs is rewritten. -/
def State.sweepDirect (s : State) (k : Nat) (i : Inst) (t : Nat) : State :=
  let s1 := ((s.usedAll i t).map (i.directsIn t)).flatten.foldl (fun s d =>
    if s.readLoc i t d.2 != 0 && (s.backs k i.kind d.1).isEmpty && !s.locPoison i t d.2 then (s.writeLoc i t d.2 0).sweepFix t k i.kind d.1 else s) s
  ((s1.backsOf k i.kind).filter (fun e => match (directPlace i.kind e.1).1 with | some u => u == t | none => true)).foldl (fun s e =>
    match e.2.head? with
    | some x =>
      let raw := if i.kind = 12 ∨ (i.kind = 10 ∧ 2 ^ 30 ≤ e.1) then x.content else x.content + x.vmask * 2 ^ 126
      let l := (directPlace i.kind e.1).2
      if s.readLoc i t l == raw || s.locPoison i t l then s else (s.writeLoc i t l raw).sweepFix t k i.kind e.1
    | none => s) s1

/-- The result a direct word gives under a VMASK bit: NONE where no half is valid. -/
def directUnder (raw bit : Nat) : Nat :=
  if (halfOf raw 1).1 &&& bit != 0 then (halfOf raw 1).2 else if (halfOf raw 0).1 &&& bit != 0 then (halfOf raw 0).2 else 31 * 2 ^ 19

/-- Direct prefix halves: each index gives, in each version, the longest short prefix that covers it. -/
def State.sweepHalves (s : State) (k : Nat) (i : Inst) (t : Nat) : State :=
  let cb := s.curMask k
  let nb := s.nextMask k
  forEach (range 0 i.p) (fun d s =>
    let cs := s.shortPrefixes k d cb
    let ns := s.shortPrefixes k d nb
    let covered := ((cs ++ ns).map (fun p => range (p.2.1 / 65536) (2 ^ (16 - p.1)))).flatten
    let held := ((s.usedAll i t).filter (fun w => w.1 == d)).map (fun w => range (w.2.1 * 8 + (if w.2.2 = 3 then 0 else if w.2.2 = 2 then 2
      else if w.2.2 = 1 then 4 else 6)) 2)
    forEach (covered ++ held.flatten).eraseDups (fun x s =>
      let raw := s.readLoc i t (directHalfLoc d x)
      let c := coverOf cs x
      let n := coverOf ns x
      if (directUnder raw cb == c && directUnder raw nb == n) || s.locPoison i t (directHalfLoc d x) then s
      else (s.writeLoc i t (directHalfLoc d x) (if c = n then directWord k (3, c) (0, 0) else directWord k (cb, c) (nb, n))).sweepFix t k 6
        (d * 65536 + x)) s) s

/-- IPv4 filter maps: the lengths of the backing store's prefixes. -/
def State.sweepFilter4 (s : State) (k : Nat) (i : Inst) (t : Nat) : State :=
  let ps := (s.backsOf k 4).map (fun e => (e.1 / 2 ^ 56 % 32, e.1 % 2 ^ 33 / 2 ^ 17, pkeyLen 32 (e.1 % 2 ^ 33)))
  let held := ((s.usedAll i t).map (fun w => (range (w.2.1 * 32 + 8 * (3 - w.2.2)) 8).map (fun x => (4 * w.1 + x / 65536, x % 65536)))).flatten
  ((ps.map (fun p => (p.1, p.2.1))) ++ held).eraseDups.foldl (fun s x =>
    let want := ps.foldl (fun m p => if p.1 = x.1 ∧ p.2.1 = x.2 then m ||| 2 ^ (p.2.2 - 17) else m) 0
    let l := filter4Loc x.1 x.2
    if s.readLoc i t l == want || s.locPoison i t l then s else (s.writeLoc i t l want).sweepFix t k 7 (x.1 * 65536 + x.2)) s

/-- IPv6 filter entries: those of blocks no prefix wants are cleared, wrong maps are rewritten, missing ones are added where there is room. -/
def State.sweepFilter6 (s : State) (k : Nat) (i : Inst) (t : Nat) : State :=
  let places := ((s.usedAll i t).map (fun w => (range 0 3).map (fun e => (w.2.1 * i.p + w.1, e)))).flatten.eraseDups
  let s1 := places.foldl (fun s x =>
    let l := i.filter6Loc x.1 x.2
    let raw := s.readLoc i t l
    let d := bitsOf raw 161 5
    let top := bitsOf raw 129 32
    if raw == 0 || s.locPoison i t l then s
    else
      let want := if bitOf raw 169 && bitsOf raw 166 3 == k && (s.tops6 k d).contains top && i.filter6Idx k d top == x.1 then
          2 ^ 169 + k * 2 ^ 166 + d * 2 ^ 161 + top * 2 ^ 129 + s.map6 k d top else 0
      if raw == want then s else (s.writeLoc i t l want).sweepFix t k 8 (d * 2 ^ 32 + top)) s
  forEach (range 0 32) (fun d s =>
    forEach (s.tops6 k d) (fun top s =>
      if (s.filter6Slot i t k d top).isSome then s
      else match [0, 1, 2].find? (fun e => !bitOf (s.readLoc i t (i.filter6Loc (i.filter6Idx k d top) e)) 169) with
        | some e => (s.writeLoc i t (i.filter6Loc (i.filter6Idx k d top) e)
            (2 ^ 169 + k * 2 ^ 166 + d * 2 ^ 161 + top * 2 ^ 129 + s.map6 k d top)).sweepFix t k 8 (d * 2 ^ 32 + top)
        | none => s) s) s1

/-- One instance of a stage in one tile. -/
def State.sweepInst (s : State) (k : Nat) (i : Inst) (t : Nat) : State :=
  if !(s.instTiles k i).contains t || i.kind == 13 then s
  else if i.kind = 6 then s.sweepHalves k i t
  else if i.kind = 7 then s.sweepFilter4 k i t
  else if i.kind = 8 then s.sweepFilter6 k i t
  else if 9 ≤ i.kind then s.sweepDirect k i t
  else (s.sweepStrays k i t).sweepMissing k i t

/-- Rules and node words that differ in one tile take the backing store's content again (kinds 13 and 15). -/
def State.sweepArrays (s : State) (k t : Nat) : State :=
  let mineR (key : Nat) : Bool := key / 32768 == t && (SMap.get Block.reset (key % 32768 / 1024) s.tab.blocks).stage == k
  let nodes := ((SMap.get Bind.empty k s.tab.graphs).all.map (fun g => SMap.get [] t g.words)).flatten
  let mineN (key : Nat) : Bool := key / 1024 == t && nodes.contains (key % 1024)
  let s1 := (s.tab.omaTile.filter (fun e => mineR e.1)).foldl (fun s e => s.sweepFix t k 13 (e.1 % 32768)) s
  let s2 := (s.tab.nodeTile.filter (fun e => mineN e.1)).foldl (fun s e => s.sweepFix t k 15 (e.1 % 1024)) s1
  s2.onTab (fun a => { a with omaTile := a.omaTile.filter (fun e => !mineR e.1), nodeTile := a.nodeTile.filter (fun e => !mineN e.1) })

/-- A pass over every tile of a stage. -/
def State.sweepStage (s : State) (k : Nat) : State :=
  let s0 := s.onTab (fun a => { a with sweepPosted := a.sweepPosted.filter (fun x => x != k) })
  forEach (s.stageTiles k) (fun t s =>
    ((range 1 13).foldl (fun s kind => (s.writeInsts k kind).foldl (fun s i => s.sweepInst k i t) s) s).sweepArrays k t) s0

end Sys2Proof.Machine
end

