-- ==== Sys2Proof/Machine/Diag.lean ====
section
/-! DEFINITION. The DIAG window (R198, R199, R562–R564): table words of one tile, read and written directly. -/
namespace Sys2Proof.Machine
open Sys2Proof

/-- DIAG_TARGET's fields (R563). -/
structure DiagTarget where
  tile : Nat
  kind : Nat
  unit : Nat
  index : Nat
  word : Nat
  deriving DecidableEq, Repr

def diagTargetOf (v : Nat) : DiagTarget :=
  { tile := bitsOf v 29 3, kind := bitsOf v 27 2, unit := bitsOf v 20 7, index := bitsOf v 4 16, word := bitsOf v 0 4 }

/-- A refused KIND, or an index out of range (R564). -/
def DiagTarget.bad (d : DiagTarget) : Bool :=
  if d.kind = 0 then decide (95 < d.unit) || decide (8191 < d.index) || decide (3 < d.word)
  else if d.kind = 1 then decide (31 < d.unit) || decide (1023 < d.index) || decide (9 < d.word)
  else if d.kind = 2 then decide (1023 < d.index) || decide (4 < d.word) else true

/-- The stage that a target belongs to; what no stage uses is S0's. -/
def State.diagStage (s : State) (d : DiagTarget) : Nat :=
  if d.kind = 0 then
    ((s.tab.insts.find? (fun e => e.2.all.any (fun i => (SMap.get [] d.tile i.pads).contains d.unit))).map (fun e => e.1 / 16)).getD 0
  else if d.kind = 1 then (s.block d.unit).stage
  else ((s.nodeOwner d.tile d.index).map (fun o => o.1)).getD 0

/-- The status of an operation, in the order of R564; BUSY while the stage's sequencer owns its words (R199). -/
def State.diagStatusOf (s : State) (d : DiagTarget) : Nat :=
  if !s.count.diagPermit then St.wrongMode
  else if d.bad then St.badField
  else if s.diagStage d != 0 then St.notPermitted
  else if (s.ver 0).state == 1 || (s.ver 0).state == 2 || (s.ver 0).state == 4 then St.busy
  else St.done

/-! ### The words -/

/-- A position of a block that holds nothing. -/
def Rule.empty : Rule := { vmask := 0, stage := 0, chk := 0, value := 0, mask := 0, action := 0, prio := 0, ruleId := 0, arrival := 0 }

/-- An entry of the ordered match array as a tile holds it. -/
def State.omaEntry (s : State) (t b pos : Nat) : Rule := SMap.get Rule.empty pos (s.rulesIn t b)

/-- A word of an entry (R563): value, mask, action word, control field. -/
def Rule.word (r : Rule) (w : Nat) : Nat :=
  if w < 4 then bitsOf r.value (128 * w) 128 else if w < 8 then bitsOf r.mask (128 * (w - 4)) 128
  else if w = 8 then r.action else r.vmask * 128 + r.stage * 16 + r.chk

/-- Put a field of n bits at bit lo. -/
def putField (old lo n v : Nat) : Nat := old - bitsOf old lo n * 2 ^ lo + v % 2 ^ n * 2 ^ lo

/-- An entry with one word replaced; the top 32 bits of word 3 do not exist. -/
def Rule.putWord (r : Rule) (w v : Nat) : Rule :=
  let n := if w % 4 = 3 then 96 else 128
  if w < 4 then { r with value := putField r.value (128 * w) n v } else if w < 8 then { r with mask := putField r.mask (128 * (w - 4)) n v }
  else if w = 8 then { r with action := v % 2 ^ 128 }
  else { r with vmask := bitsOf v 7 2, stage := bitsOf v 4 3, chk := bitsOf v 0 4 }

/-- A node-store word of a tile as 640 bits: what a DIAG write left there, else the node of the graph that uses it. -/
def State.nodeRaw (s : State) (t w : Nat) : Nat :=
  match SMap.find (t * 1024 + w) s.tab.nodeTile with
  | some x => x
  | none =>
    ((s.tab.graphs.map (fun e => (e.2.all.filterMap (fun g =>
      (findIdxVal (fun x => x == w) (SMap.get [] t g.words) 0).map (fun x => (g.nodes[x.1]?).getD 0))))).flatten.head?).getD 0

/-- The raw 128-bit word a target names. -/
def State.diagRead (s : State) (d : DiagTarget) : Nat :=
  if d.kind = 0 then s.word (wordKey d.tile d.unit d.index d.word)
  else if d.kind = 1 then (s.omaEntry d.tile d.unit d.index).word d.word
  else bitsOf (s.nodeRaw d.tile d.index) (128 * d.word) 128

/-- Write it in its tile. -/
def State.diagPut (s : State) (d : DiagTarget) (v : Nat) : State :=
  if d.kind = 0 then s.putWord (wordKey d.tile d.unit d.index d.word) v
  else if d.kind = 1 then
    let key := d.tile * 32768 + d.unit * 1024 + d.index
    let r := (s.omaEntry d.tile d.unit d.index).putWord d.word v
    s.onTab (fun a => { a with
      omaTile := (if SMap.find d.index (s.block d.unit).rules = some r then SMap.erase key a.omaTile else SMap.insert key r a.omaTile),
      omaBad := a.omaBad.filter (fun x => x != key) })
  else
    let key := d.tile * 1024 + d.index
    let n := putField (s.nodeRaw d.tile d.index) (128 * d.word) 128 v
    s.onTab (fun a => { a with nodeTile := SMap.insert key n a.nodeTile, nodeBad := a.nodeBad.filter (fun x => x != key) })

/-! ### The backing copy (BACKING_TOO, R198) -/

/-- The instances of S0 that use a paddock of a tile, and the paddock's number in each. -/
def State.instsAt (s : State) (t pad : Nat) : List (Inst × Nat) :=
  ((instKinds.map (fun kind => (s.insts 0 kind).all)).flatten).filterMap (fun i =>
    let base := if i.split && t % 2 == 1 then i.p / 2 else 0
    (findIdxVal (fun p => p == pad) (SMap.get [] t i.pads) 0).map (fun x => (i, base + x.1)))

/-- Entries of a bucket of a hashed instance that a word is part of. -/
def State.entriesWith (s : State) (i : Inst) (t b key : Nat) : List Nat :=
  ((range 0 4).filter (fun j => (s.slotState i t b j == 1 || s.slotState i t b j == 2) &&
    (locWords i t (i.slot b j (s.slotState i t b j == 2))).contains key)).map (fun j => s.slotRaw i t b j)

/-- The backing entries of a hashed kind that a word's entries were are replaced by what they become. -/
def State.backHashed (s new : State) (i : Inst) (t b key : Nat) : State :=
  let gone := (s.entriesWith i t b key).filter (fun r => !entLearned i.kind r)
  let come := (new.entriesWith i t b key).filter (fun r => !entLearned i.kind r)
  let s1 := gone.foldl (fun s r => s.putBacks 0 i.kind (entKey i.kind r) ((s.backs 0 i.kind (entKey i.kind r)).filter (fun x =>
    !(x.content == entContent i.kind r && x.vmask == entVmask i.kind r)))) s
  come.foldl (fun s r => s.putBacks 0 i.kind (entKey i.kind r) (s.backs 0 i.kind (entKey i.kind r) ++
    [{ vmask := entVmask i.kind r, content := entContent i.kind r }])) s1

/-- The backing entries of a direct kind that lie in a word become as the word has them. -/
def State.backDirects (s new : State) (i : Inst) (t : Nat) (w : Nat × Nat × Nat) : State :=
  (i.directsIn t w).foldl (fun s d =>
    let raw := new.readLoc i t d.2
    s.putBacks 0 i.kind d.1 (if raw = 0 then []
      else if i.kind = 12 ∨ (i.kind = 10 ∧ 2 ^ 30 ≤ d.1) then [{ vmask := 3, content := raw }]
      else [{ vmask := raw / 2 ^ 126 % 4, content := raw % 2 ^ 126 }])) s

/-- A paddock word's backing copy. Filter maps and direct halves follow from the prefixes and have no copy of their own (log entry 113). -/
def State.backPaddock (s : State) (d : DiagTarget) (v : Nat) : State :=
  let key := wordKey d.tile d.unit d.index d.word
  let new := s.putWord key v
  (s.instsAt d.tile d.unit).foldl (fun s x =>
    let w := (x.2, d.index, d.word)
    if x.1.kind ≤ 5 then s.backHashed new x.1 d.tile (x.1.bucketOf w) key
    else if 9 ≤ x.1.kind ∧ x.1.kind ≤ 12 then s.backDirects new x.1 d.tile w else s) s

/-- A rule's backing copy; the other tiles of the stage keep the old entry until the sweep. -/
def State.backRule (s : State) (d : DiagTarget) (v : Nat) : State :=
  let old := s.block d.unit
  let r := (SMap.get Rule.empty d.index old.rules).putWord d.word v
  let s1 := s.onTab (fun a => { a with
    omaTile := (s.stageTiles 0).foldl (fun m t =>
      let key := t * 32768 + d.unit * 1024 + d.index
      if SMap.has key m then m else SMap.insert key (SMap.get Rule.empty d.index old.rules) m) a.omaTile })
  s1.onBlock d.unit (fun b => { b with rules := if r.vmask = 0 then SMap.erase d.index b.rules else SMap.insert d.index r b.rules })

/-- A node word's backing copy: the node of every graph of S0 that the word holds. -/
def State.backNode (s : State) (d : DiagTarget) (v : Nat) : State :=
  match (s.graphs 0).all.find? (fun g => (SMap.get [] d.tile g.words).contains d.index) with
  | none => s
  | some g =>
    let n := ((findIdxVal (fun x => x == d.index) (SMap.get [] d.tile g.words) 0).map (fun x => x.1)).getD 0
    let old := (g.nodes[n]?).getD 0
    let new : Graph := { g with nodes := setAt g.nodes n (putField old (128 * d.word) 128 v) }
    let swap (x : Graph) : Graph := if x = g then new else x
    (s.onTab (fun a => { a with
      nodeTile := (s.stageTiles 0).foldl (fun m t =>
        let key := t * 1024 + g.wordOf t n
        if SMap.has key m then m else SMap.insert key old m) a.nodeTile })).onGraphs 0 (fun b => { b with
          cur := b.cur.map swap, next := b.next.map swap, old := b.old.map swap })

def State.diagBack (s : State) (d : DiagTarget) (v : Nat) : State :=
  if d.kind = 0 then s.backPaddock d v else if d.kind = 1 then s.backRule d v else s.backNode d v

/-! ### The operations (R564) -/

/-- The word in DATA. -/
def CountSt.diagWord (c : CountSt) : Nat := (range 0 4).foldl (fun a k => a + (c.diagData.getD k 0) % 2 ^ 32 * 2 ^ (32 * k)) 0

/-- May an operation start: the block answers and BUSY is clear? -/
def State.diagFree (s : State) : Bool := decide (1 ≤ s.cmd.mode) && s.count.diagBusy.isNone

/-- DIAG_READ: DIAG_CTRL with OP READ. The word is taken as it stands and reaches DATA at completion. -/
def execDiagRead (s : State) : Out :=
  .next (s.when s.diagFree (fun s =>
    let d := diagTargetOf s.count.diagTarget
    let st := s.diagStatusOf d
    s.onCount (fun c => { c with diagBusy := some st, diagRead := if st = St.done then some (s.diagRead d) else none })))

/-- DIAG_WRITE: DIAG_CTRL with OP WRITE, BACKING_TOO first the backing copy, then the word; counted and told to the stage (R198). -/
def execDiagWrite (backingToo : Bool) (s : State) : Out :=
  .next (s.when s.diagFree (fun s =>
    let d := diagTargetOf s.count.diagTarget
    let st := s.diagStatusOf d
    let s1 := s.onCount (fun c => { c with diagBusy := some st, diagRead := none })
    if st != St.done then s1
    else
      let v := s.count.diagWord
      let s2 := if backingToo then s1.diagBack d v else s1
      ((s2.diagPut d v).bump d.tile 0 0x8C).post 0 Ev.diagWritten Lv.tile d.tile (leBytes 1 d.tile ++ zeros 3 ++ leBytes 4 s.count.diagTarget)))

/-- DIAG_COMPLETE: a READ's word overwrites DATA, BUSY clears and source 93 is raised. -/
def execDiagComplete (s : State) : Out :=
  .next (match s.count.diagBusy with
    | none => s
    | some st =>
      (s.onCount (fun c => { c with
        diagBusy := none, diagStatus := st, diagRead := none,
        diagData := (match c.diagRead with | some w => (range 0 4).map (fun k => bitsOf w (32 * k) 32) | none => c.diagData) })).raiseIrq 93)

end Sys2Proof.Machine
end

