-- ==== Sys2Proof/Machine/EditOps.lean ====
section
/-! DEFINITION. Microwords and what a dresser does with them (R233–R245): fields, the vendor programs, the header window and its marks,
checksums, and one program run. -/
namespace Sys2Proof.Machine
open Sys2Proof

/-! ### The microword (R236) -/

def uwOp (w : Nat) : Nat := bitsOf w 122 6
def uwCy (w : Nat) : Nat := bitsOf w 120 2
def uwNac (w : Nat) : Nat := bitsOf w 117 3
def uwCond (w : Nat) : Nat := bitsOf w 112 5
def uwTarget (w : Nat) : Nat := bitsOf w 99 13
def uwBase (w : Nat) : Nat := bitsOf w 95 4
def uwOff (w : Nat) : Nat := bitsOf w 87 8
def uwBitOff (w : Nat) : Nat := bitsOf w 84 3
/-- The field's width in bits: WIDTH + 1. -/
def uwBits (w : Nat) : Nat := bitsOf w 77 7 + 1
def uwSrc (w : Nat) : Nat := bitsOf w 74 3
def uwAcc (w : Nat) : Bool := bitOf w 73
def uwSrcOff (w : Nat) : Nat := bitsOf w 64 8
def uwImm (w : Nat) : Nat := bitsOf w 0 64

/-- A microword from its fields. -/
def uword (op cy nac cond target base off width src acc : Nat) (imm : Nat) : Nat :=
  op * 2 ^ 122 + cy * 2 ^ 120 + nac * 2 ^ 117 + cond * 2 ^ 112 + target * 2 ^ 99 + base * 2 ^ 95 + off * 2 ^ 87 + width * 2 ^ 77 +
    src * 2 ^ 74 + acc * 2 ^ 73 + imm

/-- A word of the vendor region: BRIDGE, ROUTE and ROUTE_POP (R253, and the listing of the chapter's example); every other word is zero
(log entry 41). -/
def vendorWord (a : Nat) : Nat :=
  if a = 0x0000 then uword 0x00 0 6 0 0 0 0 0 0 0 0
  else if a = 0x0010 then uword 0x02 0 0 0 0 0 0 47 1 0 0
  else if a = 0x0011 then uword 0x02 0 5 0x13 0x0014 0 6 47 2 0 0
  else if a = 0x0012 then uword 0x05 1 0 0 0 1 8 7 0 1 0
  else if a = 0x0013 then uword 0x06 0 6 0 0 1 10 15 0 0 0
  else if a = 0x0014 then uword 0x05 1 6 0 0 1 7 7 0 0 0
  else if a = 0x0020 then uword 0x0C 1 1 0 0x0010 0 12 0 0 0 0x81000000
  else 0

/-- The least cycle length of an operation, less 1 (R237). -/
def uwMinCy (w : Nat) : Nat :=
  let op := uwOp w
  let n := uwSrcOff w
  if op = 0x02 then (if uwSrc w = 5 then 1 else 0)
  else if op = 0x05 ∨ op = 0x0B ∨ op = 0x0C ∨ op = 0x0D then 1
  else if op = 0x08 then (if n ≤ 32 then 1 else 2)
  else if op = 0x09 then (if n ≤ 32 then 1 else if n ≤ 64 then 2 else 3)
  else 0

/-- An operation that addresses no bit field: BITOFF and WIDTH are zero. -/
def uwByteOp (op : Nat) : Bool := op == 0x08 || op == 0x09 || op == 0x0A || op == 0x0B || op == 0x0C || op == 0x0D

/-- Does a word use TARGET as a word address (R240)? -/
def uwJumps (w : Nat) : Bool := uwNac w == 1 || uwNac w == 2 || uwNac w == 4 || uwNac w == 5
/-- Does a word take its source from an operand word (R238)? A PUSH may, too. -/
def uwOpw (w : Nat) : Bool := (uwOp w == 0x02 || uwOp w == 0x0B) && uwSrc w == 5

/-- The refused encodings of R236 to R240 and the word checks of R252 that do not depend on the stage. A PUSH from a source carries
WIDTH 15. -/
def uwRefused (w : Nat) : Bool :=
  let op := uwOp w
  let bits := uwBits w
  op == 0x07 || decide (0x0E < op) || decide (uwCy w < uwMinCy w) || uwNac w == 7 || decide (0x13 < uwCond w) ||
    (uwNac w != 4 && uwNac w != 5 && uwCond w != 0) || decide (9 < uwBase w) || bitOf w 72 ||
    decide (5 < uwSrc w) ||
    ((op == 0x01 || op == 0x03 || op == 0x04) && decide (64 < bits)) ||
    (op == 0x02 && uwSrc w == 4 && decide (127 < uwSrcOff w)) ||
    (uwOpw w && (uwJumps w || decide (11 < bitsOf (uwImm w) 0 4))) ||
    (op == 0x05 && bits != 8) || (op == 0x06 && bits != 16) ||
    (op == 0x08 && (uwSrcOff w == 0 || decide (64 < uwSrcOff w))) ||
    (op == 0x09 && (uwSrcOff w == 0 || decide (128 < uwSrcOff w))) ||
    (uwByteOp op && (uwBitOff w != 0 || (bits != 1 && !(op == 0x0B && uwSrc w != 0 && bits == 16))))

/-! ### Ranges (R245) -/

/-- Is an address in the vendor region or the stage's range? -/
def EditSt.mayRun (e : EditSt) (a : Nat) : Bool := decide (a < 6144) || (decide (e.base ≤ a) && decide (a < e.base + e.count))
/-- Is an address in the stage's own range? -/
def EditSt.owns (e : EditSt) (a : Nat) : Bool := decide (e.base ≤ a) && decide (a < e.base + e.count)

/-- The word at an address of a bank: vendor words are alike in both. -/
def State.uwordAt (s : State) (bank a : Nat) : Nat :=
  if a < 6144 then vendorWord a else SMap.get 0 (bank * 8192 + a) s.tab.ucode

/-- Write a customer word of a bank in every tile. -/
def State.putUword (s : State) (bank a v : Nat) : State :=
  s.onTab (fun t => { t with
    ucode := SMap.put 0 (bank * 8192 + a) (v % 2 ^ 128) t.ucode,
    ucodeBad := t.ucodeBad.filter (fun k => k % 16384 != bank * 8192 + a) })

/-- The stage whose range holds a word, if one does. -/
def State.uwordStage (s : State) (a : Nat) : Option Nat := s.liveStages.find? (fun k => (s.edit k).owns a)

/-! ### The run of a program -/

/-- What a program reads beside its window: the stage's words, bank and MAX_CYCLES, the context as 128 bits, NHOP, the next hop's MACs,
whether peer mode is up, the peer tag's 48 bits as this device would send them, and the words that cannot be
read. -/
structure DrIn where
  ctx : Nat
  nhop : Nat
  dmac : Nat
  smac : Nat
  peerUp : Bool
  tag : Nat
  bank : Nat
  limit : Nat
  bad : List Nat
  deriving DecidableEq, Repr

/-- A dresser at work (R233–R241): window, marks, MARKED, WB, DELTA, the condition flags, the micro-stack, the next word's address, cycles run. -/
structure Dr where
  win : List Byte
  marks : List Nat
  marked : Nat
  wb : Nat
  delta : Nat
  z : Bool
  c : Bool
  popped : Bool
  stack : List Nat
  pc : Nat
  cycles : Nat
  deriving DecidableEq, Repr

/-- How a word or program ends: the dresser goes on, the program ends, or an exception with its sub-code. -/
inductive DrEnd where
  | go
  | fin
  | exc (code sub : Nat)
  deriving DecidableEq, Repr

def Dr.mark (d : Dr) (m : Nat) : Nat := (d.marks[m]?).getD 0

/-- The byte a word addresses: none where its BASE is an unset mark (R236). -/
def Dr.byteAt (d : Dr) (w : Nat) : Option Nat :=
  let b := uwBase w
  if b < 8 then (if d.marked.testBit b then some (d.mark b + uwOff w) else none)
  else if b = 8 then some (uwOff w) else some (d.wb + uwOff w)

/-- The bits from bit `lo` (counted from the window's first, most significant, bit), `n` of them. -/
def winBits (win : List Byte) (lo n : Nat) : Nat :=
  let first := lo / 8
  let last := (lo + n + 7) / 8
  beNat (sliceB win first (last - first)) / 2 ^ (last * 8 - (lo + n)) % 2 ^ n

/-- Write such a field. -/
def putWinBits (win : List Byte) (lo n v : Nat) : List Byte :=
  let first := lo / 8
  let last := (lo + n + 7) / 8
  let sh := 2 ^ (last * 8 - (lo + n))
  let old := beNat (sliceB win first (last - first))
  overwrite win first (beBytes (last - first) (old - old / sh % 2 ^ n * sh + v % 2 ^ n * sh))

/-- One's-complement addition of 16-bit numbers, with end-around carry. -/
def onesAdd (a b : Nat) : Nat := let v := a + b; if v < 65536 then v else v - 65535

/-- The 16-bit word of a window at an even offset; bytes past its end read zero. -/
def winWord (win : List Byte) (i : Nat) : Nat := beNat (sliceB (win ++ [0]) i 2)

/-- DELTA after the words from `i`, `n` of them, went from one window to another (R241). -/
def deltaOver (old new : List Byte) (delta i : Nat) : Nat → Nat
  | 0 => delta
  | n + 1 =>
    let m := winWord old i
    let m' := winWord new i
    deltaOver old new (if m = m' then delta else onesAdd delta (onesAdd (65535 - m) m')) (i + 2) n

/-- Write the field a word addresses, accumulating DELTA where ACC is set. -/
def Dr.write (d : Dr) (w lo n v : Nat) : Dr :=
  let new := putWinBits d.win lo n v
  let from_ := lo / 16 * 2
  { d with
    win := new,
    delta := if uwAcc w then deltaOver d.win new d.delta from_ ((lo + n + 15) / 16 - lo / 16) else d.delta }

/-- Insert bytes at an offset, moving marks (R235); WINDOW past the content or past 320 bytes. -/
def Dr.insertAt (d : Dr) (p : Nat) (bs : List Byte) : Option Dr :=
  if d.win.length < p ∨ 320 < d.win.length + bs.length then none
  else some { d with
    win := d.win.take p ++ bs ++ d.win.drop p,
    marks := d.marks.map (fun m => if p ≤ m then m + bs.length else m) }

/-- Delete bytes at an offset, clearing and moving marks (R235). -/
def Dr.deleteAt (d : Dr) (p n : Nat) : Option Dr :=
  if d.win.length < p + n then none
  else some { d with
    win := d.win.take p ++ d.win.drop (p + n),
    marks := d.marks.map (fun m => if p + n ≤ m then m - n else m),
    marked := (range 0 8).foldl (fun a j => if p ≤ d.mark j && decide (d.mark j < p + n) then setBit a j false else a) d.marked }

/-- The value of a COPY's source (R238): none for an access outside the window, BAD_ADDRESS for an operand word outside the range. -/
def Dr.source (d : Dr) (s : State) (e : EditSt) (i : DrIn) (w n : Nat) : Nat ⊕ Nat :=
  let src := uwSrc w
  if src = 0 then .inl (uwImm w)
  else if src = 1 then .inl i.dmac
  else if src = 2 then .inl i.smac
  else if src = 3 then
    let lo := (d.wb + uwSrcOff w) * 8
    if d.win.length * 8 < lo + n then .inr 2 else .inl (winBits d.win lo n)
  else if src = 4 then .inl (bitsOf i.ctx (uwSrcOff w) n)
  else
    let a := uwTarget w + i.nhop % 2 ^ bitsOf (uwImm w) 0 4
    if !e.owns a then .inr 5
    else if i.bad.contains a then .inr 6
    else .inl (bitsOf (s.uwordAt i.bank a) (uwSrcOff w % 128) n)

/-- A condition (R240). -/
def Dr.cond (d : Dr) (i : DrIn) (c : Nat) : Bool :=
  if c = 0x00 then true
  else if c = 0x01 then d.z
  else if c = 0x02 then d.c
  else if c = 0x03 then d.popped
  else if c = 0x04 then bitOf i.ctx 24
  else if c = 0x05 then bitOf i.ctx 30
  else if c = 0x06 then bitOf i.ctx 29
  else if c = 0x07 then bitOf i.ctx 32
  else if c < 0x10 then d.marked.testBit (c - 8)
  else if c = 0x10 then bitOf i.ctx 26
  else if c = 0x11 then i.peerUp
  else if c = 0x12 then i.nhop != 0
  else d.marked.testBit 1 && (match d.win[d.mark 1]? with | some b => b.toNat / 16 == 4 | none => false)

/-- A word's operation on the window: the dresser after it, or the exception it raises (R237–R243). -/
def Dr.operate (d : Dr) (s : State) (e : EditSt) (i : DrIn) (w : Nat) : Dr ⊕ (Nat × Nat) :=
  let op := uwOp w
  let n := uwBits w
  if op = 0x00 then .inl d
  else if op = 0x0E then .inr (7, uwImm w % 256)
  else
    match d.byteAt w with
    | none => .inr (2, 0)
    | some p =>
      let lo := p * 8 + uwBitOff w
      let ofOpt (x : Option Dr) : Dr ⊕ (Nat × Nat) := match x with | some y => .inl y | none => .inr (2, 0)
      if op = 0x0A then
        (if d.win.length < p then .inr (2, 0)
         else
          let m := uwImm w % 8
          .inl (if bitOf (uwImm w) 3 then { d with wb := p, marks := setAt d.marks m p, marked := setBit d.marked m true } else { d with wb := p }))
      else if op = 0x08 then ofOpt (d.insertAt p (zeros (uwSrcOff w)))
      else if op = 0x09 then ofOpt (d.deleteAt p (uwSrcOff w))
      else if op = 0x0B then
        (match (if uwSrc w = 0 then Sum.inl (uwImm w % 65536) else d.source s e i w 16) with
         | .inr x => .inr (x, 0)
         | .inl tci => ofOpt (d.insertAt p (beBytes 2 (bitsOf (uwImm w) 16 16) ++ beBytes 2 (tci % 65536))))
      else if op = 0x0D then ofOpt (d.insertAt p ([0x88, 0xB5] ++ beBytes 6 i.tag))
      else if op = 0x0C then
        (if d.win.length < p + 2 then .inr (2, 0)
         else if winBits d.win (p * 8) 16 = bitsOf (uwImm w) 16 16 then
          ofOpt ((d.deleteAt p 4).map (fun x => { x with popped := true }))
         else .inl { d with popped := false })
      else if d.win.length * 8 < lo + n then .inr (2, 0)
      else if op = 0x05 then
        (let v := winBits d.win lo n
         if v ≤ 1 then (if bitOf (uwImm w) 0 then .inl { d with c := true } else .inr (1, 0))
         else .inl { d.write w lo n (v - 1) with c := false, z := v - 1 == 0 })
      else if op = 0x06 then
        (let hc := winBits d.win lo n
         let dl := if p % 2 = 1 then d.delta % 256 * 256 + d.delta / 256 else d.delta
         let sum := 65535 - onesAdd (65535 - hc) dl
         let udp := bitOf (uwImm w) 1
         let win := if udp && hc == 0 then d.win else putWinBits d.win lo n (if udp && sum == 0 then 65535 else sum)
         .inl { d with win := win, delta := if bitOf (uwImm w) 0 then d.delta else 0 })
      else if op = 0x01 then .inl (d.write w lo n (uwImm w))
      else if op = 0x03 then .inl (d.write w lo n (winBits d.win lo n &&& uwImm w))
      else if op = 0x04 then .inl (d.write w lo n (winBits d.win lo n ||| uwImm w))
      else
        match d.source s e i w n with
        | .inl v => .inl (d.write w lo n v)
        | .inr x => .inr (x, 0)

/-- Where a word goes next (R240). -/
def Dr.advance (d : Dr) (i : DrIn) (w : Nat) : Dr × DrEnd :=
  let nac := uwNac w
  let next := (d.pc + 1) % 8192
  let t := uwTarget w
  if nac = 0 then ({ d with pc := next }, .go)
  else if nac = 1 then ({ d with pc := t }, .go)
  else if nac = 2 then (if 4 ≤ d.stack.length then (d, .exc 3 0) else ({ d with pc := t, stack := next :: d.stack }, .go))
  else if nac = 3 then (match d.stack with | a :: l => ({ d with pc := a, stack := l }, .go) | [] => (d, .exc 3 0))
  else if nac = 4 then ({ d with pc := if d.cond i (uwCond w) then t else next }, .go)
  else if nac = 5 then ({ d with pc := if d.cond i (uwCond w) then next else t }, .go)
  else (d, .fin)

/-- A program runs word by word until it ends, or reaches MAX_CYCLES without ending (R240, R244). -/
def Dr.run (s : State) (e : EditSt) (i : DrIn) : Nat → Dr → Dr × DrEnd
  | 0, d => (d, .exc 4 0)
  | fuel + 1, d =>
    if !e.mayRun d.pc then (d, .exc 5 0)
    else if i.bad.contains d.pc then (d, .exc 6 0)
    else
      let w := s.uwordAt i.bank d.pc
      if uwRefused w then (d, .exc 6 0)
      else
        let used := d.cycles + uwCy w + 1
        if i.limit < used then ({ d with cycles := i.limit }, .exc 4 0)
        else
          match ({ d with cycles := used }).operate s e i w with
          | .inr x => ({ d with cycles := used }, .exc x.1 x.2)
          | .inl d1 =>
            match d1.advance i w with
            | (d2, .go) => if i.limit ≤ d2.cycles then (d2, .exc 4 0) else Dr.run s e i fuel d2
            | (d2, r) => (d2, r)

/-- The context as its 128 bits (R25). -/
def Ctx.bits (c : Ctx) : Nat :=
  c.stage % 8 * 2 ^ 125 + c.ver % 16 * 2 ^ 121 + c.inLport % 512 * 2 ^ 112 + c.exit % 512 * 2 ^ 103 + c.tc % 8 * 2 ^ 100 +
    c.col % 4 * 2 ^ 98 + c.seq % 4096 * 2 ^ 86 + c.len % 16384 * 2 ^ 72 + c.nhop % 262144 * 2 ^ 54 + c.editEntry % 8192 * 2 ^ 41 +
    c.pxCode % 256 * 2 ^ 33 + flagNat c.ct * 2 ^ 32 + flagNat c.spec * 2 ^ 31 + flagNat c.mir * 2 ^ 30 + flagNat c.smp * 2 ^ 29 +
    flagNat c.unscanned * 2 ^ 28 + flagNat c.learnProv * 2 ^ 27 + flagNat c.px * 2 ^ 26 + flagNat c.late * 2 ^ 25 +
    flagNat c.mc * 2 ^ 24 + c.tsIn % 2 ^ 24

/-- Bytes of the window at load: C0 = min(LEN − 4, 256) (R233). -/
def windowLen (len : Nat) : Nat := min (len - 4) 256

/-- A dresser with a packet loaded (R231). -/
def Dr.load (p : Pkt) : Dr :=
  { win := p.frame.take (windowLen p.ctx.len), marks := p.pr.hdrOff, marked := p.pr.marked, wb := 0, delta := 0, z := false, c := false,
    popped := false, stack := [], pc := p.ctx.editEntry, cycles := 0 }

/-! ### Image checks (R251, R252) -/

/-- Is one word of an image wrong for a stage (R252)? -/
def EditSt.wordBad (e : EditSt) (w : Nat) : Bool :=
  uwRefused w || (uwJumps w && !e.mayRun (uwTarget w)) || (uwOpw w && !e.owns (uwTarget w))

/-- BASE, COUNT and the words of CODE. -/
def codeBase (b : List Byte) : Nat := fieldLE b 0 2
def codeCount (b : List Byte) : Nat := fieldLE b 2 2
def codeWords (b : List Byte) : List Nat := (recordsOf b 16 16 ((b.length - 16) / 16)).map leNat

/-- Bytes a word inserts or deletes: the parity rule of R241 looks at odd ones. -/
def uwOdd (w : Nat) : Bool := (uwOp w == 0x08 || uwOp w == 0x09) && uwSrcOff w % 2 == 1
/-- A write with ACC set. -/
def uwAccWrite (w : Nat) : Bool := uwAcc w && (decide (1 ≤ uwOp w) && decide (uwOp w ≤ 5))
/-- A CSUM that clears DELTA. -/
def uwClears (w : Nat) : Bool := uwOp w == 0x06 && !bitOf (uwImm w) 0

/-- The words control may reach after a word (a RET may go on after any CALL of the program). -/
def uwNexts (calls : List Nat) (a w : Nat) : List Nat :=
  let nac := uwNac w
  if nac = 0 then [a + 1]
  else if nac = 1 ∨ nac = 2 then [uwTarget w]
  else if nac = 3 then calls
  else if nac = 4 ∨ nac = 5 then [a + 1, uwTarget w]
  else []

/-- What may hold on a path that reaches a word: (address, state) with 0 no accumulation, 1 accumulated, 2 odd shift after accumulation.
One pass of the closure of those pairs. -/
def parityStep (words : Nat → Nat) (calls : List Nat) (x : Nat × Nat) : List (Nat × Nat) :=
  let w := words x.1
  let st := if uwAccWrite w then max x.2 1 else if uwClears w then 0 else if uwOdd w && x.2 != 0 then 2 else x.2
  (uwNexts calls x.1 w).map (fun a => (a, st))

/-- Everything reachable from a list of pairs. -/
def parityReach (words : Nat → Nat) (calls : List Nat) : Nat → List (Nat × Nat) → List (Nat × Nat) → List (Nat × Nat)
  | 0, _, seen => seen
  | _, [], seen => seen
  | fuel + 1, x :: todo, seen =>
    let new := ((parityStep words calls x).filter (fun y => !seen.contains y && !todo.contains y)).eraseDups
    parityReach words calls fuel (todo ++ new) (seen ++ new)

/-- The first word of a program at which the parity rule of R241 is broken: a CSUM reached with an odd shift after an ACC write. -/
def parityBad (base : Nat) (ws : List Nat) : Option Nat :=
  let words (a : Nat) : Nat := if base ≤ a ∧ a < base + ws.length then (ws[a - base]?).getD 0 else vendorWord a
  let addrs := range base ws.length
  let calls := (addrs.filter (fun a => uwNac (words a) == 2)).map (fun a => a + 1)
  let start := addrs.map (fun a => (a, 0))
  let all := parityReach words calls 24600 start start
  addrs.find? (fun a => uwOp (words a) == 0x06 && all.contains (a, 2))

/-- What is wrong with an edit image for a stage (R251, R252): status and first failing word, 0xFFFF where no word is. -/
def editBad (e : EditSt) (img : List Byte) : Option (Nat × Nat) :=
  if !imageLengthOk img 65536 then some (St.badLength, 0xFFFF)
  else if !imageFieldsOk img 3 [1, 2, 3, 4] 1 then some (St.badField, 0xFFFF)
  else
    let secs := sectionsOf img
    let code := (sectionBody secs 1).getD []
    let exc := (sectionBody secs 2).getD (zeros 8)
    let lim := (sectionBody secs 3).getD [64, 0]
    let base := codeBase code
    let ws := codeWords code
    if code.length != 16 + 16 * codeCount code || !zeroAt code 4 12 || decide (base < e.base) || decide (e.base + e.count < base + ws.length) ||
        exc.length != 8 || !zeroAt exc 0 1 || exc.any (fun b => b.toNat % 128 / 8 != 0) || bitOf (fieldLE exc 5 1) 7 || bitOf (fieldLE exc 6 1) 7 ||
        lim.length != 2 || decide (leNat lim < 16) || decide (1024 < leNat lim) ||
        (match sectionBody secs 4 with | some b => decide (32768 < b.length) | none => false)
    then some (St.badField, 0xFFFF)
    else
      match findIdxVal e.wordBad ws 0 with
      | some x => some (St.badField, base + x.1)
      | none => (parityBad base ws).map (fun a => (St.badField, a))

end Sys2Proof.Machine
end

