-- ==== Sys2Proof/Machine/Edit.lean ====
section
/-! DEFINITION. The EDIT group (R246, R247, R251, R252, R256), EDIT_STAGED and EDIT_REPAIR. -/
namespace Sys2Proof.Machine
open Sys2Proof

/-- The stage has no inactive bank (R247). -/
def State.noInactive (s : State) (k : Nat) : Bool := ((s.edit k).inactive (s.hasRetiring k)).isNone

/-- The conditions of EDIT.LOAD and EDIT.SWAP (R247, R438). -/
def editConds (s : State) (k : Nat) : List (Bool × Nat) :=
  [((s.stage k).state == 3, St.busy), (s.noInactive k, St.busy), (s.committing k, St.versionConflict)]

def opEditLoad : Op := (Op.plain 0x0A01 .stage .cfg).withA
def bodyEditLoad (m : Msg) (s : State) : Answer := loadChunk 3 editConds m s
def execEditLoad (m : Msg) (s : State) : Out := commandRow opEditLoad bodyEditLoad m s

/-- An image's words, EXCEPTIONS, LIMITS, LABEL and CRC are written to a bank. -/
def State.writeImage (s : State) (k bank : Nat) (img : List Byte) : State :=
  let secs := sectionsOf img
  let code := (sectionBody secs 1).getD []
  let ws := codeWords code
  ((range 0 ws.length).foldl (fun s i => s.putUword bank (codeBase code + i) ((ws[i]?).getD 0)) s).onEdit k (fun e => e.putBank bank
    { exceptions := ((sectionBody secs 2).getD (zeros 8)).map (fun b => b.toNat),
      maxCycles := leNat ((sectionBody secs 3).getD [64, 0]), label := imageLabel img, crc := imageCrc img })

/-- EDIT_REJECTED with the status and the first failing word. -/
def State.rejectEdit (s : State) (k st word : Nat) : State :=
  s.finish k 0x0A01 Ev.editRejected Lv.device k st (leBytes 2 st ++ leBytes 2 word)

/-- A valid image is written to the inactive bank, which the first image of a batch first copies from the current one, and its load completes. -/
def State.stageEdit (s : State) (k bank : Nat) (img : List Byte) : State :=
  let e := s.edit k
  let s2 := if e.loaded then s
    else e.window.foldl (fun t w => t.putUword bank w (s.uwordAt bank w)) (s.copyBank k e.curBank bank)
  (((s2.writeImage k bank img).onEdit k (fun e => { e with loaded := true })).setBatch k).finish k 0x0A01 Ev.editStaged Lv.device k
    St.done (imageLabel img ++ leBytes 4 (imageCrc img))

/-- EDIT_STAGED (R252, R258): validation of a complete image and writing to every tile end; the first image of a batch copies the current
bank before it is written; words that the batch wrote through the UCS window stay (R181; log entry 54). -/
def execEditStaged (k : Nat) (written : Bool) (s : State) : Out :=
  onUnit (decide (k ≤ 4))
    (match s.firstChecking k 3 with
     | none => s
     | some img =>
       let s1 := s.popChecking k 3
       let e := s.edit k
       match editBad e img with
       | some b => s1.rejectEdit k b.1 b.2
       | none =>
         match e.inactive (s.hasRetiring k) with
         | none => s1.rejectEdit k St.busy 0xFFFF
         | some bank =>
           if !written then s1.rejectEdit k St.hwFault 0xFFFF
           else s1.stageEdit k bank img)

def opEditSwap : Op := (Op.plain 0x0A02 .stage .cfg).withRS
/-- Binds the inactive bank to the next version; a second one changes nothing (R247). -/
def bodyEditSwap (m : Msg) (s : State) : Answer :=
  let k := s.stageOf m
  orDeny ((m.plen != 0, St.badLength) :: editConds s k) s (done ((s.onEdit k (fun e => { e with swap := true })).setBatch k))
def execEditSwap (m : Msg) (s : State) : Out := commandRow opEditSwap bodyEditSwap m s

def opEditRead : Op := (Op.plain 0x0A03 .read .all).withRS
/-- Words of the stage's range or of the vendor region from a live version's bank (R256; log entry for the payload). -/
def bodyEditRead (m : Msg) (s : State) : Answer :=
  let k := s.stageOf m
  let e := s.edit k
  let first := m.u16 2
  let n := m.u16 4
  let live := (s.ver k).cur == m.u8 0 || (s.ver k).retiring == some (m.u8 0)
  orDeny [(m.plen != 8, St.badLength),
          (!m.zero 1 1 || !m.zero 6 2 || decide (13 < m.u8 0) || n == 0 || decide (1022 < n) ||
            !(decide (first + n ≤ 6144) || (decide (e.base ≤ first) && decide (first + n ≤ e.base + e.count))), St.badField),
          (!live, St.notFound)] s
    (doneWith ((range first n).map (fun a => leBytes 16 (s.uwordAt (e.bankOf (s.isOld k (m.u8 0))) a))).flatten s)
def execEditRead (m : Msg) (s : State) : Out := commandRow opEditRead bodyEditRead m s

def opEditStatus : Op := (Op.plain 0x0A04 .read .all).withRS
/-- R256; log entry for the layout. -/
def bodyEditStatus (m : Msg) (s : State) : Answer :=
  let k := s.stageOf m
  let e := s.edit k
  let v := s.ver k
  let bankBytes (b : EditBank) : List Byte := b.label ++ leBytes 4 b.crc
  orDeny [(m.plen != 0, St.badLength)] s
    (doneWith (leBytes 1 v.cur ++ leBytes 1 e.curBank ++ leBytes 1 (v.retiring.getD 0xE) ++
      leBytes 1 (match v.retiring with | some _ => e.bankOf true | none => 0xFF) ++ leBytes 1 (flagNat e.swap) ++ zeros 1 ++ leBytes 2 e.base ++
      leBytes 2 e.count ++ bankBytes e.bankA ++ bankBytes e.bankB) s)
def execEditStatus (m : Msg) (s : State) : Out := commandRow opEditStatus bodyEditStatus m s

def opEditRegion : Op := Op.plain 0x0A05 .owner .cfg
/-- Gives a stage its range (R246): STAGE, BASE and COUNT (log entry for their places). -/
def bodyEditRegion (m : Msg) (s : State) : Answer :=
  let k := m.u8 0
  let base := m.u16 2
  let n := m.u16 4
  let e := s.edit k
  let overlaps := s.liveStages.any (fun j => j != k && decide (0 < n) && decide (0 < (s.edit j).count) &&
    decide (base < (s.edit j).base + (s.edit j).count) && decide ((s.edit j).base < base + n))
  let taken := (range e.base e.count).filter (fun a => decide (a < base) || decide (base + n ≤ a))
  orDeny [(m.plen != 8, St.badLength),
          (decide (4 < k) || !s.stageLive k || !m.zero 1 1 || !m.zero 6 2 || base % 64 != 0 || n % 64 != 0 || decide (base < 6144) ||
            decide (8192 < base + n) || overlaps, St.badField),
          (taken.any (fun a => s.uwordAt 0 a != 0 || s.uwordAt 1 a != 0), St.busy)] s
    (done (s.onEdit k (fun e => { e with base := base, count := n })))
def execEditRegion (m : Msg) (s : State) : Out := commandRow opEditRegion bodyEditRegion m s

/-- EDIT_REPAIR (R250, R258): a damaged microword of a tile's bank is rewritten from the bank image. -/
def execEditRepair (t bank w : Nat) (s : State) : Out :=
  let key := (t * 2 + bank) * 8192 + w
  onUnit (decide (t < 8) && decide (bank < 2) && decide (w < 8192))
    (s.when (s.tab.ucodeBad.contains key) (fun s =>
      (s.onTab (fun a => { a with ucodeBad := a.ucodeBad.filter (fun x => x != key) })).postAll
        (0 :: (if w < 6144 then [] else ((s.uwordStage w).filter (fun k => k != 0)).toList)) Ev.editRepair Lv.tile t
        (leBytes 1 t ++ leBytes 1 bank ++ leBytes 2 w)))

end Sys2Proof.Machine
end

