-- ==== Sys2Proof/Machine/Pipe.lean ====
section
/-! DEFINITION. The events of a pipe and of the reorder unit: lookups, forwarding scans, the ordered match, requests, confirms and cancels,
copies, releases, tail verdicts (R22–R33, R123–R125, R146, R161, R206–R213, R267, R271, R274, R297–R303). -/
namespace Sys2Proof.Machine
open Sys2Proof

/-! ### Speculative requests (R27) -/

/-- At PCLK 34 the pipe issues a speculative request where every condition of R27 holds. -/
def State.specIssue (s : State) (id : Nat) : State :=
  match s.pkt id with
  | none => s
  | some p =>
    let r := s.scanRecord p.ctx.stage p.ctx.ver p.lk.tc0
    let waits := srMode r == 2 && (decide (3 < srWin r) || p.scan.st == 1)
    if p.phase == .lookedUp && p.spec == 0 && !p.mcast && decide (p.ctx.exit < 384) && p.lk.drop == 0 && !waits &&
        (s.voq p.voq).isEmpty && !s.sw.spilling.contains p.voq then
      (s.bump p.tile p.ctx.stage 0x05).onPkt id (fun q => { q with spec := 1, ctx := { q.ctx with spec := true } })
    else s

/-! ### Lookups -/

/-- The destination a lookup found is written into the context (R25, R119). -/
def Hop.put (h : Hop) (id : Nat) (r : Route) (tc : Nat) : State :=
  (h.state.delayPkt id (r.extra + 6 * h.twins)).onPkt id (fun q => { q with
    ctx := { q.ctx with exit := h.exit, tc := tc, nhop := h.nhop, editEntry := h.edit, mc := false },
    lk := { q.lk with
      hitKind := r.kind, plen := r.plen, dmac := h.dmac, smac := h.smac, origExit := h.exit,
      reason := (if h.trap then 2 else 8), drop := (if h.dropped then 2 else q.lk.drop) } })

/-- A routed packet (R146, R150): the address lookup, then the next hop or group it names. -/
def State.routePkt (s : State) (id : Nat) (p : Pkt) (pf : List Byte) : State :=
  let rd := p.lk.rd
  let r := if p.lk.routed = 4 then s.route4 p pf rd (slotAt p.pr.slots (prU8 pf 8))
    else s.route6 p pf rd ((range 0 4).foldl (fun a j => a * 2 ^ 32 + slotAt p.pr.slots (prU8 pf 9 + j)) 0)
  let tc := match r.host with | some x => if x.2.2.1 then x.2.2.2 else p.ctx.tc | none => p.ctx.tc
  let c := match r.host with | some x => r.state.countEntry p p.lk x.1 x.2.1 | none => (r.state, p.lk)
  let h := c.1.resolve p.tile p.ctx.stage p.ctx.ver r.rkind r.idx tc p.pr.slots
  let h1 := { h with state := h.state.onPkt id (fun q => { q with lk := { q.lk with ctrs := c.2.ctrs } }) }
  -- ORIG_EXIT is the next hop's EXIT, which a TRAP replaces (R399).
  let orig := if h.trap then
      (match (c.1.lookDirect p.tile p.ctx.stage p.ctx.ver 9 h.nhop).1 with | some w => bitsOf w 114 9 | none => h.exit)
    else h.exit
  (h1.put id r tc).onPkt id (fun q => { q with lk := { q.lk with origExit := orig } })

/-- A packet toward a multicast group (R271): its head in its own tile, or MC_MISS. -/
def State.groupPkt (s : State) (id : Nat) (p : Pkt) (g hitKind : Nat) : State :=
  let t := p.tile
  let k := p.ctx.stage
  let r := s.lookDirect t k p.ctx.ver 11 g
  let s1 := (r.2.2.delayPkt id (6 * r.2.1)).onPkt id (fun q => { q with
    ctx := { q.ctx with nhop := g, mc := true, exit := 0, editEntry := 0 },
    lk := { q.lk with hitKind := hitKind, reason := 7 } })
  match r.1 with
  | some w =>
    if s.ownsHead k g then s1.onPkt id (fun q => { q with lk := { q.lk with tileMap := bitsOf w 115 8 } })
    else (s1.bump t k 0xD4).onPkt id (fun q => { q with lk := { q.lk with drop := 7 } })
  | none => (s1.bump t k 0xD4).onPkt id (fun q => { q with lk := { q.lk with drop := 7 } })

/-- A bridged packet (R115, R133, R138): the L2 destination lookup; an unknown or group destination takes a multicast group. -/
def State.bridgePkt (s : State) (id : Nat) (p : Pkt) (pf : List Byte) : State :=
  let k := p.ctx.stage
  let vid := vidOf pf p.pr.slots
  let dmac := dmacOf pf p.pr.slots
  let group := Config.missGroup k vid dmac % 65536
  if bitOf dmac 40 then s.groupPkt id p group 0
  else
    let r := s.lookHash p.tile k p.ctx.ver 1 (l2Key k vid dmac)
    match r.1 with
    | some w =>
      (r.2.2.delayPkt id (6 * r.2.1)).onPkt id (fun q => { q with
        ctx := { q.ctx with exit := l2Dest w, nhop := 0, editEntry := 0, mc := false },
        lk := { q.lk with hitKind := 1, origExit := l2Dest w, reason := 8 } })
    | none => (r.2.2.delayPkt id (6 * r.2.1)).groupPkt id p group 0

/-- The source lookup of an arrival (R123); STATIC_ACTION 1 drops a frame in conflict with a static entry. -/
def State.sourceLookup (s : State) (id : Nat) (p : Pkt) (pf : List Byte) (room : Bool) : State :=
  let smac := smacOf pf p.pr.slots
  if p.src < 48 ∧ s.setting 0x30 p.ctx.inLport = 1 ∧ !bitOf smac 40 then
    let r := s.learnSource p.tile p.ctx.stage p.ctx.ver (vidOf pf p.pr.slots) smac p.ctx.inLport p.ctx.seq room
    r.state.onPkt id (fun q => { q with
      ctx := { q.ctx with learnProv := q.ctx.learnProv || r.prov },
      lk := { q.lk with drop := if r.conflict && s.setting 0x12 p.ctx.stage == 1 then 8 else q.lk.drop } })
  else s

/-- The class, the scan decision, the source lookup, the routed decision and the destination of a parsed packet. -/
def State.lookUpPkt (s : State) (id : Nat) (room : Bool) (q : Pkt) : State :=
  let k := q.ctx.stage
  let pf := (s.cfgOf k q.ctx.ver).profile
  let tc := if q.src = 49 then q.ctx.tc else Config.startClass k q.ctx.inLport q.passes q.frame % 8
  let p0 := { q with ctx := { q.ctx with tc := tc, mc := false } }
  let lk : LookRes := { LookRes.zero with
    rd := rdOf pf p0, routed := routedOf pf q.pr.slots q.pr.flags, ctrs := q.lk.ctrs, tc0 := tc }
  let p := { p0 with lk := lk }
  let s1 := (s.onPkt id (fun _ => { p with phase := .lookedUp })).sourceLookup id p pf room
  let s2 := if lk.routed = 0 then s1.bridgePkt id p pf else s1.routePkt id p pf
  -- A HOST or DROP fallback decided at PCLK 16 overrides the destination looked up.
  (s2.scanDecide id p).specIssue id

/-- CLASSIFY_AND_LOOK_UP (R27, R123, R137, R138, R146, R206): the class, the scan decision, the source lookup, the routed decision and the
destination; `room` says whether the tile's learning queue has a place. A frame injected without LOOKUP goes to its EXIT. -/
def execClassifyAndLookUp (id : Nat) (room : Bool) (s : State) : Out :=
  .next (match s.pkt id with
  | none => s
  | some q =>
    if q.phase != .parsed then s
    else if q.direct then
      (s.onPkt id (fun x => { x with phase := .lookedUp, lk := { x.lk with origExit := x.ctx.exit, reason := 8, tc0 := x.ctx.tc } })).specIssue id
    else s.lookUpPkt id room q)

/-! ### Forwarding scans -/

/-- Queued scans of a tile ahead of one (R209): REQUIRED first, then the earliest latest start, then the lower pipe. -/
def State.scanAhead (s : State) (t id : Nat) (p : Pkt) : Bool :=
  s.sw.pkts.any (fun e => e.1 != id && e.2.tile == t && e.2.phase == .lookedUp && e.2.scan.st == 1 && e.2.ctx.stage == p.ctx.stage &&
    (decide (p.scan.mode < e.2.scan.mode) || (p.scan.mode == e.2.scan.mode &&
      (decide (e.2.scan.latest < p.scan.latest) || (e.2.scan.latest == p.scan.latest && decide (e.2.pipe < p.pipe))))))

/-- An engine finds an uncorrectable word (R224): it is withdrawn, the fault is reported, and the scan ends with cause ERROR. -/
def State.engineError (s : State) (id : Nat) (p : Pkt) (engine : Nat) : State :=
  let t := p.tile
  let key := t * 4 + engine % 4
  ((s.onTab (fun a => { a with engBad := if a.engBad.contains key then a.engBad else a.engBad ++ [key] })).report
    (Report.of Fc.engineUe Lv.tile t p.ctx.stage (1 * 1024 + 16 * t + p.pipe) 0 (engine % 4 * 65536) 0)).scanMissed id 5 p

/-- PATTERN_W of a scan that ran (R211). -/
def scannedW (hit : Option (Nat × Nat)) : Nat :=
  2 ^ 31 + (match hit with | some x => 2 ^ 30 + x.1 % 16384 * 256 + x.2 % 256 | none => 0)

/-- A scan runs: the first match of its window decides PATTERN_W, and its reads are counted. -/
def State.runScan (s : State) (t id : Nat) (p : Pkt) : State :=
  let hit := match (s.setOf p.ctx.stage p.ctx.ver).bind (fun x => x.forward) with
    | some auto => scanWindow auto p.frame p.scan.b p.scan.e
    | none => none
  let s1 := (s.bumpN t p.ctx.stage 0x92 p.scan.n).bump t p.ctx.stage 0x90
  (if hit.isSome then s1.bump t p.ctx.stage 0x91 else s1).onPkt id (fun q => { q with
    scan := { q.scan with st := 2 }, lk := { q.lk with patternW := scannedW hit } })

/-- May a queued scan start in a PCLK: its window is open, the tile has an engine, and nothing is ahead of it? -/
def State.scanStarts (s : State) (t id start : Nat) (p : Pkt) : Bool :=
  p.tile == t && p.phase == .lookedUp && p.scan.st == 1 && decide (16 ≤ start) && decide (start ≤ p.scan.latest) &&
    decide (0 < s.engines t) && s.scanWeightIn p.ctx.stage t != 0 && !s.scanAhead t id p

/-- PATTERN_SCAN (R208–R211, R224): the scan at the front of its stage's queue in tile t starts in PCLK `start` on an engine; `err` 1 says
that a word was corrected, 2 that one was uncorrectable. -/
def execPatternScan (t id start engine err : Nat) (s : State) : Out :=
  onUnit (decide (t < 8))
    (match s.pkt id with
     | none => s
     | some p =>
       s.when (s.scanStarts t id start p) (fun s =>
         let s1 := if err = 1 then (s.bump t 0 0xAE).report (Report.of Fc.sramCe Lv.tile t p.ctx.stage (1 * 1024 + 16 * t + p.pipe) 0 0 0) else s
         let s2 := if err = 2 then s1.engineError id p engine else s1.runScan t id p
         if start ≤ 34 then s2.specIssue id else s2))

/-- SCAN_FALLBACK (R209, R211–R213): a scan still queued at the end of its latest start leaves the queue. -/
def execScanFallback (id : Nat) (s : State) : Out :=
  .next (match s.pkt id with
  | none => s
  | some p =>
    s.when (p.phase == .lookedUp && p.scan.st == 1) (fun s =>
      let step := s.stepOf (dieOfTile p.tile)
      let s1 := s.scanMissed id (if step = 3 then 3 else if step = 0 then 1 else 2) p
      if p.scan.latest ≤ 34 then s1.specIssue id else s1))

/-! ### The ordered match (R161–R164, R297–R303) -/

/-- What the winning action word makes of the context: the redirect, class and edit entry (R162, R213); without one, the context stays. -/
structure Applied where
  state : State
  ctx : Ctx
  lk : LookRes
  extra : Nat

/-- FWD (R162): 1 DROP, 2 TRAP, 3 COPY, 4 NHOP, 5 GROUP, 6 EXIT; a HOST fallback yields only to DROP and TRAP (R213). -/
def State.applyFwd (s : State) (p : Pkt) (a : Nat) : Applied :=
  let c := p.ctx
  let f := actFwd a
  let g := actTarget a
  let none_ : Applied := { state := s, ctx := c, lk := p.lk, extra := 0 }
  if f = 1 then { none_ with lk := { p.lk with drop := if p.lk.drop = 0 then 1 else p.lk.drop } }
  else if f = 2 then { none_ with ctx := { c with exit := 384 + g % 8, mc := false }, lk := { p.lk with reason := 0 } }
  else if f = 3 then { none_ with lk := { p.lk with copyTo := some (384 + g % 8) } }
  else if p.lk.reason = 3 then none_
  else if f = 4 ∨ f = 5 then
    let h := s.resolve p.tile c.stage c.ver (f - 4) g c.tc p.pr.slots
    { state := h.state, extra := 6 * h.twins,
      ctx := { c with exit := h.exit, nhop := h.nhop, editEntry := h.edit, mc := false },
      lk := { p.lk with
        dmac := h.dmac, smac := h.smac, reason := (if h.trap then 2 else 8),
        drop := (if h.dropped && p.lk.drop == 0 then 2 else p.lk.drop) } }
  else if f = 6 then { none_ with ctx := { c with exit := g % 512, mc := false }, lk := { p.lk with reason := 8 } }
  else none_

/-- Is a fault of a frame known by a PCLK (R33)? -/
def Pkt.knownBad (p : Pkt) (pclk : Nat) : Bool := p.bad && p.tailIn pclk

/-- The policer of an action word meters the packet (R297, R303). -/
def State.police (s : State) (p : Pkt) (a : Nat) (c : Ctx) (lk : LookRes) : State × Ctx × LookRes × Option Metered :=
  if actPolEn a && actFwd a != 1 && !p.knownBad 44 then
    let m := s.meter p.tile c.stage (actPolicer a) c.len (p.tailIn 44) (s.maxFrameOf p) p.pr.slots
    (m.2, { c with col := m.1.col, tc := (if m.1.act = 2 then m.1.tc else c.tc) },
      { lk with drop := if m.1.act = 1 ∧ lk.drop = 0 then 5 else lk.drop }, m.1.later)
  else (s, c, lk, p.metered)

/-- The key is searched after waiting `wait` PCLK for a port, and the action word is applied. -/
def State.matchAndAct (s : State) (id wait : Nat) (p : Pkt) : State :=
  let r := (s.bumpN p.tile p.ctx.stage 0x4A wait).matchPkt p
  let a := r.1
  let f := r.2.2.applyFwd p a
  let n := f.state.countEntry p f.lk (actCtrEn a) (actCtr a)
  let c1 := if actEditSet a then { f.ctx with editEntry := actEdit a } else f.ctx
  let c2 := if actTcSet a then { c1 with tc := actTc a } else c1
  let m := n.1.police { p with adder := p.adder + wait + r.2.1 + f.extra } a c2 n.2
  (m.1.delayPkt id (wait + r.2.1 + f.extra)).onPkt id (fun q => { q with
    phase := .matched, fin := { m.2.1 with spec := q.ctx.spec }, lk := { m.2.2.1 with action := a }, metered := m.2.2.2 })

/-- ORDERED_MATCH_SEARCH (R157–R164, R297): the key is searched after waiting `wait` PCLK for a port, and the action word is applied. -/
def execOrderedMatchSearch (id wait : Nat) (s : State) : Out :=
  .next (match s.pkt id with
  | none => s
  | some p =>
    if p.phase != .lookedUp || p.scan.st == 1 then s
    else if p.direct then s.onPkt id (fun q => { q with phase := .matched, fin := q.ctx })
    else s.matchAndAct id wait p)

/-! ### The answer of the egress scheduler (R27, R30, R263–R269) -/

/-- Does the gate of a queue let a frame of W wire bytes through from a tick on (R315)? -/
def State.gateFits (s : State) (x c w start : Nat) : Bool :=
  let g := s.exitGbps x
  (s.eg x).openFor c 600 (s.netU + ((start - s.now : Nat) : Int)) (wireUnits w g)

/-- Wire bytes of a frame of a length on an exit: preamble and gap, and a peer tag (R56, R315). -/
def State.wireBytes (s : State) (x len : Nat) : Nat := len + 20 + (if x < 384 ∧ (s.lport x).peerUp then 8 else 0)
/-- Where a frame granted now can begin on the wire: the committed end, or `pclk` PCLK and the transmit figure from now (R315). -/
def State.startAt (s : State) (x pclk : Nat) : Nat :=
  max (s.eg x).busyUntil (s.now + pclk * pclkTicks s + (if x < 384 then tkNs (s.lport x).txFig else 0))

/-- May a speculative request be granted (R27, R30, R264, R265, R287, R305, R309, R315)? -/
def State.mayGrant (s : State) (id : Nat) (p : Pkt) : Bool :=
  let x := p.ctx.exit
  let c := p.ctx.tc
  let l := s.lport x
  let q := s.queue x c
  s.queueEmptyBut x c (some id) && (s.pauseOf x c).isNone && l.linkUp && (l.oper != 4 || c == 7) &&
    decide (p.ctx.inLport < 384) && decide (l.gbps ≤ (s.lport p.ctx.inLport).gbps) && !s.sw.spilling.contains p.voq &&
    (s.eg x).frame.isNone && q.shaper.allows l.gbps && (s.eg x).shaper.allows l.gbps && s.creditFree x &&
    s.gateFits x c (s.wireBytes x (cfgMaxFrame l.conf) + (s.eg x).gbPad) (s.startAt x 47)

/-- Does another class queue of an lport hold requests (R268)? -/
def State.othersWait (s : State) (x c : Nat) : Bool := (range 0 8).any (fun d => d != c && !s.queueEmpty x d)

/-- SPEC_GRANT (R27, R265, R268): a grant takes a staging credit, charges 256 bytes and commits the lport; otherwise a deferral. -/
def execSpecGrant (id : Nat) (s : State) : Out :=
  .next (match s.pkt id with
  | none => s
  | some p =>
    if p.spec != 1 then s
    else
      let x := p.ctx.exit
      let c := p.ctx.tc
      if s.mayGrant id p then
        let t0 := s.startAt x 47
        let s1 := (s.onEg x (fun e => { e with frame := some id, busyUntil := t0 + wireUnits (s.wireBytes x p.ctx.len) (s.exitGbps x) })).onQueue
          x c (fun q => { q with dc := q.dc - 256, rot := p.tile })
        (s1.bump p.tile p.ctx.stage 0x06).onPkt id (fun q => { q with
          spec := 2, busyBefore := (s.eg x).busyUntil, rotBefore := (s.queue x c).rot, passed := s.othersWait x c })
      else (s.bump p.tile p.ctx.stage 0x07).onPkt id (fun q => { q with spec := 3 }))

/-! ### Mirror, sample and host copies (R162, R273, R274) -/

def State.session (s : State) (k kind n : Nat) : Nat := SMap.get 0 (k * 32 + kind * 16 + n) s.sw.sessions
/-- A copy of a packet: whole in its own cells, as the context and length given. -/
def Pkt.copyOf (p : Pkt) (id : Nat) (c : Ctx) (len : Nat) (lk : LookRes) : Pkt :=
  { Pkt.zero with
    phase := .done, tile := p.tile, src := 50, frame := p.frame.take (len - 4) ++ fcsOf (p.frame.take (len - 4)), bad := p.bad,
    tailAt := p.tailAt, adder := p.adder, verdict := p.verdict, passes := p.passes, peer := p.peer, tagIns := p.tagIns, ctx := c, fin := c,
    pr := p.pr, lk := lk, origin := id + 1 }

/-- A copy is added and admitted. -/
def State.addCopy (s : State) (p : Pkt) : State :=
  let id := s.sw.nextPkt
  (s.addPkt p).admitPkt id

/-- A copy for a session (R273, R274): KIND 0 mirror, 1 sample. -/
def State.sessionCopy (s : State) (id : Nat) (p : Pkt) (kind n : Nat) : State :=
  let r := s.session p.ctx.stage kind n
  if !bitOf r 41 then s
  else
    let trunc := bitsOf r 97 14
    let len := if trunc = 0 then p.ctx.len else min trunc p.ctx.len
    let c : Ctx := { p.fin with
      exit := bitsOf r 114 9, tc := bitsOf r 111 3, nhop := bitsOf r 42 18, editEntry := bitsOf r 84 13, len := len, ct := false, spec := false,
      mc := false, mir := kind == 0, smp := kind == 1 }
    s.addCopy (p.copyOf id c len { p.lk with reason := 5 + kind, copyTo := none })

/-- The copy of FWD COPY toward a host queue. -/
def State.hostCopy (s : State) (id : Nat) (p : Pkt) (x : Nat) : State :=
  s.addCopy (p.copyOf id { p.fin with exit := x, ct := false, spec := false, mc := false } p.ctx.len { p.lk with reason := 1, copyTo := none })

/-- Every copy made at PCLK 45; `sel` says that the tile's generator selects the packet for its sample session. -/
def State.makeCopies (s : State) (id : Nat) (p : Pkt) (sel : Bool) : State :=
  let a := p.lk.action
  let s1 := if actMirrorEn a then s.sessionCopy id p 0 (actMirror a) else s
  let s2 := if actSampleEn a && sel then s1.sessionCopy id p 1 (actSample a) else s1
  match p.lk.copyTo with
  | some x => s2.hostCopy id p x
  | none => s2

/-! ### Tail verdicts (R33, R126, R302) -/

/-- The receive MAC's verdict of a frame reaches the sequencer and the policer that metered it. -/
def State.applyVerdict (s : State) (id : Nat) (p : Pkt) : State :=
  let s1 := if p.src < 48 then s.giveVerdict p.tile p.ctx.inLport p.ctx.seq (!p.bad) else s
  let s2 := match p.metered with | some m => s1.tailAdjust p.tile p.ctx.len (!p.bad) m | none => s1
  s2.onPkt id (fun q => { q with verdict := some (!p.bad), metered := none })

/-- A bad tail: what the frame's place makes of it (R33, R254, R274). One held for release is discarded at its release. -/
def State.badTail (s : State) (id : Nat) (p : Pkt) : State :=
  match p.phase with
  | .queued => (if p.src = 50 then s.bump p.tile p.ctx.stage 0xD8 else s).discard id p false
  | .far => s.discard id p false
  | .done =>
    if p.spec = 5 then s.stompPkt id 1
    else s
  | .tail => s.onSw (fun w => { w with pkts := SMap.erase id w.pkts })
  | _ => s.stompPkt id 1

/-- A good tail, or a bad one of a frame launched: cells admitted for MAX_FRAME and not needed go back (R276). -/
def State.returnExcess (s : State) (id : Nat) : State :=
  s.onPkt id (fun q => let need := q.cells - q.launched; if need < q.charged then q.uncharge (q.charged - need) else q)

/-- One packet learns its verdict. -/
def State.tailOf (s : State) (id : Nat) : State :=
  match s.pkt id with
  | none => s
  | some p =>
    let s1 := (s.applyVerdict id p).returnExcess id
    match s1.pkt id with
    | none => s1
    | some q => if q.bad then s1.badTail id q else if q.phase == .tail then s1.onSw (fun w => { w with pkts := SMap.erase id w.pkts }) else s1

/-- Is a tail's verdict due: behind PCLK 45, and not known? -/
def Pkt.awaitsTail (p : Pkt) : Bool :=
  p.verdict.isNone && !p.copy && (match p.phase with
    | .fifo => false
    | .placed => false
    | .parsed => false
    | .lookedUp => false
    | .matched => false
    | _ => true)

/-- TAIL_VERDICT (R33, R126, R254, R302): a frame's tail arrives after PCLK 45; its copies share the verdict. -/
def execTailVerdict (id : Nat) (s : State) : Out :=
  .next (match s.pkt id with
  | none => s
  | some p =>
    s.when p.awaitsTail (fun s =>
      forEach (s.pktsWhere (fun q => q.origin == id + 1 && q.awaitsTail)) (fun j s => s.tailOf j) (s.tailOf id)))

/-! ### Confirm (R28, R29, R33, R36, R274) -/

/-- Is a packet the next of its source to be released, or one whose gap was closed (R23)? -/
def State.inSequence (s : State) (p : Pkt) : Bool :=
  let x := s.source p.tile p.src
  x.closed.contains p.ctx.seq || p.ctx.seq == x.release

/-- Why a speculation is cancelled, if it is (R28): 1 redirect, 6 class change, 4 reorder hold, 5 VOQ not empty. -/
def State.cancelCause (s : State) (p : Pkt) : Option Nat :=
  if p.fin.exit != p.ctx.exit || p.fin.mc then some 1
  else if p.fin.tc != p.ctx.tc then some 6
  else if !s.inSequence p then some 4
  else if !(s.voq p.voq).isEmpty then some 5 else none

/-- The cause of the SPEC_CANCEL of a packet that is dropped. -/
def dropCause (drop : Nat) : Nat := if drop = 5 then 2 else if drop = 6 then 3 else 0

/-- The packet leaves its pipe toward the reorder unit, or is dropped. -/
def State.settle (s : State) (id : Nat) (p : Pkt) (drop : Nat) : State :=
  if drop != 0 then
    let s1 := if p.spec = 2 ∨ p.spec = 3 then s.cancelSpec id p (dropCause drop) else s
    match s1.pkt id with
    | some q => s1.pipeDrop id q
    | none => s1
  else
    let s1 := if p.spec = 2 ∨ p.spec = 3 then
        (match s.cancelCause p with
         | some c => s.cancelSpec id p c
         | none => if p.spec = 2 then s.onPkt id (fun q => { q with spec := 5 }) else s)
      else s
    s1.onPkt id (fun q => { q with phase := .done, ctx := { p.fin with spec := q.ctx.spec }, heldAt := s.now })

/-- CONFIRM (R28, R33, R36, R274): at PCLK 45 known faults are checked, copies made, and a confirm or a cancel is sent. -/
def execConfirm (id : Nat) (sel : Bool) (s : State) : Out :=
  .next (match s.pkt id with
  | none => s
  | some p0 =>
    if p0.phase != .matched || p0.spec == 1 then s
    else
      let limit := decide (392 ≤ p0.fin.exit) && !p0.fin.mc && p0.lk.drop == 0 && decide (3 ≤ p0.passes)
      let s0 := if limit then s.bump p0.tile p0.ctx.stage 0x11 else s
      let s1 := if p0.verdict.isNone && p0.tailIn 45 then s0.applyVerdict id p0 else s0
      match s1.pkt id with
      | none => s1
      | some p =>
        let bad := p0.knownBad 45
        let drop := if bad then 6 else if limit then 4 else p.lk.drop
        let s2 := if bad then s1 else s1.makeCopies id p sel
        s2.settle id p drop)

/-- SPEC_RETURN (R267): the oldest cancel on its way to the egress scheduler of exit x arrives. -/
def execSpecReturn (x : Nat) (s : State) : Out :=
  onUnit (decide (x < 384))
    (match s.sw.returns.find? (fun r => r.exit == x) with
     | none => s
     | some r => (s.onSw (fun w => { w with returns := w.returns.erase r })).takeBack r)

/-! ### Releases (R22, R23) -/

/-- A packet leaves the reorder unit: its slot is RETIRED, unless its speculation was WASTED, and it is admitted or not. -/
def State.releasePkt (s : State) (id : Nat) (late : Bool) : State :=
  match s.pkt id with
  | none => s
  | some p =>
    let s1 := if p.spec = 4 then s else s.pipeSlot p.tile 0
    if p.verdict == some false && p.spec != 5 then (s1.erasePkt id).settleQueue p.ctx.exit p.ctx.tc
    else (s1.onPkt id (fun q => { q with ctx := { q.ctx with late := q.ctx.late || late }, spec := (if q.spec = 4 then 0 else q.spec) })).admitPkt id

/-- The packet of a source that holds a sequence number and has left its pipe. -/
def State.heldPkt (s : State) (t src seq : Nat) : Option Nat :=
  (s.pktsWhere (fun p => p.tile == t && p.src == src && p.phase == .done && p.ctx.seq == seq)).head?

/-- Release in sequence: the next number's packet, or a returned number; stop at a gap. -/
def State.releaseRun (s : State) (t src : Nat) : Nat → State
  | 0 => s
  | fuel + 1 =>
    let x := s.source t src
    let step (y : Source) : Source := { y with release := (y.release + 1) % 4096 }
    if x.returned.contains x.release then
      (s.onSource t src (fun y => step { y with returned := y.returned.filter (fun n => n != x.release) })).releaseRun t src fuel
    else match s.heldPkt t src x.release with
      | some id => ((s.onSource t src step).releasePkt id false).releaseRun t src fuel
      | none => s

/-- Packets whose gap was closed leave at once, LATE (R23). -/
def State.releaseLate (s : State) (t src : Nat) : State :=
  forEach (s.pktsWhere (fun p => p.tile == t && p.src == src && p.phase == .done && (s.source t src).closed.contains p.ctx.seq)) (fun id s =>
    match s.pkt id with
    | some p =>
      ((s.onSource t src (fun y => { y with closed := y.closed.filter (fun n => n != p.ctx.seq) })).bump t p.ctx.stage 0x10).releasePkt id true
    | none => s) s

/-- REORDER_RELEASE: a source's packets are released in sequence, and late ones at once. -/
def execReorderRelease (t src : Nat) (s : State) : Out :=
  onUnit (decide (t < 8) && decide (src < 50)) ((s.releaseRun t src 4096).releaseLate t src)

/-- The missing numbers before the next packet held: they are closed, and the release goes on behind them. -/
def State.closeGap (s : State) (t src : Nat) : Nat → State
  | 0 => s
  | fuel + 1 =>
    let x := s.source t src
    if x.release == x.nextSeq || x.returned.contains x.release || (s.heldPkt t src x.release).isSome then s
    else (s.onSource t src (fun y => { y with closed := y.closed ++ [y.release], release := (y.release + 1) % 4096 })).closeGap t src fuel

/-- LATE_RELEASE (R23): what is in sequence is released first; if the oldest packet held has waited 256 PCLK, the gap before it is closed. -/
def execLateRelease (t src : Nat) (s : State) : Out :=
  onUnit (decide (t < 8) && decide (src < 50))
    (let s1 := (s.releaseRun t src 4096).releaseLate t src
     let held := s1.pktsWhere (fun p => p.tile == t && p.src == src && p.phase == .done)
     s1.when (held.any (fun id => match s1.pkt id with
       | some p => decide (p.heldAt + 256 * pclkTicks s1 ≤ s1.now)
       | none => false)) (fun s => (s.closeGap t src 4096).releaseRun t src 4096))

end Sys2Proof.Machine
end

