-- ==== Sys2Proof/Machine/EgressOps.lean ====
section
/-! DEFINITION. Shared operations of the egress tiles (R232, R244, R260–R272, R281, R305–R318): queue heads, the choice of a queue, the
charge of cells, cell errors, exceptions, the tag stage. -/
namespace Sys2Proof.Machine
open Sys2Proof

/-! ### Queue heads (R264, R265) -/

/-- Places in a queue's rotation before its local copies: source tiles, or (tile, stage) lanes of a recirculation exit. -/
def srcCount (x : Nat) : Nat := if x < 384 then 8 else 40
/-- The VOQ lane of place i of queue (x, c). -/
def srcVoq (x c i : Nat) : Nat := if x < 384 then voqKey i x c 0 else voqKey (i / 5) x c (i % 5)

/-- May a packet at the head of its VOQ be requested: stored whole, or a local copy (R30, R31)? -/
def Pkt.requests (p : Pkt) : Bool := (p.phase == .queued && p.verdict == some true) || p.phase == .localCopy

/-- The packet that place i of a queue offers. -/
def State.srcHead (s : State) (x c i : Nat) : Option Nat :=
  let h := if i = srcCount x then (s.queue x c).copies.head? else (s.voq (srcVoq x c i)).head?
  h.filter (fun id => match s.pkt id with | some p => p.requests | none => false)

/-- The head of a queue: its places are served in rotation, from the one after the last granted. -/
def State.queueHead (s : State) (x c : Nat) : Option (Nat × Nat) :=
  let n := srcCount x + 1
  ((range 1 n).map (fun j => ((s.queue x c).rot + j) % n)).findSome? (fun i => (s.srcHead x c i).map (fun id => (i, id)))

/-! ### Eligibility (R64, R287, R305, R315, R317) -/

/-- Watchdog discard of a class of an exit. -/
def State.inWatchdog (s : State) (x c : Nat) : Bool := match s.pauseOf x c with | some p => p.watchdog | none => false
/-- Wire bytes of a stored frame for its gate. -/
def State.gateBytes (s : State) (x : Nat) (p : Pkt) : Nat := s.wireBytes x p.ctx.len + (s.eg x).gbPad
/-- The first condition of R305 that queue c of exit x does not meet, 0 where it is eligible: 1 empty, 2 paused, 3 probation, 4 gate,
5 shaper. -/
def State.unmet (s : State) (x c : Nat) : Nat :=
  match s.queueHead x c with
  | none => 1
  | some h =>
    match s.pkt h.2 with
    | none => 1
    | some p =>
      if x < 384 ∧ (s.pauseOf x c).isSome ∧ !s.inWatchdog x c then 2
      else if x < 384 ∧ ((s.lport x).oper = 4 ∧ c ≠ 7) then 3
      else if !s.gateFits x c (s.gateBytes x p) (s.startAt x 42) then 4
      else if !((s.queue x c).shaper.allows (s.exitGbps x) && (s.eg x).shaper.allows (s.exitGbps x)) then 5
      else 0

/-- A frame can never pass its gate (R317). -/
def State.gateTooLong (s : State) (x c : Nat) (p : Pkt) : Bool :=
  match (s.eg x).sheet.longest c with
  | some ns => decide (ns * 66 < wireUnits (s.gateBytes x p) (s.exitGbps x))
  | none => false

/-- Frames too long for their gates are discarded at the heads of queue c, uncharged. -/
def State.dropTooLong (s : State) (x c : Nat) : Nat → State
  | 0 => s
  | fuel + 1 =>
    match s.queueHead x c with
    | none => s
    | some h =>
      match s.pkt h.2 with
      | none => s
      | some p =>
        if s.gateTooLong x c p then
          let o := (s.arr 6 (tileOfExit x) x c 1).onset 9 x
          let s1 := if o.1 then o.2.post p.ctx.stage Ev.gateTooLongOnset Lv.port x (leBytes 2 x ++ leBytes 1 c ++ zeros 1 ++ leBytes 2 p.ctx.len ++ zeros 2) else o.2
          (s1.discard h.2 p false).dropTooLong x c fuel
        else s

/-! ### The choice of a queue (R306) -/

/-- Rounds of a queue's loop before its deficit is above zero. -/
def EQueue.rounds (q : EQueue) : Nat := if 0 < q.dc then 0 else ((-q.dc).toNat + 256 * q.quantum) / (256 * q.quantum)

/-- Eligible queues of a level in the order of the loop: from the pointer, or the next after it. -/
def State.levelQueues (s : State) (x level : Nat) : List Nat :=
  let ptr := ((s.eg x).pointers[level]?).getD 0
  ((range 0 8).map (fun j => (ptr + j) % 8)).filter (fun c => (s.queue x c).level == level && s.unmet x c == 0)

/-- The place in a list of the least number, the first where several are least. -/
def argMin : List Nat → Nat
  | [] => 0
  | [_] => 0
  | a :: l => let i := argMin l; if a ≤ (l[i]?).getD 0 then 0 else i + 1

/-- Deficit round robin, as if its loop had run to its end: the queue granted, and the deficits of its level. -/
def State.choose (s : State) (x level : Nat) : Option (Nat × State) :=
  let qs := s.levelQueues x level
  match qs with
  | [] => none
  | _ =>
    let j := argMin (qs.map (fun c => (s.queue x c).rounds))
    let c := (qs[j]?).getD 0
    let n := (s.queue x c).rounds
    let add (i d : Nat) (s : State) : State :=
      s.onQueue x d (fun q => { q with dc := q.dc + (((n + (if i < j then 1 else 0)) * (256 * q.quantum) : Nat) : Int) })
    let s1 := ((range 0 qs.length).zip qs).foldl (fun s e => add e.1 e.2 s) s
    some (c, s1.onEg x (fun e => { e with pointers := setAt e.pointers level c }))

/-- Strict priority between the levels. -/
def State.chooseQueue (s : State) (x : Nat) : Option (Nat × State) := [3, 2, 1, 0].findSome? (fun l => s.choose x l)

/-! ### Cells (R261, R265, R310) -/

/-- Data bytes of cell i of a packet. -/
def Pkt.cellData (p : Pkt) (i : Nat) : Nat := min 256 (p.ctx.len - 4 - 256 * i)

/-- The next cell's charge: the deficit, and the shapers unless the frame will be discarded at egress (R307, R310). -/
def State.chargeCell (s : State) (p : Pkt) : State :=
  let x := p.ctx.exit
  let c := p.ctx.tc
  let d := p.cellData p.launched
  let last := p.launched + 1 == p.cells
  let given : Int := if p.ctx.ct && p.launched == 0 then 256 else 0
  let s1 := s.onQueue x c (fun q => { q with dc := q.dc + given - (d : Int) })
  let n := d + (if last then 4 + (if (s.eg x).lineBytes then 20 else 0) else 0)
  if p.cut && p.stomp == 0 then s1 else s1.chargeShapers x c (n : Int)

/-! ### Cell errors (R281, R452) -/

/-- An uncorrectable cell is out of use: FOLD_QUARANTINE, its report, and CELL_REGION past sixteen of a region. -/
def State.quarantine (s : State) (t cell stage access : Nat) : State :=
  if s.sw.quarantined.contains (t, cell) then s
  else
    let s1 := s.onSw (fun w => { w with quarantined := w.quarantined ++ [(t, cell)] })
    let s2 := (s1.report (Report.of Fc.foldUe Lv.tile t stage (4 * 1024 + t) access cell 0)).post 0 Ev.foldQuarantine Lv.tile t
      (leBytes 1 t ++ zeros 3 ++ leBytes 4 cell)
    let n := (s2.sw.quarantined.filter (fun q => q.1 == t && q.2 / 4096 == cell / 4096)).length
    if n = 17 then s2.report (Report.of Fc.cellRegion Lv.tile t 0 (4 * 1024 + t) 4 cell 0) else s2

/-! ### Exceptions (R244) -/

/-- What an edit exception leaves of a frame once its last cell has been launched: it is dropped, or goes to a host queue of its tile as it
was loaded. -/
def State.finishExc (s : State) (id : Nat) (p : Pkt) : State :=
  let e := s.edit p.ctx.stage
  let act := (((e.bank (e.bankOf (s.isOld p.ctx.stage p.ctx.ver))).exceptions)[p.exc]?).getD 0
  let s1 := s.dressSlots p 1
  let s2 := (s1.leaveEgress id p.ctx.exit p.ctx.tc)
  let s3 := if p.hold = 0 then s2 else s2.dropHold p.hold
  if act < 128 ∨ p.bad ∨ p.stomp ≠ 0 then ((s3.onPkt id (fun q => { q with cycles := 0, hold := 0 })).erasePkt id).settleQueue p.ctx.exit p.ctx.tc
  else
    ((s3.onPkt id (fun q => { q with
      phase := .done, tile := p.egress, src := 50, cycles := 0, hold := 0, launched := 0, arrived := 0, reentered := false, copy := true,
      lk := { q.lk with reason := 4 }, ctx := { q.ctx with exit := 384 + act % 8, ct := false } })).settleQueue p.ctx.exit p.ctx.tc).admitPkt id

/-- The word a program could not read is remembered and reported (R250). -/
def State.ucodeError (s : State) (p : Pkt) (bank a : Nat) : State :=
  let key := (p.egress * 2 + bank) * 8192 + a
  (s.onTab (fun t => { t with ucodeBad := if t.ucodeBad.contains key then t.ucodeBad else t.ucodeBad ++ [key] })).report
    (Report.of Fc.ucodeUe Lv.tile p.egress p.ctx.stage (2 * 1024 + 96 * p.egress + p.dresser) 2 (bank * 8192 + a) 0)

/-! ### The tag stage and the peer tag (R48, R56) -/

/-- TX_UNTAG: the outermost tag of the kind RX_TAG selects with the default VID is removed. -/
def untag (cfg : Nat) (f : List Byte) : List Byte :=
  let t := tpidOf (cfgRxTag cfg)
  if cfgTxUntag cfg && t != 0 && be16 f 12 == t && be16 f 14 % 4096 == cfgDefVid cfg then f.take 12 ++ f.drop 16 else f

/-- Cells of a queue in every tile, and the sum of its VOQs' thresholds: CONG is their quotient in eighths (log entry 88). -/
def State.congestion (s : State) (p : Pkt) : Nat :=
  let x := p.ctx.exit
  let c := p.ctx.tc
  let k := p.ctx.stage
  let fill := sumOver (range 0 8) (fun t => s.voqCells (voqKey t x c 0))
  let limit := sumOver (range 0 8) (fun t => (s.classCfg k c).threshold (s.sharedFree k t))
  if limit = 0 then 7 else min 7 (8 * fill / limit)

/-- Network time of a packet's arrival, from the 24 bits of TS_IN and the time now. -/
def State.arrivalNs (s : State) (p : Pkt) : Nat := s.netLinear - subMod s.netLinear p.ctx.tsIn (2 ^ 24)
/-- The 48 bits of the peer tag that this device sends for a packet. -/
def State.peerBits (s : State) (p : Pkt) : Nat :=
  let l := s.lport p.ctx.exit
  2 ^ 44 + p.ctx.ver % 16 * 2 ^ 40 + s.congestion p * 2 ^ 37 + p.ctx.tc % 8 * 2 ^ 34 + flagNat (l.oper == 3) * 2 ^ 33 + s.arrivalNs p % 2 ^ 32

/-- Is the peer mode of an lport up (R55)? -/
def State.peerUp (s : State) (x : Nat) : Bool := decide (x < 384) && (s.lport x).peerUp

end Sys2Proof.Machine
end

