-- ==== Sys2Proof/Machine/Egress.lean ====
section
/-! DEFINITION. The events of the crossbar and the egress tiles (R36, R46, R48, R124, R227–R257, R260–R272, R281–R287, R305–R318): grants,
cells, replication, re-entry, dressers, hand-off, transmission, flushes and scrubs. -/
namespace Sys2Proof.Machine
open Sys2Proof

/-! ### Grants (R265, R266, R305, R306, R317) -/

/-- The head of a queue is granted; a frame of a class in watchdog discard will be discarded at egress (R287). -/
def State.grantHead (s : State) (x c i id : Nat) (p : Pkt) (wait : Nat) : State :=
  let t := tileOfExit x
  let far := !p.copy && dieOfTile p.tile != dieOfTile t
  let e := (s.startAt x 42) + wireUnits (s.wireBytes x p.ctx.len) (s.exitGbps x)
  let s1 := ((s.onQueue x c (fun q => { q with rot := i, copies := q.copies.filter (fun j => j != id) })).onEg x (fun g => { g with
    frame := some id, busyUntil := e })).bumpN t p.ctx.stage 0xD0 (if far then wait else 0)
  ((s1.arr 2 t x c 1).arr 3 t x c (p.ctx.len - 4)).onPkt id (fun q => { q with phase := .granted, egress := t, cut := s.inWatchdog x c })

/-- EGRESS_GRANT: an exit that holds no frame chooses a queue and grants its head; `wait` is what it waits for the bridge, `room` says that a
recirculation input can hold the frame. -/
def execEgressGrant (x wait : Nat) (room : Bool) (s : State) : Out :=
  onUnit (decide (x < 384) || (decide (392 ≤ x) && decide (x < 400)))
    (if (s.eg x).frame.isSome || (decide (x < 384) && !(s.lport x).linkUp) then s
     else
       let s1 := if x < 384 then forEach (range 0 8) (fun c s => s.dropTooLong x c 64) s else s
       if 384 ≤ x ∧ !room then s1
       else match s1.chooseQueue x with
         | none => s1
         | some (c, s2) =>
           match s2.queueHead x c with
           | none => s1
           | some (i, id) =>
             match s2.pkt id with
             | some p => s2.grantHead x c i id p wait
             | none => s1)

/-! ### Cells (R263, R265, R270, R281) -/

/-- A cell to be launched is uncorrectable: nothing of the frame is sent, or it ends before that cell; a frame in the hold loses the copies
not yet handed off. -/
def State.cellError (s : State) (id : Nat) (p : Pkt) (cell : Nat) : State :=
  let s1 := s.quarantine (if p.copy then p.egress else p.tile) cell p.ctx.stage 0
  let t := if p.copy then p.egress else p.tile
  let lose (s : State) (id : Nat) (p : Pkt) : State := (s.bump t p.ctx.stage 0xE3).discard id p false
  if p.copy then
    forEach (s1.pktsWhere (fun q => q.hold == p.hold && q.phase != .mac && q.launched == 0)) (fun j s =>
      match s.pkt j with | some q => lose s j q | none => s)
      (if p.launched = 0 then s1 else (s1.onPkt id (fun q => { q with stomp := 3, cut := true })).freeExit p.ctx.exit id)
  else if p.launched = 0 then lose s1 id p
  else (((s1.releaseCells p false).stompPkt id 3).onPkt id (fun q => { q.uncharge q.charged with cut := true })).freeExit p.ctx.exit id

/-- The first cell of a frame for another stage's exit is refused (R270). -/
def State.stageRefuse (s : State) (id : Nat) (p : Pkt) : State :=
  let s1 := (s.bump p.tile p.ctx.stage 0xD3).report
    (Report.of Fc.stageRefused Lv.tile p.tile p.ctx.stage (10 * 1024 + p.tile) 1 p.ctx.exit 0)
  (s1.post p.ctx.stage Ev.stageRefused Lv.tile p.tile (leBytes 1 p.tile ++ zeros 1 ++ leBytes 2 p.ctx.exit)).discard id p false

/-- A cell goes: its charge, the fold cell it leaves, and with the last the lport's commitment. -/
def State.launchCell (s : State) (id : Nat) (p : Pkt) : State :=
  let x := p.ctx.exit
  let s1 := if p.launched = 0 then (if p.ctx.ct then (s.leaveVoqs id).bump p.tile p.ctx.stage 0x13 else s.leaveVoqs id) else s
  let s2 := (s1.chargeCell p).onPkt id (fun q => { (if q.copy then q else q.uncharge 1) with launched := q.launched + 1 })
  if p.launched + 1 = p.cells then
    let s3 := (s2.freeExit x id).settleSpill p.ctx.stage p.voq
    if p.exc = 0 then s3 else (match s3.pkt id with | some q => s3.finishExc id q | none => s3)
  else s2

/-- May the next cell of a packet be launched? The last waits for its frame's verdict. -/
def State.mayLaunch (s : State) (id : Nat) (p : Pkt) : Bool :=
  (match p.phase with
   | .granted => true
   | .crossed => true
   | .dresser => true
   | .edited => true
   | .mac => true
   | _ => false) &&
    (s.eg p.ctx.exit).frame == some id && decide (p.launched < p.cells) && !(p.cut && p.stomp != 0) && s.creditFree p.ctx.exit &&
    (decide (p.launched + 1 < p.cells) || p.verdict.isSome || p.copy)

/-- CELL_LAUNCH: the next cell of a granted frame; `err` 1 says that it was corrected on read, 2 that fold cell `cell` is uncorrectable. -/
def execCellLaunch (id err cell : Nat) (s : State) : Out :=
  .next (match s.pkt id with
  | none => s
  | some p =>
    if !s.mayLaunch id p then s
    else if p.launched = 0 ∧ p.ctx.exit < 384 ∧ s.portStage (p.ctx.exit / 8) ≠ p.ctx.stage then s.stageRefuse id p
    else if err = 2 then s.cellError id p cell
    else
      let s1 := if err = 1 then (s.bump p.tile 0 0xE4).report (Report.of Fc.sramCe Lv.tile p.tile p.ctx.stage (10 * 1024 + p.tile) 0 cell 0) else s
      s1.launchCell id p)

/-- CELL_ARRIVAL (R263): a cell reaches egress staging; with its last cell a frame in watchdog discard is discarded (R287). -/
def execCellArrival (id : Nat) (s : State) : Out :=
  .next (match s.pkt id with
  | none => s
  | some p =>
    s.when (decide (p.arrived < p.launched)) (fun s =>
      let s1 := s.onPkt id (fun q => { q with arrived := q.arrived + 1, phase := (if q.phase == .granted then .crossed else q.phase) })
      if p.arrived + 1 = p.cells ∧ p.cut ∧ p.stomp = 0 then
        (match s1.pkt id with
         | some q => (s1.arr 1 q.egress q.ctx.exit q.ctx.tc 1).discard id q false
         | none => s1)
      else s1))

/-! ### Multicast (R271, R272) -/

/-- A replication entry: EXIT, NHOP, SRC_PRUNE. -/
def replExit (e : Nat) : Nat := bitsOf e 55 9
def replNhop (e : Nat) : Nat := bitsOf e 37 18
def replPrune (e : Nat) : Bool := bitOf e 36

/-- What a copy carries of the next hop of its entry (R231). -/
def State.replHop (s : State) (p : Pkt) (k n : Nat) : Hop :=
  if n = 0 then { state := s, twins := 0, exit := 0, nhop := 0, edit := p.ctx.editEntry, dmac := 0, smac := 0, trap := false, dropped := false }
  else
    let r := s.lookDirect k p.ctx.stage p.ctx.ver 9 n
    match r.1 with
    | some w => { state := r.2.2, twins := r.2.1, exit := 0, nhop := n, edit := bitsOf w 101 13, dmac := bitsOf w 53 48, smac := bitsOf w 5 48,
                  trap := false, dropped := false }
    | none => { state := r.2.2, twins := r.2.1, exit := 0, nhop := n, edit := p.ctx.editEntry, dmac := 0, smac := 0, trap := false, dropped := false }

/-- The copy of one entry in tile k, if it is made: its packet, or the state with the drop counted. -/
def State.replicate (s : State) (p : Pkt) (k h e : Nat) : State :=
  let x := replExit e
  let c := p.ctx.tc
  let st := p.ctx.stage
  if replPrune e && x == p.ctx.inLport then s
  else
    let hop := s.replHop p k (replNhop e)
    let q : Pkt := { p with
      phase := .localCopy, copy := true, tile := k, src := 50, origin := 0, egress := k, hold := h, cVoq := 0, cLport := 0, cShared := 0, cHead := 0, launched := 0, arrived := 0,
      inj := none, metered := none,
      ctx := { p.ctx with exit := x, nhop := replNhop e, editEntry := hop.edit },
      lk := { p.lk with dmac := hop.dmac, smac := hop.smac, reason := 7 } }
    let s1 := hop.state
    let id := s1.sw.nextPkt
    if 384 ≤ x ∧ x < 392 then ((s1.addPkt { q with hold := 0, phase := .done }).admitPkt id)
    else if x < 384 ∧ !(s1.lport x).linkUp then s1.bump k st 0xDE
    else if x < 384 ∧ (s1.lport x).oper = 4 ∧ c ≠ 7 then s1.stat x 27
    else if s1.setting 0x15 st ≤ (s1.queue x c).copies.length then s1.bump k st 0xD6
    else
      (((s1.addPkt q).onQueue x c (fun y => { y with copies := y.copies ++ [id] })).onSw (fun w => { w with
        holds := SMap.adjust h (fun z => (z.1, z.2.1, z.2.2 + 1)) w.holds }))

/-- The replication entries of a head in a tile. -/
def State.replEntries (s : State) (p : Pkt) (k head : Nat) : List Nat :=
  match s.instOf p.ctx.stage 12 p.ctx.ver with
  | some i => (range (bitsOf head 95 20) (bitsOf head 83 12)).map (fun n => s.readLoc i k (directLoc 12 n))
  | none => []

/-- Tile k has received a multicast frame: it makes its copies; the ingress cells are freed once every tile has it. -/
def State.takeMulticast (s : State) (k id : Nat) (p : Pkt) : State :=
  let r := s.lookDirect k p.ctx.stage p.ctx.ver 11 p.ctx.nhop
  let head := r.1.getD 0
  let h := r.2.2.sw.nextHold
  let s1 := r.2.2.onSw (fun w => { w with nextHold := w.nextHold + 1, holds := SMap.insert h (k, p.cells, 1) w.holds })
  let es := s1.replEntries p k head
  let s2 := if bitsOf head 83 12 = 0 then s1.bump k p.ctx.stage 0xD5 else es.foldl (fun s e => s.replicate p k h e) s1
  let s3 := (s2.dropHold h).onVoq (p.mcVoq k) (fun l => l.filter (fun j => j != id))
  let left := setBit p.mcLeft k false
  if left = 0 then s3.erasePkt id else s3.onPkt id (fun q => { q with mcLeft := left })

/-- The next multicast frame of a class for tile k: source tiles and lanes in rotation. -/
def State.mcHead (s : State) (k c : Nat) : Option (Nat × Nat) :=
  ((range 1 40).map (fun j => (SMap.get 39 (k * 8 + c) s.sw.mcRot + j) % 40)).findSome? (fun i =>
    ((s.voq (voqKey (i / 5) (400 + k) c (i % 5))).head?.filter (fun id => match s.pkt id with | some p => p.requests | none => false)).map
      (fun id => (i, id)))

/-- MULTICAST_REPLICATION: class 7 first, a frame is taken while the hold of 8,192 cells has room for it; `wait` is what it waits for the
bridge. -/
def execMulticastReplication (k wait : Nat) (s : State) : Out :=
  onUnit (decide (k < 8))
    (match (range 0 8).reverse.findSome? (fun c => (s.mcHead k c).map (fun h => (c, h))) with
     | none => s
     | some (c, i, id) =>
       match s.pkt id with
       | none => s
       | some p =>
         s.when (decide (s.holdUsed k + p.cells ≤ 8192)) (fun s =>
           let far := dieOfTile p.tile != dieOfTile k
           ((s.bumpN k p.ctx.stage 0xD0 (if far then wait else 0)).onSw (fun w => { w with mcRot := SMap.put 39 (k * 8 + c) i w.mcRot })).takeMulticast
             k id p))

/-! ### Re-entry (R283, R284, R338) -/

/-- Is a packet in the far pasture? -/
def State.farAt (s : State) (id : Nat) : Bool := match s.pkt id with | some p => p.phase == .far | none => false

/-- REENTRY_READ: the oldest far frame of a VOQ is read back when the reserve and the VOQ's 64 cells have room; `ue` is the
sub-channel that finds an uncorrectable burst in it. -/
def execReentryRead (key : Nat) (ue : Option Nat) (s : State) : Out :=
  .next (match (s.voq key).find? s.farAt with
  | none => s
  | some id =>
    match s.pkt id with
    | none => s
    | some p =>
      let n := spillBytes p.ctx.len
      s.when (s.spillReadable p.ctx.stage n && decide (s.reentryUsed p.tile + p.cells ≤ 4096) && decide (s.voqReentry key + p.cells ≤ 64) &&
          p.verdict.isSome) (fun s =>
        let s0 := s.spillRead p.ctx.stage n
        let s1 := match ue with | some u => s0.dramUe Fc.dramUe u p.ctx.stage 0 | none => s0
        if ue.isSome || p.damaged then
          (((s1.bump p.tile p.ctx.stage 0xE2).leaveVoqs id).erasePkt id).settleSpill p.ctx.stage key
        else (s1.onPkt id (fun q => { q with phase := .queued, reentered := true })).settleSpill p.ctx.stage key))

/-! ### Dressers (R227–R257) -/

/-- A dresser takes a packet when its load stage is free: it then holds at most one more, in its execute window (R227, R455). -/
def State.dresserFree (s : State) (t d : Nat) : Bool :=
  decide ((s.pktsWhere (fun p => p.phase == .dresser && p.egress == t && p.dresser == d && p.exc == 0)).length < 2) &&
    !s.fault.isolated.any (fun u => match u with | .dresser t2 d2 => t2 == t && d2 == d | _ => false)
/-- The first such dresser after the last assigned. -/
def State.nextDresser (s : State) (t : Nat) : Option Nat :=
  ((range 1 96).map (fun j => (SMap.get 95 t s.sw.lastDresser + j) % 96)).find? (fun d => s.dresserFree t d)

/-- DRESSER_ASSIGN: a packet whose first cell is in staging is assigned to a dresser after waiting `wait` PCLK for one. -/
def execDresserAssign (id wait : Nat) (s : State) : Out :=
  .next (match s.pkt id with
  | none => s
  | some p =>
    match s.nextDresser p.egress with
    | none => s
    | some d =>
      s.when (p.phase == .crossed && decide (0 < p.arrived) && !(p.cut && p.stomp == 0)) (fun s =>
        let t := p.egress
        let e := s.edit p.ctx.stage
        let s1 := ((s.bumpN t p.ctx.stage 0xB8 wait).onSw (fun w => { w with lastDresser := SMap.put 95 t d w.lastDresser })).arr 8 t d
          (4 + e.bankOf (s.isOld p.ctx.stage p.ctx.ver)) 1
        (s1.onEg p.ctx.exit (fun g => { g with outOrder := g.outOrder ++ [id] })).onPkt id (fun q => { q with phase := .dresser, dresser := d })))

/-- The run of a packet's program, with the words of its bank that cannot be read; `ue` is one past a word found uncorrectable now. -/
def State.runProgram (s : State) (p : Pkt) (ue : Nat) : Dr × DrEnd :=
  let e := s.edit p.ctx.stage
  let b := e.bankOf (s.isOld p.ctx.stage p.ctx.ver)
  let base := (p.egress * 2 + b) * 8192
  let i : DrIn := { ctx := p.ctx.bits, nhop := p.ctx.nhop, dmac := p.lk.dmac, smac := p.lk.smac, peerUp := s.peerUp p.ctx.exit, tag := s.peerBits p,
                    bank := b, limit := (e.bank b).maxCycles,
                    bad := (if ue = 0 then [] else [ue - 1]) ++
                      (s.tab.ucodeBad.filter (fun k => decide (base ≤ k) && decide (k < base + 8192))).map (fun k => k - base) }
  Dr.run s e i 1025 (Dr.load p)

/-- An exception ends a program (R244): counted, posted when it is the first in a tile for 1 s, and acted on when the frame is complete. -/
def State.editException (s : State) (id : Nat) (p : Pkt) (cycles code sub : Nat) : State :=
  let o := (s.bump p.egress p.ctx.stage (0xBB + (code - 1))).onset 4 p.egress
  let s1 := if o.1 then o.2.post p.ctx.stage Ev.editExcOnset Lv.tile p.egress (leBytes 1 p.egress ++ leBytes 1 code ++ zeros 2) else o.2
  let s2 := s1.onPkt id (fun q => { q with cycles := cycles, exc := code, excSub := sub })
  match s2.pkt id with
  | some q => if q.launched = q.cells ∨ q.cut then s2.finishExc id q else s2
  | none => s2

/-- n corrected microwords (R250). -/
def State.ucodeCorr (s : State) (p : Pkt) : Nat → State
  | 0 => s
  | n + 1 => ((s.bump p.egress 0 0xC6).report
      (Report.of Fc.sramCe Lv.tile p.egress p.ctx.stage (2 * 1024 + 96 * p.egress + p.dresser) 2 0 0)).ucodeCorr p n

/-- A run's waits, corrected words and cycles are counted. -/
def State.countRun (s : State) (p : Pkt) (wait corr cycles : Nat) : State :=
  let t := p.egress
  let b := (s.edit p.ctx.stage).bankOf (s.isOld p.ctx.stage p.ctx.ver)
  ((((s.ucodeCorr p corr).bumpN t p.ctx.stage 0xB9 wait).bumpN t 0 0x02 cycles).onSw (fun w => { w with
    runOwed := SMap.upd 0 t (fun n => n + cycles) w.runOwed, dressBackOwed := SMap.upd 0 t (fun n => n + wait) w.dressBackOwed })).onTab (fun a => { a with
    bankPkts := SMap.upd 0 ((t * 96 + p.dresser) * 2 + b) (fun n => n + 1) a.bankPkts })

/-- EDIT_PROGRAM: the packet's program runs over its window; it waited `wait` PCLK for bytes not yet received (R234), `corr` words were
corrected, and the word one before `ue` is uncorrectable. -/
def execEditProgram (id wait corr ue : Nat) (s : State) : Out :=
  .next (match s.pkt id with
  | none => s
  | some p =>
    if p.phase != .dresser || p.exc != 0 then s
    else
      let r := s.runProgram p ue
      let s1 := s.countRun p wait corr r.1.cycles
      match r.2 with
      | .exc code sub =>
        let s2 := if code = 6 ∧ ue ≠ 0 then s1.ucodeError p ((s.edit p.ctx.stage).bankOf (s.isOld p.ctx.stage p.ctx.ver)) (ue - 1) else s1
        s2.editException id p r.1.cycles code sub
      | _ =>
        let s2 := if 12 < r.1.cycles then s1.bump p.egress p.ctx.stage 0xBA else s1
        s2.onPkt id (fun q => { q with phase := .edited, out := r.1.win, cycles := r.1.cycles }))

/-! ### Hand-off and transmission (R46, R48, R124, R233, R254, R310, R474, R475) -/

/-- A frame padded with zeros to 60 bytes before its FCS (R233). -/
def padFrame (f : List Byte) : List Byte := f ++ zeros (60 - f.length)
/-- What the output stage hands on: the window, then the received bytes from 256 (R233). -/
def Pkt.outFrame (p : Pkt) : List Byte := p.out ++ (p.frame.take (p.ctx.len - 4)).drop 256

/-- A frame for a recirculation exit re-enters its tile (R36). -/
def State.reenter (s : State) (id : Nat) (p : Pkt) : State :=
  let f := padFrame p.outFrame ++ zeros 4
  s.onPkt id (fun q => { Pkt.zero with
    phase := .fifo, tile := q.ctx.exit - 392, src := 48, frame := f, verdict := some true, passes := q.passes + 1, peer := q.peer,
    tagIns := q.tagIns, lk := q.lk,
    ctx := { q.ctx with
      len := f.length, ct := false, spec := false, unscanned := false, learnProv := false, px := false, pxCode := 0, late := false, mc := false } })

/-- A frame is handed off: its shapers are charged the difference to the bytes stored, and it goes to the MAC or re-enters. -/
def State.handOff (s : State) (id : Nat) (p : Pkt) : State :=
  let x := p.ctx.exit
  let out := if x < 384 then untag (s.lport x).conf p.outFrame else p.outFrame
  let diff : Int := ((out.length + (if s.peerUp x then 8 else 0) : Nat) : Int) - ((p.ctx.len - 4 : Nat) : Int)
  let s1 := ((s.dressSlots p 0).chargeShapers x p.ctx.tc diff).onEg x (fun g => { g with outOrder := g.outOrder.filter (fun j => j != id) })
  let s2 := if p.hold = 0 then s1 else s1.dropHold p.hold
  let s3 := if x < 384 then s2.onPkt id (fun q => { q with phase := .mac, out := out, cycles := 0, hold := 0 }) else s2.reenter id p
  s3.settleQueue x p.ctx.tc

/-- HAND_OFF: the oldest frame of an exit's output order goes to the MAC, or to the recirculation input; the difference to the bytes stored
is charged. -/
def execHandOff (id : Nat) (s : State) : Out :=
  .next (match s.pkt id with
  | none => s
  | some p =>
    s.when (p.phase == .edited && (s.eg p.ctx.exit).outOrder.head? == some id && (decide (p.ctx.exit < 384) || p.arrived == p.cells))
      (fun s => s.handOff id p))

/-- The one-step Sync of R475: the egress timestamp in originTimestamp, and the UDP checksum 0 or corrected. -/
def oneStepSync (f : List Byte) (h : PtpAt) (at_ : Nat × Nat) : List Byte :=
  let o := h.off + 34
  let new := beBytes 6 at_.1 ++ beBytes 4 at_.2
  let g := overwrite f o new
  match h.udp with
  | none => g
  | some u =>
    if !h.v6 then overwrite g (u + 6) [0, 0]
    else
      let from_ := o / 2 * 2
      let delta := deltaOver f g 0 from_ 6
      let hc := be16 f (u + 6)
      let v := 65535 - onesAdd (65535 - hc) (if (u + 6 - from_) % 2 = 1 then delta % 256 * 256 + delta / 256 else delta)
      overwrite g (u + 6) (beBytes 2 (if v = 0 then 65535 else v))

/-- PTP event messages are stamped as they leave (R473–R475): the frame sent, and the state. -/
def State.stampTx (s : State) (l : Nat) (f : List Byte) : List Byte × State :=
  let c := s.ptpPort l
  if !c.enabled then (f, s)
  else match ptpFind f with
    | none => (f, s)
    | some h =>
      let at_ := s.netAt (c.txDelay + ((s.lport l).txFig : Int))
      let one := c.oneStep && byteAt f h.off % 16 == 0 && !bitOf (byteAt f (h.off + 6)) 1 && decide (h.off + 44 ≤ f.length)
      ((if one then oneStepSync f h at_ else f), s.stamp l true (ptpEntry f h true one at_))

/-- The statistics of a transmitted frame (R52, R254, R257). -/
def State.countTx (s : State) (p : Pkt) (frame : List Byte) : State :=
  let x := p.ctx.exit
  let s1 := ((s.statN x 20 frame.length).stat x 21).stat x (22 + destKind frame)
  if p.stomp = 0 then s1
  else
    let s2 := (s1.stat x 26).bump p.egress 0 (0xC2 + p.stomp)
    if p.ctx.inLport < 384 then s2.stat p.ctx.inLport 11 else s2

/-- Conversational learning on a frame that leaves whole (R124). -/
def State.talk (s : State) (p : Pkt) (room : Bool) : State :=
  let o := (p.pr.hdrOff[0]?).getD 0
  let tpid := be16 p.frame (o + 12)
  let vid := if tpid = 0x8100 ∨ tpid = 0x88A8 then be16 p.frame (o + 14) % 4096 else 0
  if p.stomp = 0 ∧ p.ctx.nhop = 0 ∧ p.ctx.inLport < 384 ∧ p.ctx.inLport / 48 ≠ p.egress then
    s.learnTalk p.egress p.ctx.stage p.ctx.ver vid (beNat (sliceB p.frame (o + 6) 6)) p.ctx.inLport room
  else s

/-- A frame whose last bit leaves after its gate has closed (R319). -/
def State.gateOverrun (s : State) (x c k : Nat) : State :=
  if ((s.eg x).segment s.netU).1.testBit c then s
  else
    let o := (s.arr 7 (tileOfExit x) x c 1).onset 8 x
    if o.1 then o.2.post k Ev.gateOverrunOnset Lv.port x (leBytes 2 x ++ leBytes 1 c ++ zeros 1) else o.2

/-- A frame leaves an lport: stamped, tagged for a peer, with its FCS new or, for a stomp, inverted; counted and forgotten. -/
def State.sendFrame (s : State) (id : Nat) (p : Pkt) (room : Bool) : State :=
  let x := p.ctx.exit
  let lost := p.ctx.len - 4 - 256 * p.launched
  let st := s.stampTx x (padFrame (p.out.take (p.out.length - lost)))
  let tagged := if s.peerUp x then st.1.take 12 ++ [0x88, 0xB5] ++ beBytes 6 (s.peerBits p) ++ st.1.drop 12 else st.1
  let frame := tagged ++ (if p.stomp = 0 then fcsOf tagged else (fcsOf tagged).map (fun b => b ^^^ 0xFF))
  let s1 := ((st.2.countTx p frame).talk p room).gateOverrun x p.ctx.tc p.ctx.stage
  (s1.onLport x (fun y => { y with lastTx := frame })).erasePkt id

/-- Has the last byte of a frame left the MAC: every cell launched has arrived, and a frame not stomped is whole with its verdict? -/
def Pkt.leaves (p : Pkt) : Bool :=
  p.phase == .mac && p.arrived == p.launched && (p.launched == p.cells || decide (2 ≤ p.stomp)) && (p.verdict.isSome || p.copy || p.stomp == 2)

/-- TRANSMIT_FRAME: the frame's last byte leaves, its FCS new or, for a stomp, inverted; `room` says that the tile's learning queue has a place. -/
def execTransmitFrame (id : Nat) (room : Bool) (s : State) : Out :=
  .next (match s.pkt id with
  | none => s
  | some p => s.when p.leaves (fun s => s.sendFrame id p room))

/-! ### Flushes and scrubs (R281, R285) -/

/-- LPORT_FLUSH: an lport whose link is not up is flushed in every tile; in probation classes 0–6 are. -/
def execLportFlush (l : Nat) (s : State) : Out :=
  onUnit (decide (l < 384)) (if !(s.lport l).linkUp then s.flushLport l else if (s.lport l).oper = 4 then s.flushClasses l 127 else s)

/-- FLUSH_CELLS_FREED: flushed cells of a stage in a tile return to the free pool. -/
def execFlushCellsFreed (t k : Nat) (s : State) : Out :=
  onUnit (decide (t < 8) && decide (k ≤ 4))
    (s.onSw (fun w => { w with flushing := w.flushing.filter (fun f => !(f.1 == t && f.2.1 == k)) }))

/-- FOLD_SCRUB: the scrub reads free cell `cell` of a tile and finds it good (0), corrects it (1), or finds it uncorrectable (2). -/
def execFoldScrub (t cell found : Nat) (s : State) : Out :=
  onUnit (decide (t < 8) && decide (cell < 262144))
    (if found = 1 then (s.bump t 0 0xE4).report (Report.of Fc.sramCe Lv.tile t 0 (4 * 1024 + t) 4 cell 0)
     else if found = 2 then s.quarantine t cell 0 4 else s)

end Sys2Proof.Machine
end

