-- ==== Sys2Proof/Machine/Faults.lean ====
section
/-! DEFINITION. The fault collector's events and the FAULT and TEST.INJECT commands (R447–R464, R582, R566). -/
namespace Sys2Proof.Machine
open Sys2Proof

/-- FAULT_REPORT (R447): a checker reports. The class must be one of R452. -/
def execFaultReport (cls level unit stage master access address detail : Nat) (s : State) : Out :=
  onUnit (Fc.severity cls).isSome (s.report (Report.of cls level unit stage master access address detail))

/-- FAULT_WINDOW_EXPIRY (R449): every open entry whose window has ended escalates, the oldest first. -/
def execFaultWindowExpiry (s : State) : Out :=
  .next ((s.fault.opened.filter (fun e => match e.windowEnd with | some w => decide (w ≤ s.now) | none => false)).foldl
    (fun x e => x.escalate e) s)

/-- FLT_ACK (R450): service or root firmware writes a SEQ; the entry's window stops, in time before its last SCLK ends. Classes
whose acknowledger is NONE take no acknowledgement (R452). -/
def execFltAck (seq : Nat) (s : State) : Out :=
  .next (match s.fault.opened.find? (fun e => e.record.seq == seq) with
    | some e =>
      if Fc.noAck e.record.cls || (match e.windowEnd with | some w => decide (w ≤ s.now + 660) | none => false) then s
      else s.onFault (fun f => f.ack seq)
    | none => s)

/-- FAULT_REPAIRED (R452, R461): a repair of a class's unit completes or fails, and the record is updated. -/
def execFaultRepaired (cls level unit : Nat) (ok : Bool) (s : State) : Out :=
  .next (match s.recordFor cls level unit with
    | some r => s.repairDone r ok
    | none => s)

/-- PIPE_STALL (R452): a pipe has not returned a sequence number within 4,096 PCLK. -/
def execPipeStall (tile pipe stage : Nat) (s : State) : Out :=
  onUnit (decide (tile < 8) && decide (pipe < 16))
    (s.report (Report.of Fc.pipeStall Lv.tile tile stage (0x01 * 1024 + 16 * tile + pipe) 8 pipe 0))

/-- DRESSER_STALL (R452): a dresser has run no microword for a held packet for 4,096 PCLK. -/
def execDresserStall (tile dresser stage : Nat) (s : State) : Out :=
  onUnit (decide (tile < 8) && decide (dresser < 96))
    (s.report (Report.of Fc.dresserStall Lv.tile tile stage (0x02 * 1024 + 96 * tile + dresser) 8 dresser 0))

/-- QUIET_PERIOD_END (R457): the device returns to the mode that FWD_INTENT, band and temperature permit; RECOVERIES counts it. -/
def execQuietPeriodEnd (s : State) : Out :=
  .next (match s.fault.quietEnd with
    | some e =>
      if e ≤ s.now && s.cmd.mode == Md.safe && !s.cmd.commandedSafe && s.fault.standing.isEmpty then
        (s.onCmd (fun c => { c with recoveries := (c.recoveries + 1) % 2 ^ 32 })).moveMode s.intendedMode 5 0
      else s
    | none => s)

/-- FAULT_N_PULSE_END (R458): the pulse has lasted at least 20 µs; the pin is released, or held under PIN_MODE 1, unless a release
waits. -/
def execFaultNPulseEnd (s : State) : Out :=
  .next (match s.fault.pulseEnd with
    | some e =>
      if e ≤ s.now then
        s.onFault (fun f =>
          if f.pinMode = 1 && !f.releaseWaits then { f with pulseEnd := none, pinHeld := true, releaseWaits := false }
          else { f with pulseEnd := none, pinAsserted := false, pinHeld := false, releaseWaits := false })
      else s
    | none => s)

/-! ### FAULT commands (R464, R582) -/

/-- Does a viewer see a fault of a stage: the owner everything, a side stage its own (R461)? -/
def sees (viewer stage : Nat) : Bool := viewer == 0 || stage == viewer

/-- The record as a viewer sees it: a side stage's own, the owner's copy masked. -/
def viewRecord (viewer : Nat) (r : Option FaultRec) : Option FaultRec :=
  match r with
  | some r => if viewer = 0 then some r.masked else if r.stage = viewer then some r else none
  | none => none

/-- Open entries in ascending SEQ. -/
def insertBySeq (e : OpenFault) : List OpenFault → List OpenFault
  | [] => [e]
  | x :: l => if e.record.seq ≤ x.record.seq then e :: x :: l else x :: insertBySeq e l

def sortBySeq (l : List OpenFault) : List OpenFault := l.foldr insertBySeq []

/-- An open entry: SEQ, CLASS, SEVERITY, the window left in µs. -/
def openBytes (now : Nat) (e : OpenFault) : List Byte :=
  leBytes 2 e.record.seq ++ leBytes 2 e.record.cls ++ leBytes 1 e.sev ++
    leBytes 3 (match e.windowEnd with | some w => (w - now) / tkUs 1 | none => 0)

/-- The classes and counts a viewer sees, ascending (R582). -/
def classPairs (f : FaultSt) (viewer : Nat) : List (Nat × Nat) :=
  if viewer = 0 then f.counts
  else (f.stageCounts.filter (fun e => e.1 % 8 == viewer)).map (fun e => (e.1 / 8, e.2))

def faultStatusRecord (s : State) (viewer : Nat) : List Byte :=
  let os := sortBySeq (s.fault.opened.filter (fun e => sees viewer e.record.stage))
  let ps := classPairs s.fault viewer
  recordBytes (viewRecord viewer s.fault.first) ++ recordBytes (viewRecord viewer s.fault.higher) ++
    recordBytes (viewRecord viewer s.fault.prevFirst) ++ recordBytes (viewRecord viewer s.fault.prevHigher) ++
    leBytes 2 os.length ++ zeros 2 ++ (os.map (openBytes s.now)).flatten ++ leBytes 2 ps.length ++ zeros 2 ++
    (ps.map (fun p => leBytes 2 p.1 ++ leBytes 4 p.2)).flatten

def opFaultStatus : Op := (Op.plain 0x1001 .read .all).withRS.withU
def bodyFaultStatus (m : Msg) (s : State) : Answer :=
  orDeny [(m.plen != 0, St.badLength)] s (doneWith (faultStatusRecord s (s.stageOf m)) s)
def execFaultStatus (m : Msg) (s : State) : Out := commandRow opFaultStatus bodyFaultStatus m s

/-- May the sender acknowledge a fault of a stage: its own; the owner those of S0 and of device resources (R461)? -/
def mayAck (viewer stage : Nat) : Bool := if viewer = 0 then stage == 0 || stage == 7 else stage == viewer

/-- ACK of FAULT.ACK: the status of acknowledging a SEQ, and the collector after it (R450, R464). -/
def ackBySeq (s : State) (viewer seq : Nat) : Nat × State :=
  match s.fault.opened.find? (fun e => e.record.seq == seq) with
  | some e =>
    if !mayAck viewer e.record.stage || Fc.noAck e.record.cls then (St.notPermitted, s)
    else if (match e.windowEnd with | some w => decide (w ≤ s.now + 660) | none => false) then (St.stale, s.escalate e)
    else (St.done, s.onFault (fun f => f.ack seq))
  | none =>
    match SMap.find seq s.fault.closed with
    | some c => if !mayAck viewer c.stage then (St.notPermitted, s) else if c.escalated then (St.stale, s) else (St.done, s)
    | none => (St.notFound, s)

/-- RESTORE (R455): the isolated units of the fault's record return when their self-test passes. -/
def restoreBySeq (s : State) (seq : Nat) : State :=
  match ((s.fault.first.toList ++ s.fault.higher.toList).find? (fun r => r.seq == seq)) with
  | some r =>
    let u := isoUnitOf r
    let s1 := s.onFault (fun f => { f with isolated := f.isolated.filter (fun x => x != u) })
    match u with
    | .thread i => s1.onCtl (fun c => { c with threads := SMap.upd Thread.reset i (fun t => { t with halted := false }) c.threads })
    | .lport l => s1.trainLport l
    | _ => s1
  | none => s

/-- The self-test of a unit a RESTORE asks for: what the unit answers; no answer is a failing test. -/
def selfTestPasses (m : Msg) : Bool := match m.ext with | some (b :: _) => b == 1 | _ => false

def opFaultAck : Op := (Op.plain 0x1002 .stage .all).withU
/-- FAULT.ACK (R464): ACK, CLEAR and RESTORE, in that order; CLEAR and RESTORE are the owner's. -/
def bodyFaultAck (m : Msg) (s : State) : Answer :=
  let seq := m.u16 0
  let act := m.u8 2
  let viewer := s.stageOf m
  orDeny [(m.plen != 4, St.badLength), (decide (7 < act) || !m.zero 3 1, St.badField),
          (!s.isOwner m && (bitOf act 1 || bitOf act 2), St.notPermitted)] s
    (let a := if bitOf act 0 then ackBySeq s viewer seq else (St.done, s)
     if a.1 != St.done then { state := a.2, status := a.1, payload := [], held := false }
     else if bitOf act 2 && !selfTestPasses m then deny St.hwFault s
     else
       let s1 := if bitOf act 2 then restoreBySeq a.2 seq else a.2
       done (if bitOf act 1 then s1.onFault (fun f => { f with first := none, higher := none }) else s1))
def execFaultAck (m : Msg) (s : State) : Out := commandRow opFaultAck bodyFaultAck m s

/-- A FAULT.CONFIG record: class, SEVERITY, INTERRUPT (R464). -/
def cfgClass (r : List Byte) : Nat := bitsOf (leNat r) 0 10
def cfgSeverity (r : List Byte) : Nat := bitsOf (leNat r) 10 3
def cfgInterrupt (r : List Byte) : Bool := bitOf (leNat r) 13

/-- A record in range: the class exists, the severity is not below its default and no more than FATAL, the rest is zero. -/
def faultCfgOk (r : List Byte) : Bool :=
  (match Fc.severity (cfgClass r) with | some d => decide (d ≤ cfgSeverity r) | none => false) &&
    decide (cfgSeverity r ≤ 4) && bitsOf (leNat r) 14 18 == 0

/-- Apply a record: a severity equal to the default restores it. -/
def FaultSt.configure (f : FaultSt) (r : List Byte) : FaultSt :=
  let c := cfgClass r
  { f with
    raised := (if Fc.severity c == some (cfgSeverity r) then SMap.erase c f.raised else SMap.insert c (cfgSeverity r) f.raised),
    interrupt := (if cfgInterrupt r then (if f.interrupt.contains c then f.interrupt else f.interrupt ++ [c])
                  else f.interrupt.filter (fun x => x != c)) }

def opFaultConfig : Op := (Op.plain 0x1003 .owner .ops).withRS
/-- FAULT.CONFIG (R464): records, then a trailer of QUIET_PERIOD, PIN_ON_Q, PIN_MODE and CAPTURE_CE. -/
def bodyFaultConfig (m : Msg) (s : State) : Answer :=
  let n := m.plen - 8
  let rs := recordsOf m.payload 0 4 (n / 4)
  let quiet := m.u32 n
  orDeny [(decide (m.plen < 8) || n % 4 != 0, St.badLength),
          (!rs.all faultCfgOk || decide (quiet < 10) || decide (3600 < quiet) || decide (1 < m.u8 (n + 4)) || decide (1 < m.u8 (n + 5)) ||
            decide (1 < m.u8 (n + 6)) || !m.zero (n + 7) 1, St.badField)] s
    (done (s.onFault (fun f => { (rs.foldl FaultSt.configure f) with
      quietPeriod := quiet, pinOnQ := m.u8 (n + 4) == 1, pinMode := m.u8 (n + 5), captureCe := m.u8 (n + 6) == 1 })))
def execFaultConfig (m : Msg) (s : State) : Out := commandRow opFaultConfig bodyFaultConfig m s

/-- FAULT.PIN (R458, R464): release, at the pulse's end when one runs; or assert and hold. -/
def FaultSt.pinCommand (f : FaultSt) (action : Nat) : FaultSt :=
  if action = 1 then { f with pinAsserted := true, pulseEnd := none, pinHeld := true, releaseWaits := false }
  else if f.pulseEnd.isSome then { f with releaseWaits := true }
  else { f with pinAsserted := false, pinHeld := false }

def opFaultPin : Op := (Op.plain 0x1004 .board .all).withU
def bodyFaultPin (m : Msg) (s : State) : Answer :=
  orDeny [(m.plen != 4, St.badLength), (decide (1 < m.u8 0) || !m.zero 1 3, St.badField)] s
    (done (s.onFault (fun f => f.pinCommand (m.u8 0))))
def execFaultPin (m : Msg) (s : State) : Out := commandRow opFaultPin bodyFaultPin m s

/-! ### Injectors (R463, R566) -/

/-- Checkers that may be named by bits [7:0] of a class (R463), and whether they belong to the control die (TILE 0xFF). -/
def checkerTile (c : Nat) : Option Bool :=
  if c = 0x10 ∨ c = 0x12 ∨ c = 0x13 ∨ c = 0x14 ∨ c = 0x15 ∨ c = 0x16 then some true
  else if c = 0x17 ∨ c = 0x18 ∨ c = 0x03 ∨ c = 0x23 ∨ c = 0x1D ∨ c = 0x01 then some false
  else if c = 0x42 then some true else none

/-- The number of one bits among the low sixteen. -/
def popCount16 (v : Nat) : Nat := ((range 0 16).filter (fun i => v.testBit i)).length

/-- Would a checker accept an injector's configuration (R463)? COUNT at least 1, ON 0–2, SUPPRESS 0 or 1, a checker and a TILE that
fit, a MASK that inverts something, and one bit only for SRAM_CE. -/
def injectorOk (cfg : List Byte) : Bool :=
  let c := fieldLE cfg 1 1
  let t := fieldLE cfg 2 1
  let mask := fieldLE cfg 12 2
  (match checkerTile c with
   | some true => decide (t < 8) || (c == 0x42 && t == 0xFF)
   | some false => t == 0xFF
   | none => false) &&
    fieldLE cfg 3 1 != 0 && decide (fieldLE cfg 14 1 ≤ 2) && decide (fieldLE cfg 15 1 ≤ 1) && mask != 0 &&
    (c != 0x01 || popCount16 mask == 1)

def State.injector (s : State) (i : Nat) : Injector := SMap.get Injector.reset i s.fault.injectors

def State.putInjector (s : State) (i : Nat) (j : Injector) : State :=
  s.onFault (fun f => { f with injectors := SMap.put Injector.reset i j f.injectors })

def opTestInject : Op := Op.plain 0x1603 .test .reh
/-- Arms an injector (R463); BUSY when it is armed already (R566). -/
def bodyTestInject (m : Msg) (s : State) : Answer :=
  let i := m.u8 0
  orDeny [(m.plen != 16, St.badLength), (decide (15 < i) || !injectorOk m.payload, St.badField),
          ((s.injector i).state == 1, St.busy)] s
    (done (s.putInjector i { cfg := m.payload, state := 1, remaining := m.u8 3 }))
def execTestInject (m : Msg) (s : State) : Out := commandRow opTestInject bodyTestInject m s

/-- INJ_CTRL ARM (R566): the configuration in INJ_CFG is checked as TEST.INJECT does; a bad one sets REFUSED. Outside REHEARSAL the
write is ignored. -/
def execInjArm (i : Nat) (s : State) : Out :=
  onUnit (decide (i < 16))
    (let j := s.injector i
     if s.cmd.mode != Md.rehearsal || j.state == 1 then s
     else if injectorOk j.cfg then s.putInjector i { j with state := 1, remaining := fieldLE j.cfg 3 1 }
     else (s.putInjector i { j with state := 3, remaining := 0 }).raiseIrq 95)

/-- The 8-byte payload of TEST_DONE (R463). -/
def testDonePayload (kind outcome unit : Nat) : List Byte := leBytes 1 kind ++ leBytes 1 outcome ++ leBytes 2 unit ++ zeros 4

/-- INJ_CTRL DISARM (R566, R463). -/
def execInjDisarm (i : Nat) (s : State) : Out :=
  onUnit (decide (i < 16))
    (let j := s.injector i
     if s.cmd.mode != Md.rehearsal || j.state != 1 then s
     else (s.putInjector i { j with state := 0, remaining := 0 }).post 0 Ev.testDone Lv.device i (testDonePayload 0 1 i))

/-- The class an injected access reports: SRAM_CE for one inverted check bit of a SECDED memory, otherwise the class that the word
itself reports (R463): DRAM symbols are correctable one at a time, and the link, parity and heartbeat checkers report their own. -/
def injectedClass (checker mask word : Nat) : Nat :=
  if checker = 0x01 then Fc.sramCe
  else if checker = 0x18 then (if popCount16 mask = 1 then Fc.dramCe else word)
  else if checker = 0x03 ∨ checker = 0x42 ∨ checker = 0x23 ∨ checker = 0x1D then checker
  else if popCount16 mask = 1 then Fc.sramCe else word

/-- INJECTOR_CONSUMED (R463): an armed injector corrupts an access of its checker; `word` is the class the corrupted word reports
and the access's stage, master, kind of access and address come with it. The last access consumes the injector: TEST_DONE and
source 95. A word of the staging SRAM is corrected and counted POOL_CORR, or its buffer (log entry 121: the address modulo 65,536 is its key) is
withdrawn (R410). A bridge access costs a retry and the heartbeat checker withholds a beat, so neither reports by itself. -/
def execInjectorConsumed (i word level unit stage master access address : Nat) (s : State) : Out :=
  onUnit (decide (i < 16) && (Fc.severity word).isSome)
    (let j := s.injector i
     if j.state != 1 then s
     else
       let checker := fieldLE j.cfg 1 1
       let cls := injectedClass checker (fieldLE j.cfg 12 2) word
       let rep : Report := { Report.of cls level unit stage master access address 0 with
                             injected := true, suppress := fieldLE j.cfg 15 1 == 1 }
       let s1 := if checker == 0x42 || checker == 0x1D then s else s.report rep
       let s1 := if checker == 0x17 then (if popCount16 (fieldLE j.cfg 12 2) = 1 then s1.bump 8 0 0xBD else s1.withdrawBuffer (address % 65536)) else s1
       let left := j.remaining - 1
       let s2 := s1.putInjector i { j with state := if left = 0 then 2 else 1, remaining := left }
       if left = 0 then (s2.post 0 Ev.testDone Lv.device i (testDonePayload 0 0 i)).raiseIrq 95 else s2)

/-- Injector records of TEST.STATUS: STATE and the accesses remaining (R463). -/
def injectorRecords (s : State) : List Byte :=
  ((range 0 16).map (fun i => leBytes 1 (s.injector i).state ++ leBytes 1 (s.injector i).remaining ++ zeros 2)).flatten

end Sys2Proof.Machine
end

