-- ==== Sys2Proof/Machine/Mailboxes.lean ====
section
/-! DEFINITION. Mailboxes, interrupts, the SMBus path and resets of the host path (chapter 13, R378–R391). -/
namespace Sys2Proof.Machine
open Sys2Proof

/-! ### Areas and registers of a mailbox (R381–R384) -/

/-- BAR0 offset of a mailbox (R381). -/
def mbBase (r : Nat) : Nat := 0x100000 + r * 0x20000

/-- Is a copy of the ordinary or urgent command area in progress (R384)? -/
def Mailbox.cmdBusy (b : Mailbox) (now : Nat) : Bool := decide (now < b.cmdBusyUntil)
def Mailbox.ucmdBusy (b : Mailbox) (now : Nat) : Bool := decide (now < b.ucmdBusyUntil)

/-- MB_STATUS (R383). -/
def mbStatus (b : Mailbox) (now : Nat) : Nat :=
  flagNat b.enabled * 2 ^ 31 + b.intake.length % 32 * 2 ^ 16 + flagNat b.dbReject * 2 ^ 15 + b.rejCause % 8 * 2 ^ 12 +
    flagNat (b.ucmdBusy now) * 16 + flagNat (b.cmdBusy now) * 8 + flagNat (b.evtProd != b.evtCons) * 4 +
    flagNat b.urspValid * 2 + flagNat b.rspValid

/-- A register of a mailbox as a read returns it (R382). -/
def mbRegRead (b : Mailbox) (now off : Nat) : Nat :=
  if off = 0x008 then mbStatus b now
  else if off = 0x00C then b.rspSeq * 65536 + b.rspLen
  else if off = 0x010 then b.urspSeq * 65536 + b.urspLen
  else if off = 0x014 then flagNat b.any * 65536 + b.nextSeq
  else if off = 0x018 then flagNat b.uany * 65536 + b.nextUseq
  else if off = 0x01C then b.evtProd
  else if off = 0x020 then b.evtCons
  else 0

/-- A rejected doorbell (R384, R412). -/
def State.rejectDoorbell (s : State) (r cause : Nat) : State :=
  (s.onMb r (fun b => { b with dbReject := true, rejCause := cause })).bump 8 0 (0x80 + 5 * r + (cause - 1))

/-- The message a doorbell publishes: LEN bytes of the area, with byte 9 the mailbox's stage (R384). -/
def State.copyMessage (s : State) (r area seq len copy : Nat) : InMsg :=
  { seq := seq, len := len, bytes := setAt (Memory.readN s.host.areas (mbBase r + area) len) 9 (BitVec.ofNat 8 (stageOfMb r)),
    visibleAt := s.now + min copy (tkUs 1) }

/-- Why an MB_DOORBELL is rejected, in the order of R384: 1 DISABLED, 2 LEN, 3 SEQ, 4 FULL. -/
def doorbellRefusal (b : Mailbox) (seq len : Nat) : Option Nat :=
  if !b.enabled then some 1
  else if len < 16 || 16384 < len then some 2
  else if !b.any && seq != b.nextSeq then some 3
  else if 16 ≤ b.intake.length || 65536 < b.intake.foldl (fun a m => a + m.len) 0 + len then some 4
  else none

/-- A write of MB_DOORBELL (R384). -/
def State.ringDoorbell (s : State) (r value copy : Nat) : State :=
  let seq := value / 65536 % 65536
  let len := value % 65536
  match doorbellRefusal (s.mb r) seq len with
  | some c => s.rejectDoorbell r c
  | none =>
    let msg := s.copyMessage r 0 seq len copy
    s.onMb r (fun b => { b with
      intake := b.intake ++ [msg], any := false, nextSeq := (seq + 1) % 65536, cmdBusyUntil := msg.visibleAt })

/-- Why an MB_UDOORBELL is rejected (R384, R388): URGENT_BUSY takes the place of FULL. -/
def udoorbellRefusal (b : Mailbox) (seq len : Nat) : Option Nat :=
  if !b.enabled then some 1
  else if len < 16 || 4096 < len then some 2
  else if !b.uany && seq != b.nextUseq then some 3
  else if b.urgBusy then some 5
  else none

/-- A write of MB_UDOORBELL (R384, R388). -/
def State.ringUdoorbell (s : State) (r value copy : Nat) : State :=
  let seq := value / 65536 % 65536
  let len := value % 65536
  match udoorbellRefusal (s.mb r) seq len with
  | some c => s.rejectDoorbell r c
  | none =>
    let msg := s.copyMessage r 0x10000 seq len copy
    s.onMb r (fun b => { b with
      urgIntake := some msg, urgBusy := true, uany := false, nextUseq := (seq + 1) % 65536, ucmdBusyUntil := msg.visibleAt })

/-- A host write of one byte of an area (R381, R384): the two command areas take it unless they are being copied. -/
def State.writeArea (s : State) (r off : Nat) (v : Byte) : State :=
  let b := s.mb r
  let keep := s.onHost (fun h => { h with areas := Memory.write h.areas (mbBase r + off) v })
  if off < 0x4000 then (if b.cmdBusy s.now then s.bump 8 0 (0xA8 + r) else keep)
  else if 0x10000 ≤ off && off < 0x11000 then (if b.ucmdBusy s.now then s.bump 8 0 (0xA8 + r) else keep)
  else s

/-- A host write of a whole register of a mailbox (R382, R383). -/
def State.writeMbReg (s : State) (r off v copy : Nat) : State :=
  if off = 0x000 then s.ringDoorbell r v copy
  else if off = 0x004 then s.ringUdoorbell r v copy
  else if off = 0x008 then s.onMb r (fun b => { b with
    dbReject := b.dbReject && !bitOf v 15, urspValid := b.urspValid && !bitOf v 1, rspValid := b.rspValid && !bitOf v 0 })
  else if off = 0x020 then s.onMb r (fun b => { b with evtCons := v % 512 })
  else s

/-- A host write of bytes within a mailbox's 128 KiB: areas byte by byte; a register only when a whole DWORD is covered (R546). -/
def State.writeMbBytes (s : State) (r : Nat) : Nat → List Byte → Nat → State
  | _, [], _ => s
  | off, b :: bs, copy =>
    let s1 :=
      if off < 0x1F000 then s.writeArea r off b
      else if off % 4 = 0 && decide (3 ≤ bs.length) then s.writeMbReg r (off - 0x1F000) (leNat (b :: bs.take 3)) copy
      else s
    s1.writeMbBytes r ((off + 1) % 131072) bs copy

/-- A host read of one byte within a mailbox's 128 KiB; the reserved 52 KiB read zero (R381, R547). -/
def State.readMbByte (s : State) (r off : Nat) : Byte :=
  if 0x12000 ≤ off ∧ off < 0x1F000 then 0
  else if off < 0x1F000 then Memory.read s.host.areas (mbBase r + off)
  else BitVec.ofNat 8 (mbRegRead (s.mb r) s.now ((off - 0x1F000) / 4 * 4) / 2 ^ (8 * (off % 4)))

/-! ### Events of the mailboxes -/

/-- MB_DOORBELL (R384); `copy` is how long the copy takes, at most 1 µs. -/
def execMbDoorbell (r value copy : Nat) (s : State) : Out := onUnit (decide (r < 8)) (s.ringDoorbell r value copy)
/-- MB_UDOORBELL (R388). -/
def execMbUdoorbell (r value copy : Nat) (s : State) : Out := onUnit (decide (r < 8)) (s.ringUdoorbell r value copy)
/-- RSP_VALID_WRITE: writing 1 frees the response area (R383, R386). -/
def execRspValidWrite (r : Nat) (s : State) : Out := onUnit (decide (r < 8)) (s.onMb r (fun b => { b with rspValid := false }))
/-- URSP_VALID_WRITE (R383). -/
def execUrspValidWrite (r : Nat) (s : State) : Out := onUnit (decide (r < 8)) (s.onMb r (fun b => { b with urspValid := false }))
/-- MB_EVT_CONS_WRITE (R382, R389). -/
def execMbEvtConsWrite (r value : Nat) (s : State) : Out :=
  onUnit (decide (r < 8)) (s.onMb r (fun b => { b with evtCons := value % 512 }))

/-- A response as bytes (R386): the header, with FLAGS bit 5 when STATUS is ACCEPTED, and the payload. `crc` is over bytes 0–13 and
the payload with bytes 9, 12 and 13 taken as zero (R385). -/
def messageCrc (h : List Byte) (pay : List Byte) : Nat :=
  crc16 (setAt (setAt (setAt (h.take 14) 9 0) 12 0) 13 0 ++ pay)

def Rsp.bytes (r : Rsp) (urgent : Bool) : List Byte :=
  let flags := (if urgent then 128 else 0) + (if r.status = St.accepted then 32 else 0)
  let h := leBytes 2 r.opcode ++ leBytes 2 r.payload.length ++ leBytes 4 r.tag ++ leBytes 1 flags ++ leBytes 1 r.stage ++
    leBytes 2 r.seq ++ leBytes 2 r.status
  h ++ leBytes 2 (messageCrc h r.payload) ++ r.payload

/-- The reset a SYS.RESET scheduled begins 1 ms after its response doorbell (R430). -/
def State.startResetClock (s : State) (r : Nat) (x : Rsp) : State :=
  if x.opcode = 0x0107 ∧ x.status = St.done then
    s.onCmd (fun c => { c with resetPlan := c.resetPlan.map (fun p =>
      if p.sender = r ∧ p.due.isNone then { p with due := some (s.now + tkMs 1) } else p) })
  else s

/-- The journal notes that a response was delivered. -/
def State.noteDelivered (s : State) (r : Nat) (urgent : Bool) (x : Rsp) : State :=
  s.onCtl (fun c => { c with journal := c.journal.map (fun j =>
    if j.mb = r ∧ j.urgent = urgent ∧ j.ring.isNone ∧ j.seq = x.seq ∧ j.tag = x.tag ∧ j.complete.isSome then { j with delivered := true } else j) })

/-- RESPONSE_DELIVERY (R386): the next response of a lane goes into its area once that is free. -/
def State.deliver (s : State) (r : Nat) (urgent : Bool) : State :=
  let b := s.mb r
  if urgent then
    match b.uresponses with
    | x :: rest =>
      if b.urspValid then s
      else
        let s1 := s.onHost (fun h => { h with areas := Memory.writeN h.areas (mbBase r + 0x11000) (x.bytes true) })
        let s2 := s1.onMb r (fun b => { b with
          uresponses := rest, urspSeq := x.seq, urspLen := 16 + x.payload.length, urspValid := true, urgBusy := false })
        ((s2.raiseIrq (72 + r)).startResetClock r x).noteDelivered r true x
    | [] => s
  else
    match b.responses with
    | x :: rest =>
      if b.rspValid then s
      else
        let s1 := s.onHost (fun h => { h with areas := Memory.writeN h.areas (mbBase r + 0x4000) (x.bytes false) })
        let s2 := s1.onMb r (fun b => { b with responses := rest, rspSeq := x.seq, rspLen := 16 + x.payload.length, rspValid := true })
        ((s2.raiseIrq (64 + r)).startResetClock r x).noteDelivered r false x
    | [] => s
def execResponseDelivery (r : Nat) (urgent : Bool) (s : State) : Out := onUnit (decide (r < 8)) (s.deliver r urgent)

/-- Is the event area full: 511 unread records (R389)? -/
def Mailbox.evtFull (b : Mailbox) : Bool := decide (511 ≤ subMod b.evtProd b.evtCons 512)

/-- Write one record at MB_EVT_PROD and advance it (R389). -/
def State.writeEvent (s : State) (r : Nat) (e : EvRec) : State :=
  let b := s.mb r
  let s1 := s.onHost (fun h => { h with areas := Memory.writeN h.areas (mbBase r + 0x8000 + 64 * b.evtProd) (e.bytes b.evSeq) })
  (s1.onMb r (fun b => { b with evtProd := (b.evtProd + 1) % 512, evSeq := (b.evSeq + 1) % 65536 })).raiseIrq (80 + r)

/-- The EVENTS_LOST record (R389). -/
def lostRecord (s : State) (n : Nat) : EvRec :=
  { code := Ev.eventsLost, level := Lv.device, unit := 0, time := s.localNs, tag := 0, status := 0,
    payload := leBytes 4 (satNat n 0xFFFFFFFF), completion := false }

/-- EVENT_POST (R389, R419): with room, the count of the events dropped is written first, then the oldest event; without, the oldest
event that completes no command is dropped and counted, and completions are held. -/
def State.eventStep (s : State) (r : Nat) : State :=
  let b := s.mb r
  if b.evtFull then
    match b.posted.find? (fun e => !e.completion) with
    | some e => (s.onMb r (fun b => { b with posted := b.posted.erase e, dropped := b.dropped + 1 })).bump 8 0 (0xB0 + r)
    | none => s
  else if 0 < b.dropped then (s.writeEvent r (lostRecord s b.dropped)).onMb r (fun b => { b with dropped := 0 })
  else match b.posted with
    | e :: rest => (s.writeEvent r e).onMb r (fun b => { b with posted := rest })
    | [] => s
def execEventPost (r : Nat) (s : State) : Out := onUnit (decide (r < 8)) (s.eventStep r)

/-- IRQ_HOLDOFF_EXPIRY (R380): HOLDOFF after the first cause not yet signalled, the vector fires. -/
def execIrqHoldoffExpiry (v : Nat) (s : State) : Out :=
  let x := SMap.get IrqVec.reset v s.host.vecs
  onUnit (decide (v < 64)) (s.when (match x.firstAt with | some t => decide (t + tkUs x.holdoff ≤ s.now) | none => false)
    (fun s => s.onHost (fun h => { h with vecs := SMap.put IrqVec.reset v x.fire h.vecs })))

/-! ### The SMBus path to MB5 (R390, R578) -/

/-- Command 0x10: the offset within MB5's 128 KiB; a wrong PEC is NACKed and has no effect. -/
def execSmbusSetOffset (offset : Nat) (pecOk : Bool) (s : State) : Out :=
  .next (s.when pecOk (fun s => s.onHost (fun h => { h with smbOffset := offset % 131072 })))
/-- Command 0x11: a block write of 1–32 bytes at the offset, which it advances. -/
def execSmbusBlockWrite (data : List Byte) (pecOk : Bool) (copy : Nat) (s : State) : Out :=
  .next (s.when (pecOk && decide (1 ≤ data.length) && decide (data.length ≤ 32)) (fun s =>
    (s.writeMbBytes 5 s.host.smbOffset data copy).onHost (fun h => { h with smbOffset := (h.smbOffset + data.length) % 131072 })))
/-- Command 0x12: a block read of 1–32 bytes at the offset, which it advances. -/
def execSmbusBlockRead (n : Nat) (pecOk : Bool) (s : State) : Out :=
  .next (s.when (pecOk && decide (1 ≤ n) && decide (n ≤ 32)) (fun s =>
    s.onHost (fun h => { h with
      smbRead := (range 0 n).map (fun i => s.readMbByte 5 ((h.smbOffset + i) % 131072)),
      smbOffset := (h.smbOffset + n) % 131072 })))
/-- SMBUS_TIMEOUT (R578): after SCL has been low for 25–35 ms the target releases the bus; the transfer in progress has no effect,
since a block takes effect only once its PEC is checked. -/
def execSmbusTimeout (s : State) : Out := .next (s.onHost (fun h => { h with smbHeld := false }))

/-! ### Resets of the host path (R379, R551) -/

/-- PERST_N: its falling edge resets the host path; while it is low the path stays in reset (R577). -/
def execPerstN (low : Bool) (s : State) : Out :=
  .next (if low then (s.hostPathReset true).onHost (fun h => { h with perstLow := true }) else s.onHost (fun h => { h with perstLow := false }))
/-- FUNCTION_LEVEL_RESET. -/
def execFunctionLevelReset (s : State) : Out := .next (s.hostPathReset true)
/-- HOST_LINK_LOSS: the rings and mailboxes reset as R379 says; R551 does not name the link's loss for the other registers. -/
def execHostLinkLoss (s : State) : Out := .next (s.hostPathReset false)
/-- HOST_LINK_RESET: the link is up again after a reset of the host path; it is posted to MB0 and recorded as a fault. -/
def execHostLinkReset (s : State) : Out :=
  .next (if s.host.perstLow || s.host.linkUp then s
    else
      let s1 := s.onHost (fun h => { h with linkUp := true, resetUnreported := false })
      if s.host.resetUnreported then
        (s1.post 0 Ev.hostLinkReset Lv.device 0 []).report (Report.of Fc.hostLinkReset Lv.device 0 7 0 0 0 0)
      else s1)

end Sys2Proof.Machine
end

