-- ==== Sys2Proof/Machine/Records.lean ====
section
/-! DEFINITION. The prompt book and the ledger (R477–R493): the RECORD and LIFE groups and their events. -/
namespace Sys2Proof.Machine
open Sys2Proof

/-! ### Journal and snapshot records (R481, R482) -/

/-- Bytes waiting for JOURNAL records: held up to the recorder's pool cap (R482). -/
def RecordSt.waitingBytes (b : RecordSt) : Nat := b.toJournal.foldl (fun a e => a + 32 + e.2.length) 0

/-- JOURNAL_RECORD_WRITE: the oldest event or fault record waiting is written. While no drive takes it, it is held up to the
recorder's cap and then lost, counted JOURNAL_LOST. -/
def State.journalStep (s : State) : State :=
  match s.book.toJournal with
  | [] => s
  | e :: rest =>
    match s.writeRecord e.1 1 0 e.2 with
    | some s1 => s1.onBook (fun b => { b with toJournal := rest })
    | none =>
      if 1024 * (s.host.pools.limitsOf 72).capKiB < s.book.waitingBytes then
        (s.onBook (fun b => { b with toJournal := rest })).loseRecord e.1 1 0xC5
      else s
def execJournalRecordWrite (s : State) : Out := .next s.journalStep

/-- The content of a SNAPSHOT record (R481): the stage's event counters, and the snapshot view of its lports, 8 bytes each, from the
newest bank. -/
def snapshotBody (s : State) (k : Nat) : List Byte :=
  let bank := if s.count.newest = some 1 then s.count.bank1 else s.count.bank0
  leBytes 4 bank.id ++ leBytes 8 bank.time ++
    ((range 0 9).map (fun t => ((range 0 256).map (fun e => leBytes 8 (SMap.get 0 (evtKey t k e) bank.events))).flatten)).flatten ++
    ((portsOf (s.stagePorts k)).map (fun p => ((lportsOf p).map (fun l =>
      leBytes 2 l ++ ((range 0 48).map (fun i => leBytes 8 (SMap.get 0 (l * 64 + i) bank.stats))).flatten)).flatten)).flatten

/-- SNAP_INTERVAL_RECORD: at SNAP_INTERVAL each stage gets a SNAPSHOT record, or a counted RECORD_DROP. -/
def execSnapIntervalRecord (s : State) : Out :=
  .next (s.when (s.book.snapInterval != 0 && decide (s.book.lastSnap + tkS s.book.snapInterval ≤ s.now)) (fun s =>
    forEach s.liveStages (fun k s => (s.writeRecord k 2 0 (snapshotBody s k)).getD (s.loseRecord k 2 0xC1))
      (s.onBook (fun b => { b with lastSnap := s.now }))))

/-! ### Captures and flows (R483–R485) -/

/-- CAPTURE_TRIGGERED: an event of the stage whose code is among the session's TRIGGER codes. -/
def execCaptureTriggered (k j code : Nat) (s : State) : Out :=
  onUnit (decide (k < 5) && decide (j < 4)) (s.when ((s.capSession k j).configured && (s.capSession k j).triggers.contains code && code != 0)
    (fun s => s.triggerCapture k j 1))

/-- CAPTURE_POST_END: POST bytes were taken, POST_TIME has passed, or the share is suspended (the capture is cut, R482). -/
def execCapturePostEnd (k j : Nat) (s : State) : Out :=
  let c := s.capSession k j
  let cut := s.shareSuspended 4 k
  onUnit (decide (k < 5) && decide (j < 4)) (s.when (c.state == 2 &&
      (decide (c.post ≤ framesBytes c.after) || decide (c.triggeredAt + tkMs c.postTime ≤ s.now) || cut))
    (fun s => s.onCapture k j (fun c => { c with state := 3, truncated := cut })))

/-- CAPTURE_DONE: the capture is written; the session rearms or goes idle, and CAPTURE_DONE gives session, frames before and after
the trigger, first RSEQ and FLAGS. A capture the drives do not accept waits in WRITING (R482). `ue`: the sub-channel that finds an uncorrectable burst in it. -/
def execCaptureDone (k j : Nat) (ue : Option Nat) (s : State) : Out :=
  let c := s.capSession k j
  let flags := flagNat (ue.isSome || c.damaged) + 2 * flagNat c.truncated
  onUnit (decide (k < 5) && decide (j < 4)) (s.when (c.state == 3) (fun s =>
    let s := match ue with | some u => s.dramUe Fc.dramUe u k 0 | none => s
    match s.writeRecord k 3 flags (captureBody (c.before ++ c.after)) with
    | none => s
    | some s1 =>
      (s1.onCapture k j (fun c => { c with state := (if c.rearm then 1 else 0), before := [], after := [], truncated := false, damaged := false })).post k
        Ev.captureDone Lv.device j (leBytes 1 j ++ zeros 3 ++ leBytes 4 c.before.length ++ leBytes 4 c.after.length ++
          leBytes 4 (s.bookRing k 3).next ++ leBytes 2 flags ++ zeros 2)))

/-- FLOW_EXPORT: the i-th flow of a session is exported at its idle or active timeout; a damaged entry is skipped and counted. -/
def execFlowExport (k j i : Nat) (ue : Option Nat) (s : State) : Out :=
  let c := s.flowSession k j
  onUnit (decide (k < 5) && decide (j < 2)) (match c.entries[i]? with
    | none => s
    | some e =>
      match ue with
      | some u => ((s.onFlow k j (fun c => { c with entries := c.entries.erase e })).bump 8 k (0xCC + j)).dramUe Fc.dramUe u k 0
      | none =>
      if e.lastT + 1000000000 * c.idle ≤ s.netLinear then s.exportFlow k j e 0
      else if e.startedAt + 1000000000 * c.active ≤ s.netLinear then s.exportFlow k j e 1
      else s)

/-! ### Drives (R477–R479) -/

/-- What an IDENTITY_SEEN record says (R488): kind (0 module, 1 DIMM, 2 drive), place, serial, hours seen. -/
def identitySeen (kind unit serial hours : Nat) : List Byte := leBytes 1 kind ++ leBytes 2 unit ++ leBytes 8 serial ++ leBytes 4 hours

/-- DRIVE_ADDED: an inserted drive is identified; with this device's label it rejoins with its extents. -/
def execDriveAdded (i label pct extents serial : Nat) (critical : Bool) (s : State) : Out :=
  onUnit (decide (i < 4)) (
    let seen := s.book.ledger.any (fun r => r.type == 4 && r.body.take 11 == (identitySeen 2 i serial 0).take 11)
    let s1 := s.onBook (fun b => { b with
      drives := SMap.insert i { present := true, label := label, pct := pct, critical := critical, quiesced := false, extents := extents,
                                serial := serial } b.drives })
    let s2 := if seen then s1 else s1.ledgerWrite 4 (identitySeen 2 i serial 0)
    s2.post 0 Ev.driveAdded Lv.device i (leBytes 1 i ++ leBytes 1 label ++ zeros 2))

/-- The extents of a removed drive are lost with their records, and the next record of each ring concerned carries GAP. -/
def BookRing.loseDrive (g : BookRing) (d : Nat) : BookRing :=
  let gone := (g.exts.filter (fun e => e.drive == d)).map (fun e => e.serial)
  if gone.isEmpty then g
  else { g with exts := g.exts.filter (fun e => e.drive != d), recs := g.recs.filter (fun r => !gone.contains r.ext), gap := true }

/-- DRIVE_REMOVED. -/
def execDriveRemoved (i : Nat) (s : State) : Out :=
  let d := SMap.get Drive.none i s.book.drives
  onUnit (decide (i < 4)) (s.when d.present (fun s =>
    ((s.onBook (fun b => { b with
      drives := SMap.erase i b.drives, rings := SMap.mapD BookRing.reset (fun _ g => g.loseDrive i) b.rings })).ledgerWrite 4
        (identitySeen 2 i d.serial 0)).post 0 Ev.driveRemoved Lv.device i (leBytes 1 i ++ zeros 3)))

/-- SMART_READ: hourly, the drive's Percentage Used and critical warning. -/
def execSmartRead (i pct : Nat) (critical : Bool) (s : State) : Out :=
  onUnit (decide (i < 4)) (s.onBook (fun b => { b with
    drives := SMap.adjust i (fun d => { d with pct := pct, critical := critical }) b.drives }))

/-! ### The ledger (R487–R490) -/

/-- A CHECKPOINT's content (R488): powered seconds per mode, what the sensors have accumulated (`measured`: energy per rail, thermal
cycles and Tj histograms per die), counts per fault class, RECOVERIES and takeovers. -/
def checkpointBody (s : State) (measured : List Byte) : List Byte :=
  ((range 0 8).map (fun m => leBytes 8 (SMap.get 0 m s.book.poweredSecs))).flatten ++ measured ++
    (s.fault.lifeReal.map (fun e => leBytes 2 e.1 ++ leBytes 8 e.2)).flatten ++
    (s.fault.lifeInjected.map (fun e => leBytes 2 e.1 ++ leBytes 8 e.2)).flatten ++ leBytes 4 s.cmd.recoveries ++ leBytes 4 s.book.takeovers

/-- LEDGER_CHECKPOINT: every 10 min; `energy` is the total energy so far. -/
def execLedgerCheckpoint (measured : List Byte) (energy : Nat) (s : State) : Out :=
  .next (s.when (decide (s.book.checkpointAt + tkS 600 ≤ s.now)) (fun s =>
    let s1 := (s.accountSeconds).onBook (fun b => { b with checkpointAt := s.now, energy := energy })
    s1.ledgerWrite 1 (checkpointBody s1 measured)))

/-- LANE_TREND: daily, the eye codes and corrected symbol ratio of each lane. -/
def execLaneTrend (trend : List Byte) (s : State) : Out :=
  .next (s.when (decide (s.book.trendAt + tkS 86400 ≤ s.now)) (fun s =>
    (s.onBook (fun b => { b with trendAt := s.now })).ledgerWrite 2 trend))

/-- DRAM_ECS: daily, the error-check-and-scrub counts of each rank. -/
def execDramEcs (counts : List Byte) (s : State) : Out :=
  .next (s.when (decide (s.book.ecsAt + tkS 86400 ≤ s.now)) (fun s =>
    (s.onBook (fun b => { b with ecsAt := s.now })).ledgerWrite 7 counts))

/-- The month number of a day count since 1970-01-01, by the proleptic Gregorian calendar. -/
def monthOfDays (days : Nat) : Nat :=
  let z := days + 719468
  let era := z / 146097
  let doe := z % 146097
  let yoe := (doe - doe / 1460 + doe / 36524 - doe / 146096) / 365
  let doy := doe - (365 * yoe + yoe / 4 - yoe / 100)
  let mp := (5 * doy + 2) / 153
  (yoe + era * 400) * 12 + mp

/-- A record still live at compaction (R489): the newest CHECKPOINT, types 0x03–0x07, the LANE_TRENDs of the last year and the first of
each month before it. -/
def recordLive (all : List LedgerRec) (now : Nat) (r : LedgerRec) : Bool :=
  if r.type = 1 then (all.filter (fun x => x.type == 1)).getLast? == some r
  else if r.type = 2 then
    decide (now < r.calendar + 365 * 86400) ||
      (all.find? (fun x => x.type == 2 && monthOfDays (x.calendar / 86400) == monthOfDays (r.calendar / 86400))) == some r
  else true

/-- Sectors from the head up to the tail. -/
def RecordSt.gapSectors (b : RecordSt) : Nat := subMod (b.tail - 512) (b.head / 4096) 15872

/-- LEDGER_WEAR (R489, R493): the highest erase count and the retired sectors. -/
def State.postWear (s : State) : State :=
  s.post 0 Ev.ledgerWear Lv.device 0
    (leBytes 4 (s.book.erases.foldl (fun a e => max a e.2) 0) ++ leBytes 4 s.book.retiredSectors.length)

/-- The 1,024 sectors at the tail are compacted: their live records rewritten at the head, the sectors erased or, where that fails, retired. -/
def State.compactLedger (s : State) (failed : List Nat) : State :=
  let b := s.book
  let secs := (range 0 1024).map (fun i => 512 + (b.tail - 512 + i) % 15872)
  let live := (b.ledger.filter (fun r => secs.contains r.sector)).filter (recordLive b.ledger s.calSeconds)
  let s1 := s.onBook (fun b => { b with
    ledger := b.ledger.filter (fun r => !secs.contains r.sector), tail := 512 + (b.tail - 512 + 1024) % 15872,
    erases := (secs.filter (fun x => !failed.contains x)).foldl (fun e x => SMap.upd 0 x (fun v => v + 1) e) b.erases,
    retiredSectors := b.retiredSectors ++ (secs.filter (fun x => failed.contains x && !b.retiredSectors.contains x)) })
  let s2 := live.foldl (fun s r => s.ledgerWrite r.type r.body) s1
  let worn := decide (50000 ≤ s2.book.erases.foldl (fun a e => max a e.2) 0)
  if (worn && !b.wearPosted) || s2.book.retiredSectors.length != b.retiredSectors.length then
    (s2.onBook (fun b => { b with wearPosted := b.wearPosted || worn })).postWear
  else s2

/-- LEDGER_COMPACTION: when the head comes within 1,024 sectors of the tail, the live records of those sectors are rewritten at the
head and the sectors erased; `failed` are those that fail to erase. -/
def execLedgerCompaction (failed : List Nat) (s : State) : Out :=
  .next (s.when (s.book.gapSectors != 0 && decide (s.book.gapSectors ≤ 1024)) (fun s => s.compactLedger failed))

/-- The bytes of a log record (R487). -/
def LedgerRec.bytes (r : LedgerRec) : List Byte :=
  let h := leBytes 2 r.type ++ leBytes 2 r.body.length ++ leBytes 4 r.lseq ++ leBytes 6 r.calendar ++ zeros 2 ++ r.body
  h ++ leBytes 4 (crc32c h)

/-- A backup of the ledger into S0's LEDGER ring (R490): its status, and LEDGER_BACKUP with the first RSEQ. -/
def State.backup (s : State) (k : State → Nat → List Byte → State) : State :=
  let first := (s.bookRing 0 5).next
  let body := (s.book.ledger.map LedgerRec.bytes).flatten
  let status := if s.book.drives.any (fun e => e.2.writable) then
      (match s.writeRecord 0 5 0 body with | some _ => St.done | none => St.noSpace)
    else St.notFound
  let s1 := if status = St.done then (s.writeRecord 0 5 0 body).getD s else s
  let s2 := s1.onBook (fun b => { b with lastBackup := some (s.calSeconds, status), backupAt := s.now })
  k s2 status (leBytes 4 first ++ leBytes 2 status ++ zeros 2)

/-- LEDGER_BACKUP: every 24 h, and when a LIFE.BACKUP waits for it; the event completes the command. -/
def execLedgerBackup (s : State) : Out :=
  .next (if (s.findOut 0 0x1203).isSome then
      s.backup (fun s st pay => s.finish 0 0x1203 Ev.ledgerBackup Lv.device 0 st pay)
    else if s.book.backupAt + tkS 86400 ≤ s.now then s.backup (fun s _ pay => s.post 0 Ev.ledgerBackup Lv.device 0 pay)
    else s)

/-! ### RECORD commands (R486) -/

/-- Sub-records of RECORD.CONFIG are 40 bytes (log entry 21): TYPE in byte 0: 0 ring, 1 capture, 2 flow, 3 SNAP_INTERVAL. -/
def recordSubOk (r : List Byte) (owner : Bool) : Bool :=
  let t := fieldLE r 0 1
  if t = 0 then decide (1 ≤ fieldLE r 1 1) && decide (fieldLE r 1 1 ≤ (if owner then 5 else 4)) && zeroAt r 2 2 && zeroAt r 12 28 &&
    decide (1 ≤ fieldLE r 4 4)
  else if t = 1 then
    decide (fieldLE r 1 1 < 4) && decide (fieldLE r 2 1 < 8) && decide (fieldLE r 3 1 < 2) && decide (64 ≤ fieldLE r 4 2) &&
      decide (fieldLE r 4 2 ≤ 16000) && zeroAt r 6 2 && decide (fieldLE r 16 4 ≤ 60000) && zeroAt r 28 12
  else if t = 2 then
    decide (fieldLE r 1 1 < 2) && decide (fieldLE r 2 1 < 8) && decide (fieldLE r 3 1 < 2) &&
      decide (fieldLE r 5 1 + fieldLE r 7 1 + fieldLE r 9 1 + fieldLE r 11 1 ≤ 40) && decide (1 ≤ fieldLE r 12 2) &&
      decide (fieldLE r 12 2 ≤ 600) && decide (1 ≤ fieldLE r 14 2) && decide (fieldLE r 14 2 ≤ 3600) && zeroAt r 16 24
  else if t = 3 then zeroAt r 1 3 && decide (fieldLE r 4 4 ≤ 86400) && zeroAt r 8 32
  else false

/-- Apply one sub-record. A capture session configured is ARMED; a flow session that is replaced exports its flows first. -/
def State.recordSub (s : State) (k : Nat) (r : List Byte) : State :=
  let t := fieldLE r 0 1
  let j := fieldLE r 1 1
  if t = 0 then s.onBookRing k j (fun g => { g with limit := fieldLE r 4 4, retainHint := fieldLE r 8 4 })
  else if t = 1 then s.onCapture k j (fun _ => { Capture.reset with
    configured := true, state := 1, hostq := fieldLE r 2 1, rearm := fieldLE r 3 1 == 1, snapLen := fieldLE r 4 2, pre := fieldLE r 8 4,
    post := fieldLE r 12 4, postTime := fieldLE r 16 4,
    triggers := [fieldLE r 20 2, fieldLE r 22 2, fieldLE r 24 2, fieldLE r 26 2] })
  else if t = 2 then
    let s1 := (s.flowSession k j).entries.foldl (fun s e => s.exportFlow k j e 2) s
    s1.onFlow k j (fun _ => { FlowSession.reset with
      configured := true, hostq := fieldLE r 2 1, keyLport := fieldLE r 3 1 == 1,
      fields := [(fieldLE r 4 1, fieldLE r 5 1), (fieldLE r 6 1, fieldLE r 7 1), (fieldLE r 8 1, fieldLE r 9 1), (fieldLE r 10 1, fieldLE r 11 1)],
      idle := fieldLE r 12 2, active := fieldLE r 14 2 })
  else s.onBook (fun b => { b with snapInterval := fieldLE r 4 4, lastSnap := s.now })

/-- Bytes the sessions of a stage would keep after a configuration. -/
def captureNeed (s : State) (k : Nat) (recs : List (List Byte)) : Nat :=
  let set := recs.filter (fun r => fieldLE r 0 1 == 1)
  sumOver (range 0 4) (fun j =>
    match set.reverse.find? (fun r => fieldLE r 1 1 == j) with
    | some r => fieldLE r 8 4 + fieldLE r 12 4
    | none => (s.capSession k j).pre + (s.capSession k j).post)

def opRecordConfig : Op := (Op.plain 0x1101 .stage .ops).withRS
def bodyRecordConfig (m : Msg) (s : State) : Answer :=
  let k := s.stageOf m
  let recs := m.records 0 40
  orDeny [(m.plen == 0 || m.plen % 40 != 0, St.badLength), (!recs.all (fun r => recordSubOk r (k == 0)), St.badField),
          (recs.any (fun r => fieldLE r 0 1 == 3) && k != 0, St.notPermitted),
          (recs.any (fun r => fieldLE r 0 1 == 1 && (s.capSession k (fieldLE r 1 1)).state == 3), St.busy),
          (recs.any (fun r => fieldLE r 0 1 == 1) && decide (s.shareBytes 4 k < captureNeed s k recs), St.noSpace)] s
    (done (recs.foldl (fun s r => s.recordSub k r) s))
def execRecordConfig (m : Msg) (s : State) : Out := commandRow opRecordConfig bodyRecordConfig m s

def opRecordTrigger : Op := (Op.plain 0x1102 .stage .all).withU
/-- RECORD.TRIGGER: STALE unless the session is ARMED (R486). -/
def bodyRecordTrigger (m : Msg) (s : State) : Answer :=
  let k := s.stageOf m
  let j := m.u8 0
  orDeny [(m.plen != 4, St.badLength), (decide (3 < j) || !m.zero 1 3, St.badField), ((s.capSession k j).state != 1, St.stale)] s
    (done (s.triggerCapture k j 0))
def execRecordTrigger (m : Msg) (s : State) : Out := commandRow opRecordTrigger bodyRecordTrigger m s

/-- RECORD.STATUS (log entry for the layout): the drives, the stage's share and extents in use, its rings, and its sessions' states. -/
def recordStatusPayload (s : State) (k : Nat) : List Byte :=
  ((range 0 4).map (fun i =>
    let d := SMap.get Drive.none i s.book.drives
    leBytes 1 (flagNat d.present) ++ leBytes 1 d.label ++ leBytes 1 d.pct ++ leBytes 1 (flagNat d.critical + 2 * flagNat d.quiesced))).flatten ++
    leBytes 4 (s.book.share k) ++ leBytes 4 (s.book.usedBy k) ++
    ((range 1 5).map (fun kind =>
      let g := s.bookRing k kind
      leBytes 4 g.limit ++ leBytes 4 g.exts.length ++ leBytes 4 g.next ++ leBytes 4 (match g.recs with | r :: _ => r.rseq | [] => g.next))).flatten ++
    (range 0 4).map (fun j => BitVec.ofNat 8 (s.capSession k j).state) ++
    (range 0 2).map (fun j => BitVec.ofNat 8 (flagNat (s.flowSession k j).configured)) ++ zeros 2

def opRecordStatus : Op := (Op.plain 0x1103 .read .all).withRS
def bodyRecordStatus (m : Msg) (s : State) : Answer :=
  orDeny [(m.plen != 0, St.badLength)] s (doneWith (recordStatusPayload s (s.stageOf m)) s)
def execRecordStatus (m : Msg) (s : State) : Out := commandRow opRecordStatus bodyRecordStatus m s

/-- A record as RECORD.READ gives it: native with RAW, and a capture otherwise as pcapng. -/
def readRecord (r : BookRec) (snap : Nat) (raw : Bool) : List Byte :=
  if r.kind = 3 ∧ ¬ raw then pcapng snap (captureFrames r.body.length r.body) else r.bytes

def opRecordRead : Op := ((Op.plain 0x1104 .stage .all).withA).withRS
/-- RECORD.READ: KIND, RAW, the DUMP pair, FIRST RSEQ, COUNT; completes with CMD_DONE once the pair has taken the records. -/
def bodyRecordRead (m : Msg) (s : State) : Answer :=
  let k := s.stageOf m
  let kind := m.u8 0
  let first := m.u32 4
  let snap := (range 0 4).foldl (fun a j => max a (s.capSession k j).snapLen) 64
  let recs := ((s.bookRing k kind).recs.filter (fun r => decide (first ≤ r.rseq))).take (m.u32 8)
  orDeny [(m.plen != 12, St.badLength),
          (decide (kind < 1) || decide (5 < kind) || decide (1 < m.u8 1) || decide (63 < m.u8 2) || m.u8 3 != 0, St.badField),
          (!s.dumpPairOf k (m.u8 2), St.notPermitted), (s.atLimit m, St.busy)] s
    (accept (s.startDump (m.u8 2) (s.mbOf m) 0x1104 m.tag ((recs.map (fun r => readRecord r snap (m.u8 1 == 1))).flatten)))
def execRecordRead (m : Msg) (s : State) : Out := commandRow opRecordRead bodyRecordRead m s

def opRecordDrive : Op := (Op.plain 0x1105 .owner .ops).withE
/-- RECORD.DRIVE: FORMAT writes a drive's label (it is answered by the drive), QUIESCE stops writes before removal, SHARE sets a side
stage's extents: below those in use BUSY (R486), beyond those there are NO_SPACE. -/
def bodyRecordDrive (m : Msg) (s : State) : Answer :=
  let op := m.u8 0
  let i := m.u8 1
  let n := m.u32 4
  let d := SMap.get Drive.none i s.book.drives
  let others := (s.book.shares.filter (fun e => e.1 != i && e.1 != 0)).foldl (fun a e => a + e.2) 0
  orDeny [(m.plen != 8, St.badLength),
          (decide (2 < op) || !m.zero 2 2 || (op != 2 && (decide (3 < i) || n != 0)) || (op == 2 && (i == 0 || decide (4 < i) || !s.stageLive i)),
            St.badField),
          (m.async && s.atLimit m, St.busy),
          (op != 2 && !d.present, St.notFound),
          (op == 2 && decide (n < s.book.usedBy i), St.busy),
          (op == 2 && decide (s.book.allExtents < others + n + s.book.usedBy 0), St.noSpace),
          (op != 2 && m.ext.isNone, St.timeout)] s
    (done (s.onBook (fun b =>
      if op = 0 then { b with
        drives := SMap.insert i { d with label := 0, quiesced := false } b.drives,
        rings := SMap.mapD BookRing.reset (fun _ g => g.loseDrive i) b.rings }
      else if op = 1 then { b with drives := SMap.insert i { d with quiesced := true } b.drives }
      else { b with shares := SMap.put 0 i n b.shares })))
def execRecordDrive (m : Msg) (s : State) : Out := commandRow opRecordDrive bodyRecordDrive m s

/-! ### LIFE commands (R490, R491) -/

def opLifeRead : Op := ((Op.plain 0x1201 .owner .all).withE).withRS
/-- LIFE.READ: TYPE mask (bit t for type t), the DUMP pair or 0xFF, first LSEQ, count. Records that exceed a response go to the pair. -/
def bodyLifeRead (m : Msg) (s : State) : Answer :=
  let pair := m.u8 2
  let recs := (s.book.ledger.filter (fun r => (m.u16 0).testBit r.type && decide (m.u32 4 ≤ r.lseq))).take (m.u32 8)
  let bs := (recs.map LedgerRec.bytes).flatten
  let big := decide (16368 < bs.length)
  orDeny [(m.plen != 12, St.badLength), (decide (0x100 ≤ m.u16 0) || (pair != 0xFF && decide (63 < pair)) || m.u8 3 != 0, St.badField),
          (pair != 0xFF && !s.dumpPairOf 0 pair, St.notPermitted), (m.async && s.atLimit m, St.busy), (big && pair == 0xFF, St.noSpace)] s
    (if big then
      (if m.async then accept else done) (s.startDump pair (s.mbOf m) 0x1201 m.tag bs)
     else doneWith bs s)
def execLifeRead (m : Msg) (s : State) : Out := commandRow opLifeRead bodyLifeRead m s

/-- LIFE.STATUS's record (R491; log entry for the layout). -/
def lifeStatusRecord (s : State) : List Byte :=
  let b := s.book
  let total := b.poweredSecs.foldl (fun a e => a + e.2) 0
  leBytes 4 (total / 3600) ++ leBytes 8 b.energy ++ leBytes 4 b.nextLseq ++ leBytes 4 (b.erases.foldl (fun a e => max a e.2) 0) ++
    leBytes 4 (b.erases.foldl (fun a e => a + e.2) 0 / 15872) ++ leBytes 4 b.retiredSectors.length ++
    (match b.lastBackup with | some x => leBytes 8 x.1 ++ leBytes 2 x.2 | none => zeros 8 ++ leBytes 2 0xFFFF) ++ zeros 2

def opLifeStatus : Op := (Op.plain 0x1202 .read .all).withRS
def bodyLifeStatus (m : Msg) (s : State) : Answer :=
  orDeny [(m.plen != 0, St.badLength)] s (doneWith (lifeStatusRecord s) s)
def execLifeStatus (m : Msg) (s : State) : Out := commandRow opLifeStatus bodyLifeStatus m s

def opLifeBackup : Op := (Op.plain 0x1203 .owner .ops).withA
/-- LIFE.BACKUP: accepted; LEDGER_BACKUP completes it. -/
def bodyLifeBackup (m : Msg) (s : State) : Answer :=
  orDeny [(m.plen != 0, St.badLength), (s.atLimit m, St.busy)] s (accept s)
def execLifeBackup (m : Msg) (s : State) : Out := commandRow opLifeBackup bodyLifeBackup m s

end Sys2Proof.Machine
end

