-- ==== Sys2Proof/Machine/Mem.lean ====
section
/-! DEFINITION. External memory: its events (R334–R344, R532) and the MEM commands (R330, R341–R350). -/
namespace Sys2Proof.Machine
open Sys2Proof

/-! ### Contents that are lost -/

/-- Frames of the far pasture are lost, each counted SPILL_READ_ERR (R336, R338). -/
def State.loseFar (s : State) : State :=
  forEach (s.pktsWhere (fun p => p.phase == .far)) (fun id s =>
    match s.pkt id with
    | some p =>
      ((((s.bump p.tile p.ctx.stage 0xE2).spillDrop p.ctx.stage (spillBytes p.ctx.len)).leaveVoqs id).erasePkt id).settleSpill p.ctx.stage p.voq
    | none => s) s
/-- What FLOW and CAPTURE hold is lost. -/
def State.loseFlow (s : State) : State :=
  s.onBook (fun b => { b with flows := SMap.mapD FlowSession.reset (fun _ c => { c with entries := [] }) b.flows })
def State.loseCapture (s : State) : State :=
  s.onBook (fun b => { b with captures := SMap.mapD Capture.reset (fun _ c => { c with before := [], after := [] }) b.captures })

/-! ### Replays and channel resets (R335, R336) -/

/-- Does a channel run: it holds a module, and is not lost? -/
def State.channelRuns (s : State) (c : Nat) : Bool := (s.mem.channel c).dimm.isSome && (s.mem.channel c).state != 4

/-- DRAM_ALERT: ALERT_n of a sub-channel, and a replay; `again` says that the alert falls in a replay. After three replays of one window
the channel's reset is due. -/
def execDramAlert (c sub : Nat) (again : Bool) (s : State) : Out :=
  onUnit (decide (c < 8) && decide (sub < 2)) (s.when (s.channelRuns c) (fun s =>
    let n := if again then SMap.get 0 sub (s.mem.channel c).replays else 0
    if n = 3 then s.onChannel c (fun x => { x with replays := SMap.erase sub x.replays, resetDue := true })
    else ((s.onChannel c (fun x => { x with replays := SMap.insert sub (n + 1) x.replays })).bump 8 0 (memEvt (2 * c + sub) 2)).report
      (Report.of Fc.dramReplay Lv.device 0 0 (11 * 1024 + 2 * c + sub) 1 0 0)))

/-- A counter of both sub-channels of a channel. -/
def State.bumpChannel (s : State) (c i : Nat) : State := (s.bump 8 0 (memEvt (2 * c) i)).bump 8 0 (memEvt (2 * c + 1) i)

/-- A reset that failed: the channel is lost, every DRAM access stops, and spilled frames are lost. -/
def State.loseChannel (s : State) (c : Nat) : State :=
  (((s.onChannel c (fun x => { x with state := 4 })).report (Report.of Fc.memChannelLost Lv.device 0 0 (11 * 1024 + 2 * c) 1 0 c)).post 0
    Ev.memChannelLost Lv.device 0 (leBytes 1 c ++ zeros 3)).loseFar

/-- MEM_CHANNEL_RESET: the reset that is due ends, with what outcome; one that falls due in a speed step waits for its end. -/
def execMemChannelReset (c : Nat) (ok : Bool) (s : State) : Out :=
  onUnit (decide (c < 8)) (s.when (s.channelRuns c && (s.mem.channel c).resetDue && s.mem.step.isNone) (fun s =>
    let s1 := (((s.onChannel c (fun x => { x with replays := [], resetDue := false })).bumpChannel c 3).report
      (Report.of Fc.memChannelReset Lv.device 0 0 (11 * 1024 + 2 * c) 1 0 c)).post 0 Ev.memChannelReset Lv.device 0
        (leBytes 1 c ++ leBytes 1 (flagNat (!ok)) ++ zeros 2)
    if ok then s1 else s1.loseChannel c))

/-! ### The patrol scrub (R334, R337, R338, R196) -/

/-- A row: channel, rank, device and row number. -/
def rowKey (c rank device row : Nat) : Nat := ((c * 8 + rank) * 32 + device) * 2 ^ 32 + row
/-- A corrected error of a row: MEM_ROW_WEAK when they reach ROW_CE_LIMIT within 24 h. -/
def State.countRow (s : State) (c rank device row : Nat) : State :=
  let key := rowKey c rank device row
  let l := (SMap.get [] key s.mem.rows).filter (fun t => decide (s.now < t + tkS 86400)) ++ [s.now]
  let s1 := s.onMem (fun m => { m with rows := SMap.insert key l m.rows })
  if l.length = s.mem.rowCeLimit then
    s1.post 0 Ev.memRowWeak Lv.device 0 (leBytes 1 c ++ leBytes 1 rank ++ leBytes 1 device ++ zeros 1 ++ leBytes 4 row)
  else s1

/-- A damaged word of BACKING is rebuilt from a tile's copy; without a readable one the entry is lost, and the repair has failed. -/
def State.rebuildBacking (s : State) (key : Nat) (copy : Bool) : State :=
  let k := key / 2 ^ 200 / 16
  if copy then s.bump ((s.stageTiles k).headD 0) k 0x8B
  else
    let s1 := (s.onTab (fun t => { t with backing := SMap.erase key t.backing })).post k Ev.tableRepairFail Lv.device 0
      (leBytes 1 0xFF ++ leBytes 1 (key / 2 ^ 200 % 16) ++ zeros 2)
    match s1.recordFor Fc.backingUe Lv.device 0 with
    | some r => s1.repairDone r false
    | none => s1

/-- PATROL_SCRUB: a word of a region (0 FW, 1 BACKING, 2 SPILL, 3 FLOW, 4 CAPTURE) is read: 0 good, 1 corrected, 2 uncorrectable. `a` names
what lies there: the key of the backing entry, the packet, the flow session (stage × 2 + session) with entry `b`, the capture
(stage × 4 + session); `copy` says that a tile holds a readable copy of the backing entry. -/
def execPatrolScrub (c sub found region a b rank device row : Nat) (copy : Bool) (s : State) : Out :=
  onUnit (decide (c < 8) && decide (sub < 2) && decide (region < 5)) (s.when (s.channelRuns c) (fun s =>
    let u := 2 * c + sub
    let s0 := s.bump 8 0 (memEvt u 5)
    if found = 0 then s0
    else if found = 1 then
      ((s0.bump 8 0 (memEvt u 0)).report (Report.of Fc.dramCe Lv.device 0 0 (11 * 1024 + u) 4 0 0)).countRow c rank device row
    else if region = 1 then (s0.dramUe Fc.backingUe u (a / 2 ^ 200 / 16) 4).rebuildBacking a copy
    else if region = 2 then (s0.dramUe Fc.dramUe u 0 4).onPkt a (fun p => if p.phase == .far then { p with damaged := true } else p)
    else if region = 3 then
      (match (s.flowSession (a / 2) (a % 2)).entries[b]? with
       | some e => ((s0.dramUe Fc.dramUe u (a / 2) 4).onFlow (a / 2) (a % 2) (fun x => { x with entries := x.entries.erase e })).bump 8 (a / 2)
           (0xCC + a % 2)
       | none => s0.dramUe Fc.dramUe u 0 4)
    else if region = 4 then
      (s0.dramUe Fc.dramUe u (a / 4) 4).onCapture (a / 4) (a % 4) (fun x => if x.before.isEmpty && x.after.isEmpty then x else { x with damaged := true })
    else s0.dramUe Fc.dramUe u 0 4))

/-! ### Training (R339, R340) -/

/-- The place of a training in the ledger's cache: the module's serial number, the channel and the speed. -/
def trainingKey (c divider serial : Nat) : Nat := serial * 64 + c * 8 + divider

/-- A channel is trained with a module: a cached result is used where it is young and holds; full training is cached. -/
def State.trainChannel (s : State) (c : Nat) (d : Dimm) (cachedOk : Bool) : State :=
  let s1 := s.onChannel c (fun x => { x with dimm := some d, state := 2, replays := [], resetDue := false })
  let s2 := if s.cmd.mode = Md.load then s1.onMem (fun m => { m with speed := m.runDivider }) else s1
  let key := trainingKey c s2.mem.speed d.serial
  let cached := match SMap.find key s.book.training with | some t => decide (s.calSeconds < t + 2592000) | none => false
  let seen := s.book.ledger.any (fun r => r.type == 4 && r.body.take 11 == (identitySeen 1 c d.serial 0).take 11)
  let s2 := if seen then s2 else s2.ledgerWrite 4 (identitySeen 1 c d.serial 0)
  let s3 := if cached && !cachedOk then s2.bumpChannel c 4 else s2
  if cached && cachedOk then s3 else s3.onBook (fun b => { b with training := SMap.insert key s.calSeconds b.training })

/-- CHANNEL_TRAINING: a channel is trained, in LOAD after its SPD hub is read, and on leaving RETAIN. A cached result less than 30 days old
is used; where it fails, full training follows and is counted. The unretained words of the unprotected regions are then zeroed. -/
def execChannelTraining (c : Nat) (dimm : Option Dimm) (cachedOk : Bool) (s : State) : Out :=
  let x := s.mem.channel c
  let found := if s.cmd.mode = Md.load then dimm else x.dimm
  onUnit (decide (c < 8)) (s.when (x.state == 0 && s.cmd.mode != Md.dark && !s.mem.failed.contains c) (fun s =>
    match found with
    | none => s
    | some d => s.trainChannel c d cachedOk))

/-- CHANNEL_ZEROING_DONE: the channel's unprotected regions are zeroed and enter service. -/
def execChannelZeroingDone (c : Nat) (s : State) : Out :=
  onUnit (decide (c < 8)) (s.when ((s.mem.channel c).state == 2) (fun s => s.onChannel c (fun x => { x with state := 3 })))

/-- DQS_OSCILLATOR_READ: with a refresh of a rank its oscillator is read, an eye step follows every RETRAIN_EVERY; `drift` says that the
delays have left the tracking range, and the channel is to be reset. -/
def execDqsOscillatorRead (c rank : Nat) (drift : Bool) (s : State) : Out :=
  onUnit (decide (c < 8)) (s.when (s.channelRuns c &&
      (match (s.mem.channel c).dimm with | some d => decide (rank < d.ranks) | none => false)) (fun s =>
    s.onChannel c (fun x =>
      let n := SMap.get 0 rank x.refreshes + 1
      { x with refreshes := SMap.put 0 rank (if n < s.mem.retrainEvery then n else 0) x.refreshes, resetDue := x.resetDue || drift })))

/-! ### Speed, refresh rate, temperature, self-refresh (R341–R344, R532) -/

/-- The step that runs ends at its target: sets swapped, meters empty, what fits again restored, its event posted or its command completed. -/
def State.endSpeedStep (s : State) (target c : Nat) : State :=
  let cause := c % 16
  let s1 := forEach s.mem.populated (fun ch s => s.onChannel ch (fun x => { x with setB := !x.setB })) s
  let s2 := s1.onMem (fun m => { m with
    speed := target, step := none, queued := none, shares := SMap.mapD Share.reset (fun _ x => { x with tokens := 0, last := s.now }) m.shares })
  let s3 := s2.rebalance s2.mem.deliverable
  let pay := speedPayload s.mem.speed target cause (c / 16)
  if cause = 0 then s3.finish 0 0x0D04 Ev.memSpeedStep Lv.device 0 St.done pay else s3.post 0 Ev.memSpeedStep Lv.device 0 pay

/-- MEM_SPEED_STEP: the step that runs ends, and a queued step begins. -/
def execMemSpeedStep (s : State) : Out :=
  .next (match s.mem.step with
  | none => s
  | some (target, c, _) =>
    match s.mem.queued with
    | some q => (s.endSpeedStep target c).speedStep q.1 (q.2 % 16) (q.2 / 16)
    | none => s.endSpeedStep target c)

/-- MR4_READ: the refresh rate of a channel's ranks (a map: 2×) is read; changes are posted and D follows (R344, R347–R349). -/
def execMr4Read (c hot : Nat) (s : State) : Out :=
  let x := s.mem.channel c
  let ranks := match x.dimm with | some d => d.ranks | none => 0
  onUnit (decide (c < 8)) (s.when (s.channelRuns c) (fun s =>
    let new := hot % 2 ^ ranks
    let s1 := s.onChannel c (fun x => { x with hot := new })
    let s2 := forEach ((range 0 ranks).filter (fun r => x.hot.testBit r != new.testBit r)) (fun r s =>
      s.post 0 Ev.memRefreshRate Lv.device 0 (leBytes 1 c ++ leBytes 1 r ++ leBytes 1 (if new.testBit r then 2 else 1) ++ zeros 1)) s1
    s2.rebalance s2.mem.deliverable))

/-- RETAIN_SELF_REFRESH: in RETAIN a rank idle for 10 µs enters self-refresh once no far-pasture frame is left; what is not retained is lost. -/
def execRetainSelfRefresh (c rank : Nat) (s : State) : Out :=
  onUnit (decide (c < 8)) (s.when (s.retain && s.channelRuns c && (s.pktsWhere (fun p => p.phase == .far)).isEmpty &&
      (match (s.mem.channel c).dimm with | some d => decide (rank < d.ranks) | none => false) &&
      s.book.captures.all (fun e => e.2.state != 3)) (fun s =>
    ((s.onChannel c (fun x => { x with selfRefresh := setBit x.selfRefresh rank true })).loseFlow).loseCapture))

/-- The module temperature that steps the speed down, in °C (R342). -/
def dimmHot : Int := 95
/-- DIMM_TEMPERATURE_READ: a module that reaches 95 °C steps the speed down once, to no lower than SPEED_FLOOR; there the loop pins. -/
def execDimmTemperatureRead (c : Nat) (temp : Int) (s : State) : Out :=
  let x := s.mem.channel c
  onUnit (decide (c < 8)) (s.when (s.channelRuns c) (fun s =>
    let s1 := s.onChannel c (fun x => { x with temp := temp })
    let now := match s.mem.step with | some st => st.1 | none => s.mem.speed
    if temp < dimmHot || s.retain then s1
    else if now < s.mem.speedFloor then (if x.temp < dimmHot then s1.speedStep (now + 1) 3 6 else s1)
    else
      let s2 := s1.onMem (fun m => { m with pinned := some s.now })
      if x.temp < dimmHot && loopEpisodeNew s.mem.pinned s.now then s2.post 0 Ev.loopAtLimit Lv.device 0 (loopPayload 5 c 0) else s2))

/-! ### MEM.CONFIG (R341, R344, R350) -/

def opMemConfig : Op := Op.plain 0x0D01 .owner .all
/-- A speed as its DCLK divider. -/
def dividerOk (d : Nat) : Bool := decide (3 ≤ d) && decide (d ≤ 6)
/-- RUN_SPEED, LEAN_SPEED, SPEED_FLOOR, LEAN_MEM, EFF_1X, EFF_2X, two reserved bytes, RETRAIN_EVERY, ROW_CE_LIMIT (log entry 94). -/
def bodyMemConfig (m : Msg) (s : State) : Answer :=
  let x := s.mem
  let moves := m.u8 0 != x.runDivider || m.u8 1 != x.leanDivider || m.u8 2 != x.speedFloor || m.u8 3 != x.leanMem
  let new : MemSt := { x with
    runSpeed := m.u8 0, leanSpeed := m.u8 1, speedFloor := m.u8 2, leanMem := m.u8 3, eff1 := m.u8 4, eff2 := m.u8 5,
    retrainEvery := m.u16 8, rowCeLimit := m.u16 10 }
  let s1 := s.settleShares.onMem (fun y => { new with shares := y.shares })
  orDeny [(m.plen != 12, St.badLength),
          (!dividerOk (m.u8 0) || !dividerOk (m.u8 1) || !dividerOk (m.u8 2) || decide (1 < m.u8 3) || decide (m.u8 0 < x.bestDivider) ||
            decide (m.u8 1 < m.u8 0) || decide (m.u8 4 < 50) || decide (78 < m.u8 4) || decide (m.u8 5 < 50) || decide (72 < m.u8 5) ||
            !m.zero 6 2 || decide (m.u16 8 < 16) || decide (4096 < m.u16 8) || m.u16 10 == 0 || decide (1024 < m.u16 10), St.badField),
          (moves && s.cmd.mode != Md.house, St.wrongMode),
          (m.u8 0 != x.runDivider && decide (10 * new.deliverableAt (m.u8 0) < x.reserved), St.overcommitted)] s
    (done (s1.rebalance s1.mem.deliverable))
def execMemConfig (m : Msg) (s : State) : Out := commandRow opMemConfig bodyMemConfig m s

/-! ### MEM.REGION (R330) -/

def opMemRegion : Op := Op.plain 0x0D02 .owner .h
/-- Usable capacity in MiB: what the modules hold less the training area of 1 MiB a rank (R329). -/
def MemSt.usableMiB (m : MemSt) : Nat :=
  m.populated.foldl (fun a c => match (m.channel c).dimm with | some d => a + d.capacity * 1024 - d.ranks | none => a) 0
/-- Sizes of BACKING, SPILL, FLOW and CAPTURE in GiB. A region that shrinks or moves is zeroed. -/
def bodyMemRegion (m : Msg) (s : State) : Answer :=
  let x := s.mem
  let b := m.u32 0
  let sp := m.u32 4
  let f := m.u32 8
  let c := m.u32 12
  let spillMoves := b != x.backing || decide (sp < x.spill)
  let flowMoves := b + sp != x.backing + x.spill || decide (f < x.flow)
  let capMoves := b + sp + f != x.backing + x.spill + x.flow || decide (c < x.capture)
  let s1 := s.onMem (fun y => { y with backing := b, spill := sp, flow := f, capture := c })
  let s2 := if spillMoves then s1.loseFar else s1
  let s3 := if flowMoves then s2.loseFlow else s2
  orDeny [(m.plen != 16, St.badLength),
          (decide (b < 64) || decide (256 < b) || b % 8 != 0 || decide (1024 < sp) || decide (512 < f) || decide (256 < c), St.badField),
          (decide (x.usableMiB < (8 + b + sp + f + c) * 1024) || decide (sp < x.spaceOf 2) || decide (f < x.spaceOf 3) ||
            decide (c < x.spaceOf 4), St.noSpace)] s
    (done (if capMoves then s3.loseCapture else s3))
def execMemRegion (m : Msg) (s : State) : Out := commandRow opMemRegion bodyMemRegion m s

/-! ### MEM.SHARE (R332, R346, R350) -/

def opMemShare : Op := (Op.plain 0x0D03 .owner .cfg).withRS
def MemSt.regionGiB (m : MemSt) (region : Nat) : Nat := if region = 2 then m.spill else if region = 3 then m.flow else m.capture
def bodyMemShare (m : Msg) (s : State) : Answer :=
  let k := m.u8 0
  let r := m.u8 1
  let x := s.mem.share k r
  orDeny [(m.plen != 12, St.badLength),
          (decide (4 < k) || !s.stageLive k || decide (r < 2) || decide (4 < r) || !m.zero 2 2, St.badField),
          (decide (s.mem.regionGiB r < s.mem.spaceOf r - x.space + m.u32 4), St.noSpace),
          (decide (x.bw < m.u32 8) && decide (10 * s.mem.deliverable < s.mem.reserved - x.bw + m.u32 8), St.overcommitted)] s
    (done (s.settleShares.onShare k r (fun y => { y with space := m.u32 4, bw := m.u32 8 })))
def execMemShare (m : Msg) (s : State) : Out := commandRow opMemShare bodyMemShare m s

/-! ### MEM.SPEED, MEM.REPAIR, MEM.STATUS -/

def opMemSpeed : Op := (Op.plain 0x0D04 .owner .runReh).withA
/-- The target's DCLK divider and three reserved bytes (log entry 21). -/
def bodyMemSpeed (m : Msg) (s : State) : Answer :=
  orDeny [(m.plen != 4, St.badLength), (!dividerOk (m.u8 0) || decide (m.u8 0 < s.mem.bestDivider) || !m.zero 1 3, St.badField),
          (s.atLimit m, St.busy), (s.power.lean, St.busy)] s
    (accept (s.speedStep (m.u8 0) 0 0))
def execMemSpeed (m : Msg) (s : State) : Out := commandRow opMemSpeed bodyMemSpeed m s

def opMemRepair : Op := (Op.plain 0x0D05 .owner .h).withE
/-- Channel, rank, device (0–19), kind (0 soft, 1 hard) and row (log entry 96). `ext`: the DRAM's answer, 0 for a repair that holds. -/
def bodyMemRepair (m : Msg) (s : State) : Answer :=
  let c := m.u8 0
  let key := rowKey c (m.u8 1) (m.u8 2) (m.u32 4)
  let found := decide (c < 8) && s.channelRuns c && (match (s.mem.channel c).dimm with | some d => decide (m.u8 1 < d.ranks) | none => false)
  orDeny [(m.plen != 8, St.badLength), (decide (7 < c) || decide (19 < m.u8 2) || decide (1 < m.u8 3), St.badField),
          (m.async && s.atLimit m, St.busy), (!found, St.notFound)] s
    (match m.ext with
     | none => deny St.timeout s
     | some r =>
       if r.head? != some 0 then deny St.hwFault s
       else done (s.onMem (fun x => { x with
         rows := SMap.erase key x.rows, repaired := if x.repaired.contains key then x.repaired else x.repaired ++ [key] })))
def execMemRepair (m : Msg) (s : State) : Out := commandRow opMemRepair bodyMemRepair m s

def opMemStatus : Op := (Op.plain 0x0D06 .read .all).withRS
/-- A channel's 32 bytes. -/
def Channel.bytes (x : Channel) (mismatch : Bool) : List Byte :=
  leBytes 1 (flagNat x.dimm.isSome + 128 * flagNat mismatch) ++ leBytes 1 x.state ++ leBytes 1 (flagNat x.setB) ++ leBytes 1 x.hot ++
    leBytes 2 (unsignedOf x.temp 16) ++ zeros 2 ++
    (match x.dimm with
     | some d => leBytes 2 d.capacity ++ leBytes 1 d.ranks ++ leBytes 1 d.width ++ leBytes 2 d.speed ++ leBytes 2 d.segments ++ leBytes 8 d.serial
     | none => zeros 16) ++ zeros 8
/-- A share's 48 bytes: stage, region, suspended, space, reservation, what is in force of it, and its counters. -/
def State.shareRec (s : State) (k r : Nat) : List Byte :=
  let x := s.mem.share k r
  leBytes 1 k ++ leBytes 1 r ++ leBytes 1 (flagNat (s.shareSuspended r k)) ++ zeros 1 ++ leBytes 4 x.space ++ leBytes 4 x.bw ++
    leBytes 4 (s.mem.rateOf k r / 65536) ++ leBytes 8 x.held ++ leBytes 8 x.read ++ leBytes 8 x.written ++ leBytes 8 x.refused
/-- D, the speed's divider and SCALE; the owner also sees channels, regions and every share (R350; log entry for the layout). -/
def bodyMemStatus (m : Msg) (s : State) : Answer :=
  let k := s.stageOf m
  let head := leBytes 2 s.mem.deliverable ++ leBytes 1 s.mem.speed ++ zeros 1 ++ leBytes 4 s.mem.scale
  orDeny [(m.plen != 0, St.badLength)] s
    (doneWith (if k = 0 then
      head ++ leBytes 4 8 ++ leBytes 4 s.mem.backing ++ leBytes 4 s.mem.spill ++ leBytes 4 s.mem.flow ++ leBytes 4 s.mem.capture ++
        ((range 0 8).map (fun c => (s.mem.channel c).bytes (s.mismatchOf (2000 + c)))).flatten ++
        (s.liveStages.map (fun j => ([2, 3, 4].map (fun r => s.shareRec j r)).flatten)).flatten
     else head ++ ([2, 3, 4].map (fun r => s.shareRec k r)).flatten) s)
def execMemStatus (m : Msg) (s : State) : Out := commandRow opMemStatus bodyMemStatus m s

end Sys2Proof.Machine
end

