-- ==== Sys2Proof/Machine/Pattern.lean ====
section
/-! DEFINITION. The PATTERN group (R216, R221–R223), PATTERN_STAGED, the throttle's readings and the survey group's events. -/
namespace Sys2Proof.Machine
open Sys2Proof

/-! ### Loading (R203, R204, R222, R223) -/

/-- The conditions a load of a set meets: those of R98 for graphs. -/
def patternLoadConds (s : State) (k : Nat) : List (Bool × Nat) :=
  [((s.stage k).state == 3, St.busy), (s.committing k, St.versionConflict), ((s.sets k).full, St.busy)]

def opPatternLoad : Op := (Op.plain 0x0901 .stage .cfg).withA
def bodyPatternLoad (m : Msg) (s : State) : Answer := loadChunk 2 patternLoadConds m s
def execPatternLoad (m : Msg) (s : State) : Out := commandRow opPatternLoad bodyPatternLoad m s

/-- The set of an image that passed its checks. -/
def patSetOf (img : List Byte) : PatSet :=
  let secs := sectionsOf img
  let f := sectionBody secs 1
  let sv := sectionBody secs 2
  { image := img, states := setStates f sv, patterns := (f.map autoPatterns).getD 0, forward := f, survey := sv,
    classes := (recordsOf ((sectionBody secs 3).getD []) 0 4 8).map leNat }

/-- What is wrong with a pattern set image (R222). -/
def patternBad (img : List Byte) : Option Nat :=
  if !imageLengthOk img 8388608 then some St.badLength
  else if !imageFieldsOk img 2 [1, 2, 3, 4] 3 then some St.badField
  else
    let secs := sectionsOf img
    let x := patSetOf img
    let bad := ((sectionBody secs 3).getD []).length != 32 || !x.classes.all scanRecordOk || (match x.forward with | some b => !autoOk b | none => false) ||
      (match x.survey with | some b => !autoOk b | none => false) || (x.forward.isNone && x.classes.any (fun r => srMode r != 0)) ||
      (match sectionBody secs 4 with | some b => decide (65536 < b.length) | none => false)
    if bad then some St.badField else none

/-- The load fails: PATTERN_REJECTED with the status. -/
def State.rejectSet (s : State) (k st : Nat) : State :=
  s.finish k 0x0901 Ev.patternRejected Lv.device k st (leBytes 2 st ++ zeros 2)

/-- A valid set is bound as the staged one, and its load completes. -/
def State.stageSet (s : State) (k : Nat) (img : List Byte) : State :=
  ((s.onSets k (fun b => { b with next := some (patSetOf img) })).setBatch k).finish k 0x0901 Ev.patternStaged Lv.device k St.done
    (imageLabel img ++ leBytes 4 (imageCrc img))

/-- PATTERN_STAGED (R222, R226): validation of a complete image and writing to every tile end. -/
def execPatternStaged (k : Nat) (written : Bool) (s : State) : Out :=
  onUnit (decide (k ≤ 4))
    (match s.firstChecking k 2 with
     | none => s
     | some img =>
       let s1 := s.popChecking k 2
       match patternBad img with
       | some st => s1.rejectSet k st
       | none =>
         let s2 := s1.onSets k (fun b => { b with next := none })
         if (s.stageTiles k).any (fun t => decide (s2.statesFree t < (patSetOf img).states)) then s1.rejectSet k St.noSpace
         else if !written then s1.rejectSet k St.hwFault
         else s2.stageSet k img)

def opPatternDiscard : Op := Op.plain 0x0902 .stage .cfg
def bodyPatternDiscard (m : Msg) (s : State) : Answer :=
  let k := s.stageOf m
  orDeny ([(m.plen != 0, St.badLength)] ++ stagingChecks s k) s (done (s.onSets k (fun b => { b with next := none })))
def execPatternDiscard (m : Msg) (s : State) : Out := commandRow opPatternDiscard bodyPatternDiscard m s

def opPatternRead : Op := (Op.plain 0x0903 .read .all).withRS
def bodyPatternRead (m : Msg) (s : State) : Answer :=
  let k := s.stageOf m
  match firstRefusal (imageReadChecks m) with
  | some st => deny st s
  | none =>
    match bindOf s k (m.u8 0) (s.sets k) with
    | none => deny St.notFound s
    | some x => orDeny [(decide (x.image.length ≤ m.u32 4), St.badField)] s (doneWith (imageChunk x.image (m.u32 4)) s)
def execPatternRead (m : Msg) (s : State) : Out := commandRow opPatternRead bodyPatternRead m s

/-- The record of one set (R223; log entry for its layout). -/
def setRecord (v : Nat) (x : PatSet) : List Byte :=
  leBytes 1 v ++ zeros 3 ++ leBytes 4 x.states ++ leBytes 2 x.patterns ++ leBytes 2 ((x.survey.map autoPatterns).getD 0) ++
    leBytes 4 (imageCrc x.image) ++ imageLabel x.image

def opPatternStatus : Op := (Op.plain 0x0904 .read .all).withRS
def bodyPatternStatus (m : Msg) (s : State) : Answer :=
  let k := s.stageOf m
  let l := servings s k (s.sets k)
  let free := ((s.stageTiles k).map s.statesFree).foldl min 65536
  orDeny [(m.plen != 0, St.badLength)] s
    (doneWith (leBytes 1 l.length ++ zeros 3 ++ leBytes 4 free ++
      ((range 0 8).map (fun t => if (s.stageTiles k).contains t then leBytes 1 (s.stepOf (dieOfTile t)) ++ leBytes 1 (s.engines t) else zeros 2)).flatten ++
      (l.map (fun e => setRecord e.1 e.2)).flatten) s)
def execPatternStatus (m : Msg) (s : State) : Out := commandRow opPatternStatus bodyPatternStatus m s

/-! ### Bounds and readings (R214–R216) -/

def opPatternBounds : Op := (Op.plain 0x0905 .owner .ops).withRS
/-- FLOOR and CAP (R216; bytes 0 and 1 of four, log entry 21). -/
def bodyPatternBounds (m : Msg) (s : State) : Answer :=
  orDeny [(m.plen != 4, St.badLength),
          (decide (3 < m.u8 0) || decide (3 < m.u8 1) || !m.zero 2 2 || decide (m.u8 0 < m.u8 1), St.badField)] s
    (done ((s.onTab (fun a => { a with floor := m.u8 0, cap := m.u8 1 })).retune 0))
def execPatternBounds (m : Msg) (s : State) : Out := commandRow opPatternBounds bodyPatternBounds m s

/-- THROTTLE_READING (R214–R216): the power manager reads a forwarding die's hottest sensor, in 0.1 °C. -/
def execThrottleReading (die : Nat) (tj : Int) (s : State) : Out :=
  onUnit (decide (die < 2))
    (((s.onTab (fun a => { a with tempStep := SMap.put 0 die (stepAfter (s.tempStepOf die) tj) a.tempStep })).onPower
      (fun p => { p with tj := SMap.insert die tj p.tj })).retuneDie 0 die |>.pinThrottle die)

/-- PATTERN_REPAIR (R224, R226): a withdrawn engine is rewritten from the backing store and returns. -/
def execPatternRepair (t e : Nat) (s : State) : Out :=
  onUnit (decide (t < 8) && decide (e < 4))
    (s.when (s.tab.engBad.contains (t * 4 + e)) (fun s =>
      let s1 := s.onTab (fun a => { a with engBad := a.engBad.filter (fun x => x != t * 4 + e) })
      s1.postAll (s1.scanMailboxes (dieOfTile t)) Ev.patternRepair Lv.tile t (leBytes 1 t ++ leBytes 1 e ++ zeros 2)))

/-! ### Surveys (R218–R221) -/

def opPatternQuery : Op := (Op.plain 0x0906 .stage .all).withA
/-- Queues a survey of host bytes in a tile (R218, R223): TILE in byte 0, data from byte 16 on (log entry 21). -/
def bodyPatternQuery (m : Msg) (s : State) : Answer :=
  let k := s.stageOf m
  let t := m.u8 0
  let data := m.payload.drop 16
  orDeny [(decide (m.plen < 16) || decide (16 + 16352 < m.plen), St.badLength), (decide (7 < t) || !m.zero 1 15, St.badField),
          (!(s.stageTiles k).contains t, St.notPermitted), (s.atLimit m, St.busy)] s
    (match s.allocBuffer (64 + s.mbOf m) k data.length with
     | none => deny St.noSpace s
     | some (key, s1) =>
       let h := handleOf key (((s1.buffer key).map (fun b => b.gen)).getD 0)
       accept ((s1.retainBuffer key data).addSurvey t k (s.ver k).cur h (some (s.mbOf m, m.tag)) data))
def execPatternQuery (m : Msg) (s : State) : Out := commandRow opPatternQuery bodyPatternQuery m s

/-- A PATTERN.QUERY job ended: SURVEY_RESULT with bytes 0–39 of its record (R226). -/
def State.surveyResult (s : State) (j : Survey) (status : Nat) (rec_ : List Byte) : State :=
  match j.query with
  | some (mb, tag) => s.finishFor mb (fun o => o.opcode == 0x0906 && o.tag == tag) Ev.surveyResult Lv.tile j.tile status (rec_.take 40)
  | none => s

/-- Keep a job's record. -/
def State.endSurvey (s : State) (j : Survey) (rec_ : List Byte) : State :=
  s.onTab (fun a => { a with surveys := SMap.insert j.handle { j with done := true, record := rec_ } a.surveys })

/-- Strides a job runs: to the end of its bytes, or to the ninth match (R220). -/
def surveyStrides (j : Survey) : Nat :=
  match (allMatches j.auto j.data)[8]? with
  | some m => m.2 / 32 + 1
  | none => (j.data.length + 31) / 32

/-- SURVEY_JOB (R218–R220): a queued job runs in its tile on engine time no forwarding scan wants. -/
def execSurveyJob (handle : Nat) (s : State) : Out :=
  .next (match SMap.find handle s.tab.surveys with
    | some j =>
      if j.done || s.engines j.tile == 0 then s
      else
        let r := surveyRecord j false
        let s1 := ((s.endSurvey j r).bumpN j.tile j.stage 0xA9 (if j.auto.isEmpty then 0 else surveyStrides j)).bump j.tile j.stage 0xAA
        (if 8 < (allMatches j.auto j.data).length then s1.bump j.tile j.stage 0xAB else s1).surveyResult j St.done r
    | none => s)

/-- SURVEY_WAIT_EXPIRY (R219): a punt or capture's job still waiting at SURVEY_WAIT is stopped INCOMPLETE; a query's ends with TIMEOUT once its
tile's step has been OFF for SURVEY_WAIT. -/
def execSurveyWaitExpiry (handle : Nat) (s : State) : Out :=
  .next (match SMap.find handle s.tab.surveys with
    | some j =>
      let die := dieOfTile j.tile
      let wait := tkUs (s.setting 0x0014 j.stage)
      let since := if j.query.isSome then max j.startedAt (SMap.get 0 die s.tab.stepSince) else j.startedAt
      if j.done || decide (s.now < since + wait) || (j.query.isSome && s.stepOf die != 3) then s
      else
        let r := surveyRecord j true
        ((s.endSurvey j r).bump j.tile j.stage 0xAC).surveyResult j St.timeout r
    | none => s)

def opPatternStep : Op := (Op.plain 0x0907 .stage .all).withRS
/-- Matches of a survey from an index on (R221): LAST, a zero byte, the count, then the matches (log entry 21). -/
def bodyPatternStep (m : Msg) (s : State) : Answer :=
  let h := m.u32 0
  let first := m.u32 4
  match firstRefusal [(m.plen != 8, St.badLength)] with
  | some st => deny st s
  | none =>
    match SMap.find h s.tab.surveys with
    | none => deny St.notFound s
    | some j =>
      let live := match s.buffer (keyOfHandle h) with | some b => b.gen == genOfHandle h && b.retained | none => false
      let ms := ((allMatches j.auto j.data).drop first)
      orDeny [(j.stage != s.stageOf m, St.notFound), (!live, St.stale)] s
        (doneWith (leBytes 1 (flagNat (decide (ms.length ≤ 256))) ++ zeros 1 ++ leBytes 2 (min ms.length 256) ++
          ((ms.take 256).map matchBytes).flatten) s)
def execPatternStep (m : Msg) (s : State) : Out := commandRow opPatternStep bodyPatternStep m s

end Sys2Proof.Machine
end

