-- ==== Sys2Proof/Machine/Ports.lean ====
section
/-! DEFINITION. Ports, lanes and link health (R38–R76): the PORT and TEST groups and the link events. -/
namespace Sys2Proof.Machine
open Sys2Proof

/-- The payload of LOOP_AT_LIMIT for a loop of the ports: loop, bound, unit (R505). -/
def portLoopPayload (loop unit bound : Nat) : List Byte := leBytes 1 loop ++ leBytes 1 bound ++ leBytes 2 unit

/-! ### PORT.CONFIG (R38–R40, R73) -/

/-- Is one configuration record legal by itself (R39, R73)? -/
def cfgFieldsOk (c : Nat) : Bool :=
  decide (cfgSub c % cfgLanes c = 0) && decide (cfgRate c ≤ 2) && decide (cfgFc c ≤ 2) && decide (cfgRxTag c ≤ 2) &&
    !(cfgRxTag c != 0 && (cfgDefVid c == 0 || cfgDefVid c == 4095)) && decide (1518 ≤ cfgMaxFrame c) && decide (cfgMaxFrame c ≤ 16000) &&
    decide (cfgFloor c ≤ cfgRate c) && (cfgFc c == 2 || cfgPfcEn c == 0) && decide (bitsOf c 0 10 = 0)

/-- The lanes of a record within its port. -/
def cfgLaneList (c : Nat) : List Nat := range (cfgSub c) (cfgLanes c)

/-- Do two records of a port live together: no lane in common, and no lane group at two rates (R38, R39)? -/
def cfgCompatible (a b : Nat) : Bool :=
  !(cfgLaneList a).any (fun x => (cfgLaneList b).contains x) &&
    (cfgRate a == cfgRate b || !(cfgLaneList a).any (fun x => (cfgLaneList b).any (fun y => x / 4 == y / 4)))

/-- Is every pair of records compatible? -/
def cfgSetOk : List Nat → Bool
  | [] => true
  | c :: l => cfgFieldsOk c && l.all (fun d => cfgCompatible c d) && cfgSetOk l

/-- Does a change leave a sub-port's lanes, width and rate as they are (R40)? -/
def sameLink (old new : Option Nat) : Bool :=
  match old, new with
  | some a, some b => cfgSub a == cfgSub b && cfgLanes a == cfgLanes b && cfgRate a == cfgRate b
  | _, _ => false

/-- One lport under a new configuration (R40): kept where its link is the same, with its ADMIN and PEER followed; otherwise the old
sub-port goes down and the new one starts. -/
def State.reconfigure (s : State) (l : Nat) (new : Option Nat) : State :=
  let old := (s.lport l).cfg
  if sameLink old new then
    let s1 := s.onLport l (fun x => { x with cfg := new })
    let n := new.getD 0
    let o := old.getD 0
    let s2 := if cfgPeer o && !cfgPeer n then s1.peerDown l 1 else s1
    if cfgAdmin o && !cfgAdmin n then s2.downLport l 5
    else if !cfgAdmin o && cfgAdmin n then s2.settleLport l
    else s2
  else
    let s1 := if old.isSome then s.downLport l 5 else s
    let s2 := s1.onLport l (fun x => { Lport.reset with cfg := new, helloSeq := x.helloSeq })
    if new.isSome then s2.settleLport l else s2

def opPortConfig : Op := Op.plain 0x0401 .stage .ops
/-- PORT.CONFIG: PORT in byte 0, seven zero bytes (log entry 21), then one 64-bit record per sub-port; one change to the port (R40). -/
def bodyPortConfig (m : Msg) (s : State) : Answer :=
  let p := m.u8 0
  let recs := (m.records 8 8).map leNat
  orDeny [(decide (m.plen < 8) || decide (72 < m.plen) || m.plen % 8 != 0, St.badLength),
          (decide (47 < p) || !m.zero 1 7 || !cfgSetOk recs, St.badField),
          (!s.ownsPort (s.stageOf m) p, St.notPermitted)] s
    (done ((forEach (range 0 8) (fun k s => s.reconfigure (8 * p + k) (recs.find? (fun c => cfgSub c == k))) s).reselectModule p).recompute)
def execPortConfig (m : Msg) (s : State) : Out := commandRow opPortConfig bodyPortConfig m s

/-! ### PORT.STATUS, PORT.HEALTH (R74, R75) -/

/-- Milliseconds of probation left. -/
def probLeft (x : Lport) (now : Nat) : Nat := match x.probEnd with | some e => (e - now) / 66000000 | none => 0

/-- The 64-bit status record of a sub-port (R74). -/
def portStatusRecord (s : State) (l : Nat) : Nat :=
  let x := s.lport l
  let width := if pairsOut x.lanesOut = 0 then bitsOf x.conf 59 2 else if pairsOut x.lanesOut = 1 then 3 else 2
  (l % 8) * 2 ^ 61 + flagNat x.admin * 2 ^ 60 + x.oper % 8 * 2 ^ 57 + width * 2 ^ 55 + x.rate % 4 * 2 ^ 53 + flagNat x.peerUp * 2 ^ 52 +
    x.epoch % 16 * 2 ^ 48 + flagNat x.deg * 2 ^ 47 + flagNat (s.mismatchOf l) * 2 ^ 46 + satNat (probLeft x s.now) 65535 * 2 ^ 30 +
    x.lanesOut % 16 * 2 ^ 26 + (if x.oper = 0 then x.cause % 16 else 0) * 2 ^ 22

def opPortStatus : Op := ((Op.plain 0x0402 .read .all).withRS).withU
/-- PORT.STATUS: PORT in byte 0, three zero bytes (log entry 21); one record per configured sub-port. -/
def bodyPortStatus (m : Msg) (s : State) : Answer :=
  let p := m.u8 0
  orDeny [(m.plen != 4, St.badLength), (decide (47 < p) || !m.zero 1 3, St.badField), (!s.ownsPort (s.stageOf m) p, St.notPermitted)] s
    (doneWith (((lportsOf p).filter (fun l => (s.lport l).configured)).map (fun l => leBytes 8 (portStatusRecord s l))).flatten s)
def execPortStatus (m : Msg) (s : State) : Out := commandRow opPortStatus bodyPortStatus m s

/-- The four 32-bit counts of a health window. -/
def HealthWin.bytes (w : HealthWin) : List Byte := leBytes 4 w.cw ++ leBytes 4 w.corr ++ leBytes 4 w.sym ++ leBytes 4 w.unc

/-- The health record of 208 bytes (R75). -/
def portHealthRecord (s : State) (l : Nat) : List Byte :=
  let x := s.lport l
  leBytes 2 l ++ leBytes 1 (flagNat x.deg + 2 * flagNat (x.oper == 4) + 4 * flagNat x.peerUp) ++ zeros 1 ++ leBytes 4 (s.setting 0x31 l) ++
    leBytes 4 (s.setting 0x32 l) ++ leBytes 4 (s.setting 0x33 l) ++ leBytes 4 (s.setting 0x34 l) ++ leBytes 4 (s.setting 0x35 l) ++
    x.last.bytes ++ leBytes 4 x.win.corr ++ leBytes 4 x.win.sym ++ leBytes 4 x.win.unc ++ leBytes 4 ((s.now - x.winStart) / 66000) ++
    leBytes 8 x.windows ++ ((range 0 16).map (fun k => leBytes 8 (SMap.get 0 k x.hist))).flatten ++ leBytes 8 x.lastEnd ++ zeros 8

def opPortHealth : Op := (Op.plain 0x0403 .read .all).withRS
def bodyPortHealth (m : Msg) (s : State) : Answer :=
  let l := m.u16 0
  orDeny [(m.plen != 4, St.badLength), (decide (383 < l) || !m.zero 2 2, St.badField), (!s.ownsLport (s.stageOf m) l, St.notPermitted),
          (!(s.lport l).configured, St.notFound)] s
    (doneWith (portHealthRecord s l) s)
def execPortHealth (m : Msg) (s : State) : Out := commandRow opPortHealth bodyPortHealth m s

/-! ### SerDes bounds and adaptation (R68, R69) -/

/-- The bounds of a record, in the order of LaneSt. -/
def boundsOf (r : List Byte) : List Nat := (range 4 8).map (fun i => fieldLE r i 1)

/-- Do bounds lie inside a lane's fused limits: largest values not above, smallest values not below, CTLE_MIN not above CTLE_MAX? -/
def boundsInside (fuse b : List Nat) : Bool :=
  let f := fun i => (fuse[i]?).getD 0
  let v := fun i => (b[i]?).getD 0
  decide (v 0 ≤ f 0) && decide (v 1 ≤ f 1) && decide (v 2 ≤ f 2) && decide (f 3 ≤ v 3) && decide (v 3 ≤ 127) && decide (f 4 ≤ v 4) &&
    decide (v 4 ≤ v 5) && decide (v 5 ≤ f 5) && decide (v 6 ≤ f 6) && decide (v 7 ≤ f 7)

/-- The lanes a record names. -/
def serdesLanes (r : List Byte) : List Nat :=
  if bitOf (fieldLE r 2 1) 0 then range (fieldLE r 0 2 / 8 * 8) 8 else [fieldLE r 0 2]

def serdesRecordOk (s : State) (r : List Byte) : Bool :=
  decide (fieldLE r 0 2 < 384) && decide (fieldLE r 2 1 < 2) && zeroAt r 3 1 && zeroAt r 12 4 &&
    (serdesLanes r).all (fun n => boundsInside (s.lane n).fuse (boundsOf r))

/-- A setting held to its bounds (R69): which of the seven settings, and the bounds in force. Settings are the three transmit
magnitudes, the main cursor, the receive peaking, the taps enabled and the largest tap. -/
def boundSetting (b : List Nat) (i v : Nat) : Nat :=
  let f := fun j => (b[j]?).getD 0
  if i < 3 then min v (f i) else if i = 3 then max v (f 3) else if i = 4 then max (f 4) (min v (f 5)) else if i = 5 then min v (f 6)
  else min v (f 7)

/-- New bounds: a setting outside them moves to the nearest bound at once (R69). -/
def LaneSt.bind (x : LaneSt) (b : List Nat) : LaneSt :=
  { x with bounds := b, taps := (range 0 7).map (fun i => boundSetting b i ((x.taps[i]?).getD 0)) }

def opPortSerdesBounds : Op := (Op.plain 0x0404 .owner .ops).withRS
def bodyPortSerdesBounds (m : Msg) (s : State) : Answer :=
  let recs := m.records 0 16
  orDeny [(m.plen == 0 || m.plen % 16 != 0 || decide (384 * 16 < m.plen), St.badLength), (!recs.all (serdesRecordOk s), St.badField)] s
    (done (recs.foldl (fun s r => forEach (serdesLanes r) (fun n s => s.onLane n (fun x => x.bind (boundsOf r))) s) s))
def execPortSerdesBounds (m : Msg) (s : State) : Out := commandRow opPortSerdesBounds bodyPortSerdesBounds m s

/-- SERDES_ADAPTATION: a lane's loop asks for a value of one setting (0–6); outside its bounds it pins there and raises
LOOP_AT_LIMIT once for each episode (R68, R69, R505), to MB0 with the lane as its unit and the field as bound. -/
def execSerdesAdaptation (lane field want : Nat) (s : State) : Out :=
  let x := s.lane lane
  let v := boundSetting x.bounds field want
  onUnit (decide (lane < 384) && decide (field < 7)) (
    let s1 := s.onLane lane (fun x => { x with taps := setAt x.taps field v })
    if v = want then s1
    else
      let s2 := s1.onLane lane (fun x => { x with pinned := SMap.insert field s.now x.pinned })
      if loopEpisodeNew (SMap.find field x.pinned) s.now then s2.post 0 Ev.loopAtLimit Lv.lane lane (portLoopPayload 1 lane field) else s2)

/-! ### Link state -/

/-- Probation begins (R64): classes 0–6 are flushed, OPER shows it, PROBATION_START is raised. -/
def State.startProbation (s : State) (l : Nat) : State :=
  ((s.onLport l (fun x => { x with oper := 4, probOnUp := false, probEnd := some (s.now + tkMs (s.setting 0x35 l)) })).flushClasses l 0x7F).postPort
    l Ev.probationStart []

/-- LINK_UP: training completes; the windows of R62 start again. A sub-port that went down out of probation enters it at once (R65). -/
def execLinkUp (l : Nat) (s : State) : Out :=
  let x := s.lport l
  onUnit (decide (l < 384)) (s.when (x.admin && (x.oper == 0 || x.oper == 1) && s.portAdmitted (l / 8) && (s.cannotTrain l).isNone &&
      !s.inTest l) (fun s =>
    let s1 := s.onLport l (fun x => { x with
      oper := 2, cause := 0, rate := (if x.oper = 0 then cfgRate x.conf else x.rate), lanesOut := 0, step := none, deg := false,
      win := HealthWin.zero, winStart := s.now, windows := 0 })
    let s2 := s1.postPort l Ev.linkUp []
    if x.probOnUp then s2.startProbation l else s2))

/-- LINK_DOWN: loss of the link takes a sub-port down at once, whatever ADMIN says; the link then trains again (R65–R67). Causes:
3 NO_SIGNAL, 4 TRAIN_FAIL. -/
def execLinkDown (l cause : Nat) (s : State) : Out :=
  let x := s.lport l
  onUnit (decide (l < 384)) (s.when (x.configured && (x.oper == 1 || x.linkUp)) (fun s => s.downLport l (if cause = 4 then 4 else 3)))

/-- LANE_RATE_FALLBACK (R68): training fails at the rate in use. With FALLBACK the lanes step down one rate, to FLOOR at the lowest;
at FLOOR the loop pins and raises LOOP_AT_LIMIT. Without, the sub-port is DOWN with cause TRAIN_FAIL. -/
def execLaneRateFallback (l : Nat) (s : State) : Out :=
  let x := s.lport l
  onUnit (decide (l < 384)) (s.when (x.oper == 1) (fun s =>
    if !cfgFallback x.conf then s.downLport l 4
    else if cfgFloor x.conf < x.rate then s.onLport l (fun x => { x with rate := x.rate - 1 })
    else (s.downLport l 4).postPort l Ev.loopAtLimit (portLoopPayload 2 l 0)))

/-! ### Peer mode (R55) -/

/-- Lanes usable, as a map of eight (R55). -/
def laneMap (x : Lport) (l : Nat) : Nat :=
  sumOver (range 0 8) (fun k => if decide (l % 8 ≤ k) && decide (k < l % 8 + cfgLanes x.conf) && !x.lanesOut.testBit (k / 2) then 2 ^ k else 0)

/-- A hello frame (R55): destination 03-4C-54-00-00-01, EtherType 0x88B5, the payload in network byte order, without FCS. The source
address is the device's: the spec names none, and it is written as zero (log entry 32). -/
def helloFrame (s : State) (l seq : Nat) : List Byte :=
  let x := s.lport l
  let ack := match x.lastHello with | some t => decide (s.now < t + tkMs 300) | none => false
  [0x03, 0x4C, 0x54, 0x00, 0x00, 0x01] ++ zeros 6 ++ beBytes 2 0x88B5 ++ [0x00, 0x01] ++
    beBytes 2 (0x8000 + (if cfgLanes x.conf = 8 && cfgRate x.conf = 2 then 0x4000 else 0) + (if ack then 0x2000 else 0) +
      (if x.peerUp then 0x1000 else 0)) ++
    beBytes 8 Config.deviceId.toNat ++ beBytes 2 l ++ beBytes 1 x.lanesUsed ++ beBytes 1 (laneMap x l) ++ beBytes 4 seq ++ zeros 26

/-- PEER_HELLO_SEND: every 100 ms, in class 7, by the MAC alone. A hello is 64 bytes with its FCS. -/
def execPeerHelloSend (l : Nat) (s : State) : Out :=
  let x := s.lport l
  onUnit (decide (l < 384)) (s.when (x.peer && x.linkUp && decide (x.helloSent + tkMs 100 ≤ s.now)) (fun s =>
    (((s.onLport l (fun y => { y with
      helloSent := s.now, helloSeq := (y.helloSeq + 1) % 2 ^ 32, lastTx := helloFrame s l y.helloSeq })).stat l 21).stat l 23).statN l 20 64))

/-- PEER_HELLO_RECEIVE: a hello is consumed and counted; one with ACK set brings peer mode up. `flags` is its FLAGS field. -/
def execPeerHelloReceive (l flags : Nat) (s : State) : Out :=
  let x := s.lport l
  onUnit (decide (l < 384)) (s.when (x.peer && x.linkUp) (fun s =>
    let s1 := (s.onLport l (fun x => { x with lastHello := some s.now, peerWidth := flags.testBit 14 })).stat l 9
    if flags.testBit 13 && !x.peerUp then (s1.onLport l (fun x => { x with peerUp := true, hist := [] })).postPort l Ev.peerUp [] else s1))

/-- PEER_TIMEOUT: no hello for 300 ms. -/
def execPeerTimeout (l : Nat) (s : State) : Out :=
  let x := s.lport l
  onUnit (decide (l < 384)) (s.when (match x.lastHello with | some t => decide (t + tkMs 300 ≤ s.now) | none => false) (fun s => s.peerDown l 0))

/-! ### Degraded width (R58–R61) -/

/-- May a sub-port lose lanes and stay up (R58): 8 × 400G, peer mode up, both ends WIDTH_CAP? -/
def widthCapable (x : Lport) : Bool := x.linkUp && x.peerUp && x.peerWidth && cfgLanes x.conf == 8 && cfgRate x.conf == 2

/-- The pair of a lane within its port, as a bit. -/
def pairBit (map j : Nat) : Nat := setBit map j true

/-- What a fault of pair j makes of the pairs out: with a change under way, of those the change takes out (R61). -/
def faultTarget (x : Lport) (j : Nat) : Nat :=
  match x.step with
  | some w => if w.restoring then pairBit x.lanesOut j else pairBit w.target j
  | none => pairBit x.lanesOut j

/-- LANE_FAULT (R58, R59, R61): where degraded width applies, the pair goes out by a width change, while at least four lanes remain;
a restoration under way is abandoned. Elsewhere the sub-port goes down. -/
def execLaneFault (lane : Nat) (s : State) : Out :=
  onUnit (decide (lane < 384)) (match s.lportOfLane lane with
    | none => s
    | some l =>
      let x := s.lport l
      let j := lane % 8 / 2
      if !x.linkUp then s
      else if widthCapable x then
        let t := faultTarget x j
        let s1 := s.report (Report.of Fc.peerLaneFault Lv.lane lane (s.portStage (l / 8)) (9 * 1024 + l) 7 0 j)
        if 2 < pairsOut t then (s1.report (Report.of Fc.laneFault Lv.port l (s.portStage (l / 8)) (9 * 1024 + l) 7 0 j)).downLport l 3
        else s1.onLport l (fun x => { x with
          pairSince := SMap.insert j s.now x.pairSince,
          step := if t = x.lanesOut then none else some { target := t, restoring := false } })
      else (s.report (Report.of Fc.laneFault Lv.port l (s.portStage (l / 8)) (9 * 1024 + l) 7 0 j)).downLport l 3)

/-- WIDTH_CHANGE_ORDERED_SET: the other end of a fault receives the ordered set naming the pair, and holds transmission (R59). -/
def execWidthChangeOrderedSet (l pair : Nat) (s : State) : Out :=
  let x := s.lport l
  onUnit (decide (l < 384) && decide (pair < 4)) (s.when (widthCapable x) (fun s =>
    let t := faultTarget x pair
    if 2 < pairsOut t then s.downLport l 3
    else s.onLport l (fun x => { x with
      pairSince := SMap.insert pair s.now x.pairSince,
      step := if t = x.lanesOut then none else some { target := t, restoring := false } })))

/-- WIDTH_CHANGE (R59, R60): at the alignment marker both ends run at the new width; WIDTH_CHANGE gives the old and the new lane map. -/
def execWidthChange (l : Nat) (s : State) : Out :=
  let x := s.lport l
  onUnit (decide (l < 384)) (match x.step with
    | some w =>
      let s1 := s.onLport l (fun x => { x with
        lanesOut := w.target, step := none, oper := (if x.oper = 4 then 4 else if w.target = 0 then 2 else 3) })
      s1.postPort l Ev.widthChange (leBytes 1 (laneMap x l) ++ leBytes 1 (laneMap (s1.lport l) l) ++ zeros 2)
    | none => s)

/-- RESTORE_HOLD_EXPIRY (R61): a removed pair has run for RESTORE_HOLD without a fault; its restoration begins. -/
def execRestoreHoldExpiry (l pair : Nat) (s : State) : Out :=
  let x := s.lport l
  onUnit (decide (l < 384) && decide (pair < 4)) (s.when (x.linkUp && x.lanesOut.testBit pair && x.step.isNone &&
      (match SMap.find pair x.pairSince with | some t => decide (t + tkS (s.setting 0x36 l) ≤ s.now) | none => false))
    (fun s => s.onLport l (fun x => { x with step := some { target := setBit x.lanesOut pair false, restoring := true } })))

/-! ### Health windows and probation (R62–R65) -/

/-- HEALTH_WINDOW_END: the window's last counts come in, DEGRADED is judged, and the counters clear. -/
def execHealthWindowEnd (l cw corr sym unc : Nat) (s : State) : Out :=
  let x := s.lport l
  onUnit (decide (l < 384)) (s.when (x.linkUp && decide (x.winStart + tkMs (s.setting 0x31 l) ≤ s.now)) (fun s =>
    let s1 := s.fecCount l cw corr sym unc
    let w := (s1.lport l).win
    (s1.setDegraded l (s1.degradedBy l w)).onLport l (fun x => { x with
      last := w, lastEnd := s.localNs, windows := x.windows + 1, win := HealthWin.zero, winStart := s.now })))

/-- PROBATION_START: codewords come in with which the uncorrected count reaches WITHDRAW. During probation it starts nothing; where
the same window makes the sub-port DEGRADED, that is raised first (R64, R65). -/
def execProbationStart (l cw corr sym unc : Nat) (s : State) : Out :=
  let x := s.lport l
  onUnit (decide (l < 384)) (s.when x.linkUp (fun s =>
    let s1 := s.fecCount l cw corr sym unc
    if s.setting 0x34 l ≤ (s1.lport l).win.unc && x.oper != 4 then
      (if s1.degradedBy l (s1.lport l).win then s1.setDegraded l true else s1).startProbation l
    else s1))

/-- PROBATION_END: the last complete window decides (R65): UP again, or DOWN with cause PROBATION and the link retrains. -/
def execProbationEnd (l : Nat) (s : State) : Out :=
  let x := s.lport l
  onUnit (decide (l < 384)) (s.when (x.oper == 4 && (match x.probEnd with | some e => decide (e ≤ s.now) | none => false)) (fun s =>
    if s.degradedBy l x.last then s.downLport l 6
    else (s.onLport l (fun x => { x with probEnd := none, oper := (if x.lanesOut = 0 then 2 else 3) })).postPort l Ev.probationEnd (zeros 4)))

/-! ### Lane reference clocks (R500) -/

/-- REFCLK_LANE_LOSS: every sub-port of tile Tk goes down with cause NO_SIGNAL. -/
def execRefclkLaneLoss (k : Nat) (s : State) : Out :=
  onUnit (decide (k < 8)) (forEach (range (6 * k) 6) (fun p s => s.downPort p 3)
    (s.onPower (fun p => { p with refLost := setBit p.refLost k true })))

/-- REFCLK_LANE_RETURN: the sub-ports of the tile can train again. -/
def execRefclkLaneReturn (k : Nat) (s : State) : Out :=
  onUnit (decide (k < 8)) (s.when (s.power.refLost.testBit k) (fun s =>
    forEach (range (48 * k) 48) (fun l s => if (s.lport l).admin && (s.lport l).oper == 0 && s.portAdmitted (l / 8) then s.trainLport l else s)
      (s.onPower (fun p => { p with refLost := setBit p.refLost k false }))))

/-! ### TEST.LOOPBACK, TEST.PRBS, TEST.STATUS (R70–R72) -/

/-- A test takes the sub-port into LOOPBACK (R70): its link stops, its VOQs are flushed. -/
def State.enterTest (s : State) (l : Nat) : State :=
  if (s.lport l).oper = 6 then s else (s.stopLport l).onLport l (fun x => { x with oper := 6, cause := 0 })

def opTestLoopback : Op := Op.plain 0x1601 .test .reh
def bodyTestLoopback (m : Msg) (s : State) : Answer :=
  let l := m.u16 0
  let kind := m.u8 2
  orDeny [(m.plen != 4, St.badLength), (decide (383 < l) || decide (2 < kind) || m.u8 3 != 0, St.badField),
          (!(s.lport l).configured, St.notFound)] s
    (done (if kind = 0 then (if (s.lport l).loop = 0 then s else s.endLoop 0 l)
           else (s.enterTest l).onLport l (fun x => { x with loop := kind })))
def execTestLoopback (m : Msg) (s : State) : Out := commandRow opTestLoopback bodyTestLoopback m s

def opTestPrbs : Op := Op.plain 0x1602 .test .reh
/-- TEST.PRBS: DIR names generator and checker; PATTERN OFF stops those named. -/
def bodyTestPrbs (m : Msg) (s : State) : Answer :=
  let n := m.u16 0
  let dir := m.u8 2
  let pat := m.u8 3
  orDeny [(m.plen != 8, St.badLength), (decide (383 < n) || decide (3 < dir) || decide (8 < pat) || !m.zero 4 4, St.badField),
          ((s.lportOfLane n).isNone, St.notFound)] s
    (done (
      let x := s.lane n
      let gen := if bitOf dir 0 then pat else x.gen
      let chk := if bitOf dir 1 then pat else x.chk
      if gen = 0 ∧ chk = 0 then (if x.gen = 0 ∧ x.chk = 0 then s else s.endPattern 0 n)
      else
        let s1 := s.onLane n (fun x => { x with
          gen := gen, chk := chk,
          locked := (if bitOf dir 1 then false else x.locked), bits := (if bitOf dir 1 then 0 else x.bits),
          errors := (if bitOf dir 1 then 0 else x.errors) })
        match s.lportOfLane n with | some l => s1.enterTest l | none => s1))
def execTestPrbs (m : Msg) (s : State) : Out := commandRow opTestPrbs bodyTestPrbs m s

/-- PRBS_LOCKED (R72): a running checker locks and counts from zero. -/
def execPrbsLocked (lane : Nat) (s : State) : Out :=
  onUnit (decide (lane < 384)) (s.when ((s.lane lane).chk != 0 && !(s.lane lane).locked)
    (fun s => s.onLane lane (fun x => { x with locked := true, bits := 0, errors := 0 })))
/-- PRBS_LOCK_LOST (R72): the checker loses lock and zeroes both counts. -/
def execPrbsLockLost (lane : Nat) (s : State) : Out :=
  onUnit (decide (lane < 384)) (s.when ((s.lane lane).chk != 0)
    (fun s => s.onLane lane (fun x => { x with locked := false, bits := 0, errors := 0 })))

/-- The PRBS records of TEST.STATUS (R72). -/
def prbsRecords (s : State) : List Byte :=
  let run := s.port.lanes.filter (fun e => e.2.chk != 0)
  leBytes 4 run.length ++ (run.map (fun e => leBytes 2 e.1 ++ leBytes 1 e.2.chk ++ leBytes 1 (flagNat e.2.locked) ++ leBytes 8 e.2.bits ++
    leBytes 8 e.2.errors)).flatten

def opTestStatus : Op := (Op.plain 0x1604 .test .reh).withRS
/-- TEST.STATUS: the injector records, then the PRBS records. A running checker has counted since it locked: `ext` carries what each
lane's checker has counted since the last report, 20 bytes a lane in the layout of the records (log entry 21). -/
def bodyTestStatus (m : Msg) (s : State) : Answer :=
  let counts := match m.ext with | some b => recordsOf b 0 20 (b.length / 20) | none => []
  let s1 := counts.foldl (fun s r =>
    s.onLane (fieldLE r 0 2) (fun x => if x.locked then { x with bits := x.bits + fieldLE r 4 8, errors := x.errors + fieldLE r 12 8 } else x)) s
  orDeny [(m.plen != 0, St.badLength)] s (doneWith (injectorRecords s1 ++ prbsRecords s1) s1)
def execTestStatus (m : Msg) (s : State) : Out := commandRow opTestStatus bodyTestStatus m s

end Sys2Proof.Machine
end

