-- ==== Sys2Proof/Machine/Rings.lean ====
section
/-! DEFINITION. Descriptor rings and the buffer pool manager (chapter 13, R392–R413). -/
namespace Sys2Proof.Machine
open Sys2Proof

/-! ### Control of a ring (R392–R394, R402, R403) -/

/-- A poll interval in ticks: units of 10 ns, held to 5–100,000 (R392). -/
def pollTicks (v : Nat) : Nat := tkNs (10 * (if v < 5 then 5 else if 100000 < v then 100000 else v))

/-- ENABLE is written 1 (R394): the indices return to 0 and the ring runs, or it is in ERROR with cause CFG. -/
def State.enableRing (s : State) (p : Nat) : State :=
  let g := s.ring p
  if g.enable then s
  else
    let zero : Ring := { g with sqProd := 0, sqCons := 0, cqProd := 0, cqCons := 0 }
    if g.assigned && decide (6 ≤ g.logSize) && decide (g.logSize ≤ 16) && decide (2 ≤ s.cmd.mode) then
      s.onRing p (fun _ => { zero with
        enable := true, state := (if ringHeldIn s s.cmd.mode g.kind then 4 else 1), errCause := 0, flushDone := false,
        nextPoll := s.now + pollTicks g.poll })
    else if s.cmd.mode < 2 then s
    else s.onRing p (fun _ => { zero with state := 3, errCause := 3 })

/-- ENABLE is cleared (R403): fetching stops and the ring is OFF once nothing is outstanding; a ring in ERROR is OFF at once. -/
def State.disableRing (s : State) (p : Nat) : State :=
  s.onRing p (fun g => if g.state = 3 then { g with enable := false, state := 0, errCause := 0 } else { g with enable := false }.settle)

/-- May a flush complete an item FLUSHED (R402)? Those not handed on, not started and not being written. -/
def Item.unstarted (i : Item) : Bool := i.phase == ItemPhase.waiting

/-- FLUSH is written 1 (R402): SQ_PROD is sampled, and items fetched and not yet started complete FLUSHED. -/
def State.flushRing (s : State) (p : Nat) (cqOk : Bool) : State :=
  let g := s.ring p
  if g.flush.isSome || !g.enable || g.state == 3 then s
  else
    let s1 := s.onRing p (fun g => { g with flush := some (g.sqProd % g.size), state := 2, flushDone := false })
    (g.items.filter (fun i => i.unstarted)).foldl (fun s i =>
      if (s.ring p).state = 3 then s else s.completeItem p i (Comp.of Rc.flushed) cqOk) s1

/-- RING_ENABLE. -/
def execRingEnable (p : Nat) (s : State) : Out := onUnit (decide (p < 64)) (s.enableRing p)
/-- RING_DISABLE. -/
def execRingDisable (p : Nat) (s : State) : Out := onUnit (decide (p < 64)) (s.disableRing p)
/-- RING_FLUSH. -/
def execRingFlush (p : Nat) (cqOk : Bool) (s : State) : Out := onUnit (decide (p < 64)) (s.flushRing p cqOk)

/-! ### Fetching (R395, R396) -/

/-- The 32 bytes of the i-th entry of those a fetch read. -/
def entryAt (entries : List (List Byte)) (i : Nat) : List Byte :=
  let e := (entries[i]?).getD []
  (e ++ zeros 32).take 32

/-- CHK: byte 31 is 0x5A XOR bytes 0–30 (R396). -/
def chkOk (e : List Byte) : Bool := (e[31]?).getD 0 == (0x5A#8 ^^^ xorBytes (e.take 31))

/-- Every field of an entry lies in its range and every reserved byte is zero (R396–R398, R400). -/
def entryFieldsOk (kind : Nat) (e : List Byte) : Bool :=
  if kind = 0 then
    let flags := fieldLE e 10 1
    zeroAt e 15 1 && zeroAt e 18 10 && zeroAt e 30 1 && decide (flags < 2) && decide (fieldLE e 11 1 < 8) &&
      (if flags = 1 then decide (fieldLE e 14 1 < 8) else (decide (fieldLE e 12 2 < 384) || (decide (392 ≤ fieldLE e 12 2) && decide (fieldLE e 12 2 < 400))))
  else if kind = 2 then zeroAt e 24 4 && zeroAt e 30 1
  else zeroAt e 12 16 && zeroAt e 30 1
/-- A length or size of an entry out of its range completes with BAD_BUFFER (R397, R426). -/
def entrySizesOk (kind : Nat) (e : List Byte) : Bool :=
  let n := fieldLE e 8 4
  if kind = 0 then decide (60 ≤ fieldLE e 8 2) && decide (fieldLE e 8 2 ≤ 15996)
  else if kind = 2 then decide (16 ≤ n) && decide (n ≤ 65536) && decide (16 ≤ fieldLE e 20 4) && decide (fieldLE e 20 4 ≤ 65536)
  else decide (256 ≤ n) && decide (n ≤ 65536)

/-- A torn or malformed entry (R396). -/
def malformed (kind : Nat) (e : List Byte) : Bool := !chkOk e || !entryFieldsOk kind e

/-- Fetch one entry: a malformed one, or one whose length or size is out of range, completes at once with the ID as read; another waits
(R395, R396, R426). While a flush runs every
entry completes FLUSHED and nothing else is read (R402). -/
def State.fetchEntry (s : State) (p : Nat) (e : List Byte) (cqOk : Bool) : State :=
  let g := s.ring p
  if g.state = 3 then s
  else
    let s1 := s.onRing p (fun g => { g with sqCons := (g.sqCons + 1) % g.size, fetched := g.fetched + 1 })
    if g.flush.isSome then s1.completeId p (fieldLE e 28 2) (Comp.of Rc.flushed) cqOk
    else if malformed g.kind e then s1.completeId p (fieldLE e 28 2) (Comp.of Rc.malformed) cqOk
    else if !entrySizesOk g.kind e then s1.completeId p (fieldLE e 28 2) (Comp.of Rc.badBuffer) cqOk
    else s1.onRing p (fun g => { g with items := g.items ++ [{ id := fieldLE e 28 2, entry := e, phase := ItemPhase.waiting, buffer := none }] })

/-- Fetch up to n entries. -/
def State.fetchN (s : State) (p : Nat) (entries : List (List Byte)) (n : Nat) (cqOk : Bool) : State :=
  forEach (range 0 n) (fun i s => s.fetchEntry p (entryAt entries i) cqOk) s

/-- RING_POLL (R395): once per interval the engine samples SQ_PROD and fetches the published entries it can reserve completion
entries for. `entries` is what the fetch reads from host memory; a fetch error stops the ring (R403). -/
def execRingPoll (p : Nat) (entries : List (List Byte)) (fetchOk cqOk : Bool) (s : State) : Out :=
  let g := s.ring p
  let n := min (g.published g.sqProd) g.freeCq
  onUnit (decide (p < 64)) (s.when (g.enable && g.state == 1 && decide (g.nextPoll ≤ s.now)) (fun s =>
    let s1 := s.onRing p (fun g => { g with nextPoll := s.now + pollTicks g.poll })
    if n = 0 then s1 else if !fetchOk then s1.ringError p 1 else s1.fetchN p entries n cqOk))

/-- FLUSH_DONE (R402): the entries up to P are fetched and completed FLUSHED as completion space allows; when SQ_CONS is P and
nothing is outstanding the flush ends. -/
def execFlushDone (p : Nat) (entries : List (List Byte)) (fetchOk cqOk : Bool) (s : State) : Out :=
  let g := s.ring p
  onUnit (decide (p < 64)) (match g.flush with
    | none => s
    | some P =>
      let n := min (g.published P) g.freeCq
      let s1 := if n = 0 then s else if !fetchOk then s.ringError p 1 else s.fetchN p entries n cqOk
      let g1 := s1.ring p
      if g1.flush.isSome && g1.sqCons == P % g1.size && g1.items.isEmpty then
        (s1.onRing p (fun g => ({ g with
          flush := none, flushDone := true, state := (if ringHeldIn s s.cmd.mode g.kind then 4 else 1) }).settle)).raiseIrq p
      else s1)

/-! ### DUMP (R400, R401) -/

/-- DUMP_FILL: one fragment of the oldest bulk transfer of the pair fills its oldest posted buffer. The last fragment ends the
command's transfer. -/
def State.dumpFill (s : State) (p : Nat) (dmaOk cqOk : Bool) : State :=
  let g := s.ring p
  match s.host.dumps.find? (fun d => d.pair == p), g.firstIn .waiting with
  | some d, some it =>
    let size := fieldLE it.entry 8 4
    match s.allocBuffer p g.stage size with
    | none => s.completeItem p it (Comp.of Rc.noPool) cqOk
    | some (key, s1) =>
      let it1 : Item := { it with buffer := some key }
      let s2 := s1.setItem p it it1
      if !dmaOk then s2.completeItem p it1 (Comp.of Rc.dmaError) cqOk
      else
        let data := d.left.take size
        let rest := d.left.drop size
        let last := rest.isEmpty
        let s3 := ((s2.hostWrite (fieldLE it.entry 0 8) data).moved p data.length).onHost (fun h => { h with
          dumps := if last then h.dumps.erase d
                   else h.dumps.map (fun (x : DumpJob) => if x = d then { d with left := rest, fragment := d.fragment + 1 } else x) })
        let s4 := s3.completeItem p it1 { code := Rc.ok, b3 := flagNat last, w4 := data.length, w8 := d.tag, w12 := d.fragment } cqOk
        if last then s4.finishPlain d.mb d.opcode St.done 0 else s4
  | _, _ => s
def execDumpFill (p : Nat) (dmaOk cqOk : Bool) (s : State) : Out :=
  let g := s.ring p
  onUnit (decide (p < 64)) (s.when (g.kind == 3 && (g.state == 1 || g.state == 2)) (fun s => s.dumpFill p dmaOk cqOk))

/-! ### The sheepdog (R408) -/

/-- The ring item that holds a buffer, if a ring pair owns it. -/
def State.itemOfBuffer (s : State) (owner key : Nat) : Option Item :=
  if owner < 64 then (s.ring owner).items.find? (fun i => i.buffer == some key) else none

/-- Reclaim a buffer: it is freed and its GEN advances; an item that held it completes with BAD_BUFFER, and a punt frame in it is
discarded and counted (R408). -/
def State.reclaim (s : State) (key : Nat) (b : Buffer) (cqOk : Bool) : State :=
  let s1 := (s.freeBuffer key).onPools (fun p => { p with gens := SMap.put 0 key ((b.gen + 1) % 65536) p.gens })
  let s2 := s1.post b.stage Ev.sheepdogReclaim Lv.device 0 (leBytes 2 b.owner ++ leBytes 1 b.stage ++ zeros 1 ++ leBytes 4 (handleOf key b.gen))
  match s.itemOfBuffer b.owner key with
  | some it =>
    let s3 := if (s.ring b.owner).kind = 1 then s2.bump 8 b.stage 0xBC else s2
    (s3.setItem b.owner it { it with buffer := none }).completeItem b.owner { it with buffer := none } (Comp.of Rc.badBuffer) cqOk
  | none => s2

/-- The sheepdog looks at one buffer. -/
def State.visitBuffer (s : State) (cqOk : Bool) (key : Nat) : State :=
  match s.buffer key with
  | none => s
  | some b =>
    let lim := s.host.pools.limitsOf b.owner
    let age := s.now - b.since
    if tkMs lim.ageReclaim < age then s.reclaim key b cqOk
    else if tkMs lim.ageWarn < age && !b.warned then
      (s.onPools (fun p => { p with buffers := SMap.adjust key (fun b => { b with warned := true }) p.buffers })).post b.stage
        Ev.sheepdogStale Lv.device 0 (leBytes 2 b.owner ++ leBytes 1 b.stage ++ zeros 1 ++ leBytes 4 (handleOf key b.gen) ++
          leBytes 8 ((10 * ((b.since - s.time.zero) / 660)) % 2 ^ 64))
    else s

/-- SHEEPDOG_VISIT: every allocated buffer is visited. -/
def execSheepdogVisit (cqOk : Bool) (s : State) : Out :=
  .next (forEach (s.host.pools.buffers.map (fun e => e.1)) (fun k s => s.visitBuffer cqOk k) s)

/-! ### Commands (R411) -/

def opRingAssign : Op := Op.plain 0x1401 .owner .cfg
/-- RING.ASSIGN: pair, stage, kind, HOSTQ. At most eight PUNT pairs serve one host queue of a stage (R398). -/
def bodyRingAssign (m : Msg) (s : State) : Answer :=
  let p := m.u8 0
  let k := m.u8 1
  let kind := m.u8 2
  let q := m.u8 3
  let peers := ((range 0 64).filter (fun j => j != p && (s.ring j).assigned && (s.ring j).kind == 1 && (s.ring j).stage == k &&
    (s.ring j).hostq == q)).length
  orDeny [(m.plen != 4, St.badLength),
          (decide (63 < p) || decide (4 < k) || !s.stageLive k || decide (3 < kind) || decide (7 < q) || (kind != 1 && q != 0) ||
            (kind == 1 && decide (8 ≤ peers)), St.badField),
          ((s.ring p).state != 0 || (s.ring p).enable, St.busy)] s
    (done (s.onRing p (fun g => { g with stage := k, kind := kind, hostq := q, assigned := true })))
def execRingAssign (m : Msg) (s : State) : Out := commandRow opRingAssign bodyRingAssign m s

def opRingPools : Op := Op.plain 0x1402 .owner .h
/-- RING.POOLS: four buffer counts (R405). -/
def bodyRingPools (m : Msg) (s : State) : Answer :=
  let counts := [m.u32 0, m.u32 4, m.u32 8, m.u32 12]
  orDeny [(m.plen != 16, St.badLength), (counts.any (fun c => decide (16384 < c)), St.badField),
          (decide (48 * 1048576 < poolsBytes counts), St.noSpace)] s
    (done (s.onPools (fun p => { p with counts := counts })))
def execRingPools (m : Msg) (s : State) : Out := commandRow opRingPools bodyRingPools m s

def opRingQuota : Op := Op.plain 0x1403 .owner .all
/-- RING.QUOTA: a side stage's quota in KiB, taken from S0's (R406). -/
def bodyRingQuota (m : Msg) (s : State) : Answer :=
  let k := m.u8 0
  let v := m.u32 4
  let others := (s.host.pools.quotas.filter (fun e => e.1 != k)).foldl (fun a e => a + e.2) 0
  orDeny [(m.plen != 8, St.badLength), (decide (k < 1) || decide (4 < k) || !m.zero 1 3 || !s.stageLive k, St.badField),
          (decide (48 * 1024 < others + v), St.noSpace),
          (decide (1024 * v < s.host.pools.stageBytes k) || decide ((48 * 1024 - others - v) * 1024 < s.host.pools.stageBytes 0), St.busy)] s
    (done (s.onPools (fun p => { p with quotas := SMap.put 0 k v p.quotas })))
def execRingQuota (m : Msg) (s : State) : Out := commandRow opRingQuota bodyRingQuota m s

/-- Is an owner of buffers one of a stage's own (R406)? A ring pair of the stage, or its mailbox; MB5–MB7 and the recorder are S0's. -/
def State.ownsOwner (s : State) (k o : Nat) : Bool :=
  if o < 64 then (s.ring o).stage == k else if o < 72 then stageOfMb (o - 64) == k else k == 0

def opRingCap : Op := (Op.plain 0x1404 .stage .all).withRS
/-- RING.CAP: an owner's cap in KiB and its age limits in ms (R406, R408). -/
def bodyRingCap (m : Msg) (s : State) : Answer :=
  let o := m.u16 0
  let warn := m.u32 8
  let recl := m.u32 12
  orDeny [(m.plen != 16, St.badLength),
          (decide (72 < o) || !m.zero 2 2 || decide (49152 < m.u32 4) || decide (warn < 10) || decide (600000 < warn) || decide (recl < warn) ||
            decide (3600000 < recl), St.badField),
          (!s.ownsOwner (s.stageOf m) o, St.notPermitted)] s
    (done (s.onPools (fun p => { p with
      limits := SMap.insert o { capKiB := m.u32 4, ageWarn := warn, ageReclaim := recl } p.limits })))
def execRingCap (m : Msg) (s : State) : Out := commandRow opRingCap bodyRingCap m s

def opRingRelease : Op := (Op.plain 0x1405 .stage .all).withRS
/-- RING.RELEASE: a retained buffer is freed; another stage's handle is NOT_FOUND and one whose GEN no longer matches STALE (R407). -/
def bodyRingRelease (m : Msg) (s : State) : Answer :=
  let h := m.u32 0
  let key := keyOfHandle h
  let b := s.buffer key
  orDeny [(m.plen != 4, St.badLength),
          ((match b with | some x => x.gen == genOfHandle h && x.stage != s.stageOf m | none => false), St.notFound),
          ((match b with | some x => x.gen != genOfHandle h || !x.retained | none => true), St.stale)] s
    (done (s.freeBuffer key))
def execRingRelease (m : Msg) (s : State) : Out := commandRow opRingRelease bodyRingRelease m s

/-- The age in ms of an owner's oldest buffer. -/
def State.oldestMs (s : State) (o : Nat) : Nat :=
  (s.host.pools.buffers.filter (fun e => e.2.owner == o)).foldl (fun a e => max a ((s.now - e.2.since) / tkMs 1)) 0

/-- RING.STATUS's payload (log entry 21): free buffers of the four pools (zero for a side stage), the stages' bytes and quotas, then the
owners' bytes and oldest ages, then the pairs' states; only the stage's own, except for the owner. -/
def ringStatusPayload (k : Nat) (s : State) : List Byte :=
  let p := s.host.pools
  let stages := if k = 0 then range 0 5 else [k]
  let owners := (range 0 73).filter (fun o => k == 0 || s.ownsOwner k o)
  let pairs := (range 0 64).filter (fun j => (k == 0 || (s.ring j).stage == k) && (s.ring j).assigned)
  ((range 0 4).map (fun j => leBytes 4 (if k = 0 then p.freeOf j else 0))).flatten ++
    (stages.map (fun j => leBytes 1 j ++ zeros 3 ++ leBytes 4 (p.stageBytes j) ++ leBytes 4 (p.quota j))).flatten ++
    (owners.map (fun o => leBytes 2 o ++ zeros 2 ++ leBytes 4 (p.ownerBytes o) ++ leBytes 4 (s.oldestMs o))).flatten ++
    (pairs.map (fun j => leBytes 1 j ++ leBytes 1 (s.ring j).state ++ leBytes 1 (s.ring j).errCause ++
      leBytes 1 (flagNat (s.ring j).enable + 128 * flagNat (s.mismatchOf (3000 + j))))).flatten

def opRingStatus : Op := (Op.plain 0x1406 .read .all).withRS
def bodyRingStatusCmd (m : Msg) (s : State) : Answer :=
  orDeny [(m.plen != 0, St.badLength)] s (doneWith (ringStatusPayload (s.stageOf m) s) s)
def execRingStatusCmd (m : Msg) (s : State) : Out := commandRow opRingStatus bodyRingStatusCmd m s

end Sys2Proof.Machine
end

