-- ==== Sys2Proof/Machine/Punt.lean ====
section
/-! DEFINITION. Frames from and to the host (R397–R399, R483, R485): INJECT items, punts, captured frames and flow samples. -/
namespace Sys2Proof.Machine
open Sys2Proof

/-! ### Injection (R397) -/

/-- The exit or tile of an INJECT entry lies outside its ring's stage. -/
def State.injectDenied (s : State) (k : Nat) (e : List Byte) : Bool :=
  let x := fieldLE e 12 2
  if bitOf (fieldLE e 10 1) 0 then !(s.stageTiles k).contains (fieldLE e 14 1)
  else if x < 384 then !s.ownsLport k x else !(s.stageTiles k).contains (x - 392)

/-- The packet of an injected frame. -/
def injectPkt (p k tsIn : Nat) (e frame : List Byte) : Pkt :=
  let lookup := bitOf (fieldLE e 10 1) 0
  let x := fieldLE e 12 2
  let f := (frame ++ zeros (fieldLE e 8 2 - frame.length)).take (fieldLE e 8 2)
  { Pkt.zero with
    tile := if lookup then fieldLE e 14 1 else tileOfExit x, src := 49, frame := f ++ fcsOf f, verdict := some true,
    inj := some { ring := p, id := fieldLE e 28 2, lookup := lookup, rd := fieldLE e 16 2 },
    ctx := { Ctx.zero with
      stage := k, inLport := 511, exit := (if lookup then 0 else x), tc := fieldLE e 11 1 % 8, len := f.length + 4, tsIn := tsIn } }

/-- INJECT_ITEM: the oldest fetched entry of a pair; `frame` is what its buffer in host memory holds, `dmaOk` says that it could be read. -/
def execInjectItem (p : Nat) (frame : List Byte) (dmaOk cqOk : Bool) (s : State) : Out :=
  let g := s.ring p
  onUnit (decide (p < 64)) (s.when (g.kind == 0 && g.state == 1) (fun s =>
    match g.firstIn .waiting with
    | none => s
    | some it =>
      if s.injectDenied g.stage it.entry then s.completeItem p it (Comp.of Rc.stageDenied) cqOk
      else match s.allocBuffer p g.stage (fieldLE it.entry 8 2) with
        | none => s.completeItem p it (Comp.of Rc.noPool) cqOk
        | some (key, s1) =>
          let it1 : Item := { it with buffer := some key }
          let s2 := s1.setItem p it it1
          if !dmaOk then s2.completeItem p it1 (Comp.of Rc.dmaError) cqOk
          else
            ((s2.setItem p it1 { it1 with phase := .inTile }).moved p (fieldLE it.entry 8 2)).addPkt
              (injectPkt p g.stage (s.netLinear % 2 ^ 24) it.entry frame)))

/-- INJECT_COMPLETION: the fate of an injected frame is known, and its completion is written. -/
def execInjectCompletion (p : Nat) (cqOk : Bool) (s : State) : Out :=
  let g := s.ring p
  let fate (i : Item) : Option Nat := match i.phase with | .fated f => some f | _ => none
  onUnit (decide (p < 64)) (s.when (g.kind == 0 && g.state != 3) (fun s =>
    match g.items.find? (fun i => (fate i).isSome) with
    | some it => s.completeItem p it { Comp.of Rc.ok with b3 := (fate it).getD 0 } cqOk
    | none => s))

/-! ### Punts (R398, R399) -/

/-- FLAGS of a punt header. -/
def puntFlags (p : Pkt) (survey retained truncated : Bool) : Nat :=
  flagNat survey + 2 * flagNat retained + 4 * flagNat p.ctx.px + 8 * flagNat p.ctx.late + 16 * flagNat p.ctx.unscanned + 32 * flagNat truncated
/-- The 64-byte punt header, RETAINED, TRUNCATED and HANDLE clear. -/
def puntHeader (p : Pkt) (q time : Nat) (survey : Bool) : List Byte :=
  leBytes 2 (p.ctx.len - 4) ++ leBytes 1 p.lk.reason ++ leBytes 1 (puntFlags p survey false false) ++ leBytes 2 p.ctx.inLport ++
    leBytes 1 p.ctx.stage ++ leBytes 1 p.ctx.ver ++ leBytes 1 p.ctx.tc ++ leBytes 1 p.ctx.col ++ leBytes 1 p.ctx.pxCode ++
    leBytes 1 p.exc ++ leBytes 1 p.excSub ++ leBytes 1 q ++ zeros 2 ++ leBytes 4 p.ctx.nhop ++ leBytes 2 p.lk.origExit ++ zeros 2 ++
    leBytes 4 p.ctx.tsIn ++ leBytes 8 time ++ zeros 28
/-- The header as delivered: RETAINED with the handle, TRUNCATED. -/
def finishHeader (h : List Byte) (handle : Option Nat) (truncated : Bool) : List Byte :=
  let f := fieldLE h 3 1 + (if handle.isSome then 2 else 0) + (if truncated then 32 else 0)
  h.take 3 ++ leBytes 1 f ++ (h.drop 4).take 32 ++ leBytes 4 (handle.getD 0) ++ h.drop 40

/-- A survey of a buffer: none where its frame has none, the record once the job has ended. -/
def State.surveyOf (s : State) (handle : Nat) : Option Survey := SMap.find handle s.tab.surveys
def State.surveyWaits (s : State) (handle : Nat) : Bool := match s.surveyOf handle with | some j => !j.done | none => false

/-- The handle a buffer has now. -/
def State.handleAt (s : State) (key : Nat) : Nat := handleOf key (((s.buffer key).map (fun b => b.gen)).getD 0)

/-- The head of a lane of a host exit, whole and good. -/
def State.hostHead (s : State) (k q t c : Nat) : Option (Nat × Pkt) :=
  match (s.voq (voqKey t (384 + q) c k)).head? with
  | none => none
  | some id => match s.pkt id with
    | some p => if p.phase == .queued && p.verdict == some true then some (id, p) else none
    | none => none

/-- A cell of a frame is read: corrected, or uncorrectable, with the frame then discarded. -/
def State.readCell (s : State) (p : Pkt) (err cell : Nat) : State :=
  if err = 1 then (s.bump p.tile 0 0xE4).report (Report.of Fc.sramCe Lv.tile p.tile p.ctx.stage (10 * 1024 + p.tile) 0 cell 0) else s

/-- A frame leaves its lane: its cells are free. -/
def State.leaveLane (s : State) (id : Nat) (p : Pkt) : State := ((s.leaveVoqs id).erasePkt id).settleQueue p.ctx.exit p.ctx.tc

/-- Is a frame's class surveyed at its version (R218)? -/
def State.surveyed (s : State) (p : Pkt) : Bool := srSurvey (s.scanRecord p.ctx.stage p.ctx.ver p.ctx.tc)

/-- A frame is put into a pool buffer of an owner; its survey job, if any, begins. -/
def State.fillBuffer (s : State) (key id : Nat) (p : Pkt) (q : Nat) : State :=
  let sv := s.surveyed p
  let body := p.frame.take (p.ctx.len - 4)
  let s1 := (s.onPools (fun x => { x with
    buffers := SMap.adjust key (fun b => { b with data := puntHeader p q s.localNs sv ++ body }) x.buffers })).leaveLane id p
  if sv then s1.addSurvey p.tile p.ctx.stage p.ctx.ver (s1.handleAt key) none body else s1

/-- The survey record that goes with a buffer, and whether it has MORE set. -/
def State.surveyBytes (s : State) (key : Nat) : List Byte :=
  match s.surveyOf (s.handleAt key) with | some j => j.record | none => []
def surveyMore (rec_ : List Byte) : Bool := bitOf (fieldLE rec_ 5 1) 2

/-- Write a filled buffer to the host buffer of its item and complete it. -/
def State.writePunt (s : State) (p : Nat) (it : Item) (key : Nat) (dmaOk cqOk : Bool) : State :=
  let data := ((s.buffer key).map (fun b => b.data)).getD []
  if !dmaOk then s.completeItem p it (Comp.of Rc.dmaError) cqOk
  else
    let rec_ := s.surveyBytes key
    let handle := if surveyMore rec_ then some (s.handleAt key) else none
    let size := fieldLE it.entry 8 4
    let cut := decide (size < data.length + rec_.length)
    let h := finishHeader (data.take 64) handle cut
    let out := (h ++ rec_ ++ data.drop 64).take size
    let s1 := if handle.isSome then s.retainBuffer key (data.drop 64) else s
    ((s1.hostWrite (fieldLE it.entry 0 8) out).moved p out.length).completeItem p it
      { code := (if cut then Rc.truncated else Rc.ok), b3 := fieldLE h 3 1, w4 := out.length, w8 := handle.getD 0, w12 := 0 } cqOk

/-- A captured frame is kept by its session: SNAPLEN bytes of it, its header and survey record. -/
def State.keepCapture (s : State) (key k j : Nat) : State :=
  let data := ((s.buffer key).map (fun b => b.data)).getD []
  let c := s.capSession k j
  let body := (data.drop 64).take c.snapLen
  let f : CapFrame := { at_ := s.netLinear, header := data.take 64 ++ s.surveyBytes key, data := body }
  let s1 := s.freeBuffer key
  if s.shareSuspended 4 k then s1.shareRefused k 4
  else if c.state = 1 ∨ c.state = 2 then (s1.onCapture k j (fun c => c.take f)).shareTraffic k 4 0 (64 * ((f.header.length + body.length + 63) / 64))
  else s1

/-- A punt whose survey has ended, if any: the oldest of the stage's queue. -/
def State.puntDue (s : State) (k q : Nat) : Option (Nat × Item × Nat) :=
  (range 0 64).findSome? (fun j =>
    let g := s.ring j
    if g.kind == 1 && g.stage == k && g.hostq == q && g.state != 3 then
      g.items.findSome? (fun i => match i.buffer with
        | some key => if i.phase == .reserved && !s.surveyWaits (s.handleAt key) then some (j, i, key) else none
        | none => none)
    else none)
/-- A captured frame whose survey has ended, or whose buffer is gone. -/
def State.captureDue (s : State) (k q : Nat) : Option (Nat × Nat) :=
  s.host.capWait.find? (fun w => w.2 / 4 == k && (s.capSession k (w.2 % 4)).hostq == q && !s.surveyWaits (s.handleAt w.1))

/-- Bytes a punt asks of the pools (R405). -/
def State.puntBytes (s : State) (p : Pkt) : Nat := p.ctx.len - 4 + 64 + (if s.surveyed p then 64 else 0)

/-- A frame is granted to a pair or a capture session d: it moves into its buffer, and is completed at once where no survey of it waits. -/
def State.grantPunt (s : State) (k q d id : Nat) (p : Pkt) (err cell key : Nat) (dmaOk cqOk : Bool) : State :=
  let s2 := ((s.readCell p err cell).fillBuffer key id p q).onHost (fun h => { h with puntRot := SMap.insert (k * 8 + q) d h.puntRot })
  if d < 64 then
    (match (s2.ring d).firstIn .waiting with
     | none => s2
     | some it =>
       let it1 : Item := { it with phase := .reserved, buffer := some key }
       let s3 := s2.setItem d it it1
       if s3.surveyWaits (s3.handleAt key) then s3 else s3.writePunt d it1 key dmaOk cqOk)
  else if s2.surveyWaits (s2.handleAt key) then s2.onHost (fun h => { h with capWait := h.capWait ++ [(key, k * 4 + (d - 64))] })
  else s2.keepCapture key k (d - 64)

/-- PUNT_WRITE: a punt or captured frame whose survey has ended is completed; otherwise the head of lane (t, c) of host queue q is granted to
the next ready pair or capture session, and completed at once where it has no survey. `err` and `cell` are what reading its cells finds. -/
def execPuntWrite (k q t c err cell : Nat) (dmaOk cqOk : Bool) (s : State) : Out :=
  onUnit (decide (k < 5) && decide (q < 8) && decide (t < 8) && decide (c < 8))
    (match s.puntDue k q, s.captureDue k q with
     | some (j, it, key), _ => s.writePunt j it key dmaOk cqOk
     | none, some w => ((s.keepCapture w.1 k (w.2 % 4)).onHost (fun h => { h with capWait := h.capWait.erase w }))
     | none, none =>
       match s.hostHead k q t c, s.nextDest k q with
       | some (id, p), some d =>
         if 68 ≤ d then s
         else if err = 2 then s.cellError id p cell
         else match s.allocBuffer (if d < 64 then d else 72) k (s.puntBytes p) with
           | none => s
           | some (key, s1) => s1.grantPunt k q d id p err cell key dmaOk cqOk
       | _, _ => s)

/-- FLOW_SAMPLE: the head of lane (t, c) of host queue q goes to the flow session whose turn it is. -/
def execFlowSample (k q t c err cell : Nat) (s : State) : Out :=
  onUnit (decide (k < 5) && decide (q < 8) && decide (t < 8) && decide (c < 8))
    (match s.hostHead k q t c, s.nextDest k q with
     | some (id, p), some d =>
       if d < 68 then s
       else if err = 2 then s.cellError id p cell
       else
         let s1 := ((s.readCell p err cell).leaveLane id p).onHost (fun h => { h with puntRot := SMap.insert (k * 8 + q) d h.puntRot })
         s1.sampleFlow k (d - 68) p.ctx.inLport p.ctx.len (p.frame.take (p.ctx.len - 4))
     | _, _ => s)

end Sys2Proof.Machine
end

