-- ==== Sys2Proof/Machine/Rules.lean ====
section
/-! DEFINITION. The RULE group (R157–R170) and RESPACED. -/
namespace Sys2Proof.Machine
open Sys2Proof

/-! ### RULE.BLOCK (R170) -/

def opRuleBlock : Op := Op.plain 0x0801 .owner .cfg
def bodyRuleBlock (m : Msg) (s : State) : Answer :=
  let b := m.u8 0
  let k := m.u8 1
  let old := (s.block b).stage
  orDeny [(m.plen != 8, St.badLength),
          (decide (31 < b) || decide (4 < k) || !s.stageLive k || decide (15 < m.u8 2) || decide (m.u8 3 < 2) || decide (6 < m.u8 3) || !m.zero 4 4,
            St.badField),
          (!(s.block b).rules.isEmpty || (s.banksInUse old).any (fun c => c.presel.any (fun e =>
            e.2.getD 2 63 == b || e.2.getD 3 63 == b)), St.busy)] s
    (done ((s.cleanBlock b).onBlock b (fun _ => { stage := k, layout := m.u8 2, holeLog := m.u8 3, rules := [], exhausted := false })))
def execRuleBlock (m : Msg) (s : State) : Out := commandRow opRuleBlock bodyRuleBlock m s

/-! ### RULE.LAYOUT, RULE.RANGE, RULE.PRESELECT and RULE.DEFAULT (R157–R159, R163; log entry for their payloads) -/

/-- A lane source of R157. -/
def laneSourceOk (x : Nat) : Bool := decide (x ≤ 0x48) || x == 0xFF

def opRuleLayout : Op := (Op.plain 0x0802 .stage .cfg).withRS
def bodyRuleLayout (m : Msg) (s : State) : Answer :=
  let k := s.stageOf m
  let lanes := (range 1 15).map m.u8
  orDeny ([(m.plen != 16, St.badLength), (decide (15 < m.u8 0) || !lanes.all laneSourceOk, St.badField)] ++ bankChecks s k) s
    (done (s.stageCfg k (fun c => { c with layouts := SMap.insert (m.u8 0) lanes c.layouts })))
def execRuleLayout (m : Msg) (s : State) : Out := commandRow opRuleLayout bodyRuleLayout m s

/-- A source a comparator may read (R158). -/
def rangeSourceOk (x : Nat) : Bool := decide (x ≤ 0x3F) || x == 0x42 || x == 0x43 || x == 0x47 || x == 0x48

def opRuleRange : Op := (Op.plain 0x0803 .stage .cfg).withRS
def bodyRuleRange (m : Msg) (s : State) : Answer :=
  let k := s.stageOf m
  let c := m.u8 0
  orDeny ([(m.plen != 8, St.badLength),
           (decide (63 < c) || !rangeSourceOk (m.u8 1) || decide (16 < m.u8 2) || decide (1 < m.u8 3), St.badField),
           (s.othersHold k (fun b => SMap.has c b.ranges), St.notPermitted)] ++ bankChecks s k) s
    (done (s.stageCfg k (fun x => { x with ranges := SMap.insert c [m.u8 1, m.u8 2, m.u16 4, m.u16 6, m.u8 3] x.ranges })))
def execRuleRange (m : Msg) (s : State) : Out := commandRow opRuleRange bodyRuleRange m s

def opRulePreselect : Op := (Op.plain 0x0804 .stage .cfg).withRS
def bodyRulePreselect (m : Msg) (s : State) : Answer :=
  let k := s.stageOf m
  let e := m.u8 0
  let blks := [m.u8 1, m.u8 2]
  let value := beNat (sliceB m.payload 4 12)
  let mask := beNat (sliceB m.payload 16 12)
  orDeny ([(m.plen != 28, St.badLength),
           (decide (63 < e) || decide (1 < m.u8 3) || blks.any (fun b => decide (31 < b) && b != 0x3F) || value &&& mask != value ||
             bitsOf value 0 5 != 0 || bitsOf mask 0 5 != 0, St.badField),
           (s.othersHold k (fun b => SMap.has e b.presel) || blks.any (fun b => b != 0x3F && (s.block b).stage != k), St.notPermitted)] ++
          bankChecks s k) s
    (done (s.stageCfg k (fun x => { x with
      presel := if m.u8 3 = 1 then SMap.insert e ([value, mask] ++ blks) x.presel else SMap.erase e x.presel })))
def execRulePreselect (m : Msg) (s : State) : Out := commandRow opRulePreselect bodyRulePreselect m s

def opRuleDefault : Op := (Op.plain 0x0805 .stage .cfg).withRS
/-- A default action word: CHK, which the device sets in entries, is zero. -/
def defaultOk (a : Nat) : Bool := actionOk a && bitsOf a 40 4 == 0
def bodyRuleDefault (m : Msg) (s : State) : Answer :=
  let k := s.stageOf m
  let a := fieldLE m.payload 0 16
  let b := fieldLE m.payload 16 16
  orDeny ([(m.plen != 32, St.badLength), (!defaultOk a || !defaultOk b, St.badField)] ++ bankChecks s k) s
    (done (s.stageCfg k (fun x => { x with dflt := a, dfltPx := b })))
def execRuleDefault (m : Msg) (s : State) : Out := commandRow opRuleDefault bodyRuleDefault m s

/-! ### RULE.ADD and RULE.DELETE (R166–R169) -/

/-- The rule a RULE.ADD carries, valid in the next version only. -/
def State.ruleOf (s : State) (k : Nat) (m : Msg) : Rule :=
  let n := s.tab.arrivals + 1
  { vmask := s.nextMask k, stage := k, chk := n % 16, value := beNat (sliceB m.payload 8 60), mask := beNat (sliceB m.payload 68 60),
    action := putBits (fieldLE m.payload 128 16) 40 4 n, prio := m.u32 4, ruleId := m.u32 144, arrival := n }

/-- Insert the rule; HOLES_EXHAUSTED where the block now holds more than its holes allow. -/
def State.addRule (s : State) (k b : Nat) (m : Msg) : Answer :=
  match (s.block b).insertRule (s.ruleOf k m) with
  | some x => done (((((s.onBlock b (fun _ => x)).cleanBlock b).onTab (fun t => { t with arrivals := t.arrivals + 1 })).setBatch k).checkHoles b)
  | none => deny St.noSpace s

def opRuleAdd : Op := (Op.plain 0x0806 .stage .cfg).withRS
def bodyRuleAdd (m : Msg) (s : State) : Answer :=
  let k := s.stageOf m
  let b := m.u8 0
  let r := s.ruleOf k m
  orDeny ([(m.plen != 148, St.badLength),
           (decide (31 < b) || !m.zero 1 3 || r.value &&& r.mask != r.value || !actionOk r.action, St.badField),
           ((s.block b).stage != k || (actPolEn r.action && !s.ownsPolicer k (actPolicer r.action)), St.notPermitted)] ++ stagingChecks s k) s
    (if s.holdsWrites k then hold (s.holdCommand 0x0806 k 1 m)
     else if (s.findRule k r.ruleId (s.nextMask k)).isSome then deny St.badField s
     else s.addRule k b m)
def execRuleAdd (m : Msg) (s : State) : Out := commandRow opRuleAdd bodyRuleAdd m s

/-- Clear a rule's next-version bit; valid in no version, it is gone. -/
def State.dropRule (s : State) (k b p : Nat) (r : Rule) : State :=
  let left := if r.vmask = 3 then s.curMask k else 0
  (s.onBlock b (fun x => { x with rules := if left = 0 then SMap.erase p x.rules else SMap.insert p { r with vmask := left } x.rules })).setBatch k

def opRuleDelete : Op := (Op.plain 0x0807 .stage .cfg).withRS
def bodyRuleDelete (m : Msg) (s : State) : Answer :=
  let k := s.stageOf m
  orDeny ([(m.plen != 4, St.badLength)] ++ stagingChecks s k) s
    (if s.holdsWrites k then hold (s.holdCommand 0x0807 k 1 m)
     else match s.findRule k (m.u32 0) (s.nextMask k) with
       | some (b, p, r) => done (s.dropRule k b p r)
       | none => deny St.notFound s)
def execRuleDelete (m : Msg) (s : State) : Out := commandRow opRuleDelete bodyRuleDelete m s

/-! ### RULE.READ (R169; log entry for its payload and records) -/

/-- An entry and its rule's versions: position, VMASK, STAGE, PRIORITY, RULE_ID, four zero bytes, VALUE, MASK and the action word. -/
def ruleRecord (p : Nat) (r : Rule) : List Byte :=
  leBytes 2 p ++ leBytes 1 r.vmask ++ leBytes 1 r.stage ++ leBytes 4 r.prio ++ leBytes 4 r.ruleId ++ zeros 4 ++ beBytes 60 r.value ++
    beBytes 60 r.mask ++ leBytes 16 r.action

def opRuleRead : Op := (Op.plain 0x0808 .read .all).withRS
def bodyRuleRead (m : Msg) (s : State) : Answer :=
  let b := m.u8 0
  let first := m.u16 4
  let n := m.u16 6
  let rs := (s.block b).rules.filter (fun e => decide (first ≤ e.1) && decide (e.1 < first + n))
  orDeny [(m.plen != 8, St.badLength),
          (decide (31 < b) || !m.zero 1 3 || n == 0 || decide (100 < n) || decide (1024 < first + n), St.badField),
          ((s.block b).stage != s.stageOf m, St.notPermitted)] s
    (doneWith (leBytes 4 rs.length ++ (rs.map (fun e => ruleRecord e.1 e.2)).flatten) s)
def execRuleRead (m : Msg) (s : State) : Out := commandRow opRuleRead bodyRuleRead m s

/-! ### RESPACED (R167, R173) -/

/-- Service firmware has restored a block's hole spacing; a block too full for its holes raises HOLES_EXHAUSTED instead. -/
def execRespaced (b : Nat) (s : State) : Out :=
  let x := s.block b
  onUnit (decide (b < 32))
    (if x.capacity < x.rules.length then s.checkHoles b
     else s.when x.holeUsed (fun s => ((s.onBlock b (fun x => x.respaced)).cleanBlock b).post x.stage Ev.respaced Lv.device x.stage
       (leBytes 1 b ++ zeros 3)))

end Sys2Proof.Machine
end

