-- ==== Sys2Proof/Machine/Versions.lean ====
section
/-! DEFINITION. Commits and versions (R183–R197, R201): TABLE.COMMIT and what follows it, cancel, abort, status, drain, retirement and the
consistency sweep. -/
namespace Sys2Proof.Machine
open Sys2Proof

/-! ### TABLE.COMMIT (R184) -/

/-- The flip time a commit names, in linear nanoseconds. -/
def commitTime (m : Msg) : Nat := m.u48 0 * 1000000000 + m.u32 8
def commitAsap (m : Msg) : Bool := bitOf (m.u8 12) 0

def opTableCommit : Op := ((Op.plain 0x070A .stage .cfg).withA).withRS
def bodyTableCommit (m : Msg) (s : State) : Answer :=
  let k := s.stageOf m
  orDeny [(m.plen != 16, St.badLength),
          (!m.zero 6 2 || decide (1000000000 ≤ m.u32 8) || decide (1 < m.u8 12) || !m.zero 13 3 ||
            (!commitAsap m && decide (s.netLinear + 60000000000 < commitTime m)), St.badField),
          (s.atLimit m, St.busy), ((s.stage k).state == 3, St.busy), ((s.ver k).state != 0, St.busy)] s
    { state := s.onVer k (fun v => { v with state := 1, flipTime := commitTime m, asap := commitAsap m, willLate := false, mb := s.mbOf m }),
      status := St.accepted, payload := leBytes 1 (nextVersion (s.ver k).cur), held := false }
def execTableCommit (m : Msg) (s : State) : Out := commandRow opTableCommit bodyTableCommit m s

/-- Every staging write accepted before a commit is in place: no staged instance still being zeroed, no image still being written. -/
def State.batchReady (s : State) (k : Nat) : Bool :=
  instKinds.all (fun kind => match (s.insts k kind).next with | some i => i.ready | none => true) &&
    s.tab.checking.all (fun e => e.1 / 4 != k)

/-- COMMIT_ARMING (R185, R197): root firmware arms the commit; a failed backing write leaves it unarmed. -/
def execCommitArming (k : Nat) (failed : Bool) (s : State) : Out :=
  let v := s.ver k
  let early := decide (v.flipTime < s.netLinear + 2000)
  onUnit (decide (k ≤ 4))
    (s.when (v.state == 1 && s.batchReady k) (fun s =>
      if failed then
        (s.onVer k (fun v => { v with state := 0 })).finish v.mb 0x070A Ev.commitFailed Lv.device k St.hwFault (leBytes 2 St.hwFault ++ zeros 2)
      else s.onVer k (fun v => { v with
        state := 2, willLate := early && !v.asap,
        flipTime := (if v.asap || early then s.netLinear + 2000 else v.flipTime) })))

/-- The payload of COMMIT_DONE (R201). -/
def commitDonePayload (version : Nat) (late : Bool) (sec ns : Nat) : List Byte :=
  leBytes 1 version ++ leBytes 1 (flagNat late) ++ zeros 2 ++ leBytes 6 sec ++ zeros 2 ++ leBytes 4 ns

/-- VERSION_FLIP (R185): at the armed time every tile of the stage flips, and COMMIT_DONE is posted. -/
def execVersionFlip (k : Nat) (s : State) : Out :=
  let v := s.ver k
  onUnit (decide (k ≤ 4))
    (s.when (v.state == 2 && decide (v.flipTime ≤ s.netLinear)) (fun s =>
      (s.flip k).finish v.mb 0x070A Ev.commitDone Lv.device k St.done
        (commitDonePayload (nextVersion v.cur) v.willLate s.time.sec s.time.ns)))

def opTableCommitCancel : Op := (Op.plain 0x070B .stage .cfg).withU
/-- Withdraws a commit; its batch stays staged (R187). -/
def bodyTableCommitCancel (m : Msg) (s : State) : Answer :=
  let k := s.stageOf m
  let v := s.ver k
  let soon := v.state == 2 && decide (v.flipTime ≤ s.netLinear + 2000)
  orDeny [(m.plen != 0, St.badLength), ((s.stage k).state == 3, St.busy), (v.state == 0, St.notFound),
          (soon || v.state == 3 || v.state == 4, St.stale)] s (done (s.cancelCommit k 1))
def execTableCommitCancel (m : Msg) (s : State) : Out := commandRow opTableCommitCancel bodyTableCommitCancel m s

def opTableAbort : Op := (Op.plain 0x070C .stage .cfg).withRS
/-- Discards the staged batch (R183); while a version is retiring its writes are held like any staged write (R180). -/
def bodyTableAbort (m : Msg) (s : State) : Answer :=
  let k := s.stageOf m
  orDeny ([(m.plen != 0, St.badLength)] ++ stagingChecks s k) s
    (if s.holdsWrites k then hold (s.holdCommand 0x070C k 1 m) else done (s.abortBatch k))
def execTableAbort (m : Msg) (s : State) : Out := commandRow opTableAbort bodyTableAbort m s

/-! ### TABLE.VSTATUS (R193) -/

/-- Staging writes a held command carries. -/
def heldWrites (h : Held) : Nat :=
  if h.opcode = 0x0704 ∨ h.opcode = 0x0705 then h.msg.plen / 28
  else if h.opcode = 0x0706 ∨ h.opcode = 0x0707 then ((entRecs h.msg.payload 513 0).map (fun l => l.length)).getD 0
  else 1

def versionRecord (s : State) (k : Nat) : List Byte :=
  let v := s.ver k
  leBytes 1 v.cur ++ leBytes 1 (v.retiring.getD 0xE) ++ leBytes 1 v.state ++
    leBytes 1 (flagNat v.batch + 2 * flagNat v.late + 4 * flagNat v.expired) ++
    leBytes 6 (v.flipTime / 1000000000) ++ zeros 2 ++ leBytes 4 (v.flipTime % 1000000000) ++ leBytes 4 v.drainNs ++ leBytes 4 v.settleNs ++
    ((range 0 8).map (fun t => leBytes 4 (match v.retiring with
      | some r => if (s.stageTiles k).contains t then s.drain t k r else 0
      | none => 0))).flatten ++
    leBytes 4 (((s.cmd.held.filter (fun h => h.stage == k)).map heldWrites).foldl (· + ·) 0) ++ zeros 4

def opTableVstatus : Op := ((Op.plain 0x070D .read .all).withRS).withU
def bodyTableVstatus (m : Msg) (s : State) : Answer :=
  orDeny [(m.plen != 0, St.badLength)] s (doneWith (versionRecord s (s.stageOf m)) s)
def execTableVstatus (m : Msg) (s : State) : Out := commandRow opTableVstatus bodyTableVstatus m s

/-! ### Drain and retirement (R190, R191) -/

/-- A version has drained: the settle begins. -/
def State.beginSettle (s : State) (k : Nat) (expired : Bool) : State :=
  s.onVer k (fun v => { v with state := 4, drainedAt := s.now, drainNs := nsBetween v.flippedAt s.now, expired := expired })

/-- DRAIN_COMPLETE (R190): every tile's drain counter of the retiring version is zero. -/
def execDrainComplete (k : Nat) (s : State) : Out :=
  let v := s.ver k
  onUnit (decide (k ≤ 4)) (s.when (v.state == 3 && (match v.retiring with | some r => s.drained k r | none => true)) (fun s => s.beginSettle k v.expired))

/-- The meaning of a staging command whose write may be held (R180). -/
def heldBody (opcode : Nat) : Msg → State → Answer :=
  if opcode = 0x0704 then bodyTablePfxAdd else if opcode = 0x0705 then bodyTablePfxDelete
  else if opcode = 0x0706 then bodyTableEntryWrite else if opcode = 0x0707 then bodyTableEntryDelete
  else if opcode = 0x070C then bodyTableAbort else if opcode = 0x0806 then bodyRuleAdd else bodyRuleDelete

/-- Held staging writes of a stage proceed in arrival order, and their commands complete. -/
def State.releaseHeld (s : State) (k : Nat) : State :=
  (s.cmd.held.filter (fun h => h.stage == k)).foldl (fun s h =>
    respond h.opcode h.msg (heldBody h.opcode h.msg (s.onCmd (fun c => { c with held := c.held.erase h })))) s

/-- VERSION_RETIRED (R191): settle ends; the event gives version, DRAIN_NS and SETTLE_NS. -/
def execVersionRetired (k : Nat) (s : State) : Out :=
  let v := s.ver k
  onUnit (decide (k ≤ 4))
    (s.when (v.state == 4) (fun s =>
      let s1 := s.retire k
      (s1.post k Ev.versionRetired Lv.device k
        (leBytes 1 (v.retiring.getD 0xE) ++ zeros 3 ++ leBytes 4 (s1.ver k).drainNs ++ leBytes 4 (s1.ver k).settleNs)).releaseHeld k))

/-- SWEEP_PASS (R195): the sweep compares every tile of a stage with the backing store and corrects what differs. -/
def execSweepPass (k : Nat) (s : State) : Out := onUnit (decide (k ≤ 4)) (s.when (s.stageLive k) (fun s => s.sweepStage k))

end Sys2Proof.Machine
end

