-- ==== Sys2Proof/Machine/Queue.lean ====
section
/-! DEFINITION. The QUEUE group (R295–R325), the events of shapers, gates and cue sheets, POLICER_REPAIR, and DRAIN_EXPIRED (R190). -/
namespace Sys2Proof.Machine
open Sys2Proof

/-! ### Policers (R295–R304) -/

def opQueuePolicer : Op := (Op.plain 0x0B01 .stage .cfg).withRS
/-- Index and record of one 36-byte policer record. -/
def polIndex (r : List Byte) : Nat := fieldLE r 0 2
def polWord (r : List Byte) : Nat := fieldLE r 4 32

/-- A record is written in every tile of the device (log entry 56: at once). -/
def State.writePolicer (s : State) (pol rec_ : Nat) : State :=
  let old := SMap.find pol s.sw.policers
  (forEach (range 0 8) (fun t s => s.onBucket t pol (fun b => b.rewrite old rec_ s.localNs)) s).onSw (fun w => { w with
    policers := SMap.insert pol rec_ w.policers })

def bodyQueuePolicer (m : Msg) (s : State) : Answer :=
  let k := s.stageOf m
  let rs := m.records 0 36
  orDeny [(m.plen == 0 || m.plen % 36 != 0, St.badLength),
          (rs.any (fun r => decide (8191 < polIndex r) || !zeroAt r 2 2 || !policerOk (polWord r)), St.badField),
          (rs.any (fun r => !s.ownsPolicer k (polIndex r)), St.notPermitted)] s
    (done (rs.foldl (fun s r => s.writePolicer (polIndex r) (polWord r)) s))
def execQueuePolicer (m : Msg) (s : State) : Out := commandRow opQueuePolicer bodyQueuePolicer m s

def opQueuePolicerRead : Op := (Op.plain 0x0B02 .read .cfg).withRS
/-- The record, the eight counters summed over the stage's tiles, and the bucket counts of each of those tiles (log entry 21). -/
def bodyQueuePolicerRead (m : Msg) (s : State) : Answer :=
  let k := s.stageOf m
  let pol := m.u16 0
  let tiles := s.stageTiles k
  let sum (i : Nat) : Nat := sumOver tiles (fun t => ((s.bucket t pol).counts[i]?).getD 0)
  orDeny [(m.plen != 4, St.badLength), (decide (8191 < pol) || !m.zero 2 2, St.badField), (!s.ownsPolicer k pol, St.notPermitted)] s
    (doneWith (leBytes 32 (s.policerRec pol) ++ ((range 0 8).map (fun i => leBytes 8 (sum i))).flatten ++
      (tiles.map (fun t => leBytes 8 (unsignedOf (s.bucket t pol).c 64) ++ leBytes 8 (unsignedOf (s.bucket t pol).e 64))).flatten) s)
def execQueuePolicerRead (m : Msg) (s : State) : Out := commandRow opQueuePolicerRead bodyQueuePolicerRead m s

/-- Is a policer of a stage named by a rule valid in one of its live versions? -/
def State.policerNamed (s : State) (k pol : Nat) : Bool :=
  let live := if s.hasRetiring k then 3 else s.curMask k
  s.tab.blocks.any (fun b => b.2.rules.any (fun r =>
    r.2.stage == k && r.2.vmask &&& live != 0 && actPolEn r.2.action && actPolicer r.2.action == pol))

def opQueuePolicerRange : Op := Op.plain 0x0B03 .owner .cfg
/-- STAGE, BASE and COUNT (log entry for their places). -/
def bodyQueuePolicerRange (m : Msg) (s : State) : Answer :=
  let k := m.u8 0
  let base := m.u16 2
  let n := m.u16 4
  let old := s.policersOf k
  let overlaps := s.liveStages.any (fun j =>
    j != k && decide (base < (s.policersOf j).1 + (s.policersOf j).2) && decide ((s.policersOf j).1 < base + n))
  let taken := (range old.1 old.2).filter (fun p => decide (p < base) || decide (base + n ≤ p))
  orDeny [(m.plen != 8, St.badLength),
          (decide (4 < k) || !s.stageLive k || !m.zero 1 1 || !m.zero 6 2 || base % 64 != 0 || n % 64 != 0 || decide (8192 < base + n) || overlaps,
            St.badField),
          (taken.any (fun p => s.policerNamed k p), St.busy)] s
    (done (s.onSw (fun w => { w with polRange := SMap.put (0, 0) k (base, n) w.polRange })))
def execQueuePolicerRange (m : Msg) (s : State) : Out := commandRow opQueuePolicerRange bodyQueuePolicerRange m s

def opQueuePrecolour : Op := (Op.plain 0x0B04 .stage .cfg).withRS
/-- The colour map (R301): PC_SRC, PC_SLOT, PC_SHIFT, PC_WIDTH and 64 entries of one byte each (log entry 21). -/
def bodyQueuePrecolour (m : Msg) (s : State) : Answer :=
  let map := (m.payload.drop 4).map (fun b => b.toNat)
  orDeny [(m.plen != 68, St.badLength),
          (decide (1 < m.u8 0) || decide (63 < m.u8 1) || decide (31 < m.u8 2) || (m.u8 0 == 1 && (m.u8 3 == 0 || decide (6 < m.u8 3))) ||
            map.any (fun v => decide (2 < v)), St.badField)] s
    (done (s.onSw (fun w => { w with colours := SMap.insert (s.stageOf m) ([m.u8 0, m.u8 1, m.u8 2, m.u8 3] ++ map) w.colours })))
def execQueuePrecolour (m : Msg) (s : State) : Out := commandRow opQueuePrecolour bodyQueuePrecolour m s

/-- POLICER_REPAIR (R304): a tile finds a policer's word uncorrectable, its buckets become full, and its record is rewritten. -/
def execPolicerRepair (t pol : Nat) (s : State) : Out :=
  onUnit (decide (t < 8) && decide (pol < 8192))
    (let k := ((s.liveStages.find? (fun k => s.ownsPolicer k pol)).getD 0)
     ((s.onBucket t pol (fun b => b.full (s.policerRec pol) s.localNs)).report (Report.of Fc.policerUe Lv.tile t k (1 * 1024 + 16 * t) 0 pol 0)).post k
       Ev.policerRepair Lv.tile t (leBytes 1 t ++ zeros 1 ++ leBytes 2 pol))

/-! ### Queues and shapers (R305–R311, R320, R321) -/

/-- RATE and BURST of a record within R320, and BURST no less than one refill's tokens (R309). -/
def shaperOk (rate burst exp : Nat) : Bool :=
  decide (1 ≤ rate) && decide (rate ≤ 50000000) && decide (256 ≤ burst) && decide (rate * refillPeriod exp ≤ burst * 125000)

def srvLport (r : Nat) : Nat := bitsOf r 119 9
def srvQueue (r : Nat) : Nat := bitsOf r 116 3

def opQueueService : Op := (Op.plain 0x0B05 .stage .cfg).withRS
/-- One queue record (R320). -/
def State.writeService (s : State) (r : Nat) : State :=
  s.onQueue (srvLport r) (srvQueue r) (fun q => { q with
    level := bitsOf r 114 2, quantum := bitsOf r 98 16, shaper := q.shaper.write (bitOf r 97) (bitsOf r 71 26) (bitsOf r 47 24) s.now })
def bodyQueueService (m : Msg) (s : State) : Answer :=
  let rs := (m.records 0 16).map leNat
  orDeny [(m.plen == 0 || m.plen % 16 != 0, St.badLength),
          (rs.any (fun r => decide (383 < srvLport r) || bitsOf r 98 16 == 0 || bitsOf r 0 47 != 0 ||
            !shaperOk (bitsOf r 71 26) (bitsOf r 47 24) (s.eg (srvLport r)).refillExp), St.badField),
          (rs.any (fun r => !s.ownsLport (s.stageOf m) (srvLport r)), St.notPermitted)] s
    (done (rs.foldl (fun s r => s.writeService r) s))
def execQueueService (m : Msg) (s : State) : Out := commandRow opQueueService bodyQueueService m s

def opQueueLport : Op := (Op.plain 0x0B06 .stage .cfg).withRS
/-- One lport record (R321). -/
def State.writeQlport (s : State) (r : Nat) : State :=
  s.onEg (srvLport r) (fun e => { e with
    shaper := e.shaper.write (bitOf r 118) (bitsOf r 92 26) (bitsOf r 68 24) s.now, refillExp := bitsOf r 65 3, lineBytes := bitOf r 64,
    gbPad := bitsOf r 56 8 })
def bodyQueueLport (m : Msg) (s : State) : Answer :=
  let rs := (m.records 0 16).map leNat
  orDeny [(m.plen == 0 || m.plen % 16 != 0, St.badLength),
          (rs.any (fun r => decide (383 < srvLport r) || decide (5 < bitsOf r 65 3) || bitsOf r 0 56 != 0 ||
            !shaperOk (bitsOf r 92 26) (bitsOf r 68 24) (bitsOf r 65 3)), St.badField),
          (rs.any (fun r => !s.ownsLport (s.stageOf m) (srvLport r)), St.notPermitted)] s
    (done (rs.foldl (fun s r => s.writeQlport r) s))
def execQueueLport (m : Msg) (s : State) : Out := commandRow opQueueLport bodyQueueLport m s

/-- SHAPER_REFILL (R309): a refill period of an lport has passed on the local nanosecond count. -/
def execShaperRefill (l : Nat) (s : State) : Out :=
  onUnit (decide (l < 384)) (s.when (decide ((s.eg l).refilledAt + refillPeriod (s.eg l).effExp ≤ s.localNs)) (fun s => s.refillShapers l))

/-! ### Cue sheets (R312–R319, R322) -/

def opQueueCuesheet : Op := (Op.plain 0x0B07 .stage .cfg).withRS
/-- Linear nanoseconds of the seconds and nanoseconds at two places of a payload. -/
def Msg.timeAt (m : Msg) (sec ns : Nat) : Nat := m.u48 sec * 1000000000 + m.u32 ns
/-- The sheet a payload carries. -/
def sheetOf (m : Msg) : CueSheet :=
  { base := Msg.timeAt m 4 12, cycle := m.u32 16, entries := (m.records 32 4).map (fun r => (leNat r / 2 ^ 24, leNat r % 2 ^ 24)) }
def bodyQueueCuesheet (m : Msg) (s : State) : Answer :=
  let l := m.u16 0
  let set := max (Msg.timeAt m 20 28) (s.netLinear + 2000)
  let soon := match (s.eg l).pending with | some p => decide (p.2 ≤ s.netLinear + 2000) | none => false
  let sheet := sheetOf m
  orDeny [(decide (m.plen < 32) || m.plen != 32 + 4 * m.u16 2, St.badLength),
          (decide (383 < l) || decide (256 < m.u16 2) || !m.zero 10 2 || !m.zero 26 2 || decide (1000000000 ≤ m.u32 12) ||
            decide (1000000000 ≤ m.u32 28) || decide (m.u32 16 < 1000) || decide (1000000000 < m.u32 16) ||
            sheet.entries.any (fun e => decide (e.2 < 16)), St.badField),
          (!s.ownsLport (s.stageOf m) l, St.notPermitted), (soon, St.stale)] s
    (done (s.onEg l (fun e => { e with pending := some (sheet, e.sheet.switchTime set) })))
def execQueueCuesheet (m : Msg) (s : State) : Out := commandRow opQueueCuesheet bodyQueueCuesheet m s

/-- GATE_CHANGE (R314): gates follow the operational sheet. -/
def execGateChange (l : Nat) (s : State) : Out := onUnit (decide (l < 384)) (s.setGates l)

/-- CUESHEET_SWITCH (R318): the switch time of a pending sheet has come. -/
def execCuesheetSwitch (l : Nat) (s : State) : Out :=
  onUnit (decide (l < 384)) (match (s.eg l).pending with
    | some p => s.when (decide (p.2 ≤ s.netLinear)) (fun s => s.switchSheet l)
    | none => s)

/-! ### QUEUE.STATUS (R323; log entry for the layout) -/

def Shaper.bytes (x : Shaper) : List Byte :=
  leBytes 8 (unsignedOf x.tokens 64) ++ leBytes 4 x.effRate ++ leBytes 4 x.effBurst ++ leBytes 8 x.appliedAt
def CueSheet.bytes (x : CueSheet) : List Byte :=
  leBytes 6 (x.base / 1000000000) ++ leBytes 2 x.entries.length ++ leBytes 4 (x.base % 1000000000) ++ leBytes 4 x.cycle ++
    (x.entries.map (fun e => leBytes 4 (e.1 * 2 ^ 24 + e.2))).flatten
def queueStatusBytes (s : State) (l q : Nat) : List Byte :=
  let x := s.queue l q
  leBytes 1 x.level ++ leBytes 1 (flagNat (s.unmet l q == 0)) ++ leBytes 1 (s.unmet l q) ++ leBytes 1 (flagNat x.shaper.effEn) ++
    leBytes 4 (unsignedOf x.dc 32) ++ x.shaper.bytes

def opQueueStatus : Op := (Op.plain 0x0B08 .read .cfg).withRS
def bodyQueueStatus (m : Msg) (s : State) : Answer :=
  let l := m.u16 0
  let e := s.eg l
  let pos := e.sheet.position s.netU
  let at_ := (e.pending.map (fun p => p.2)).getD 0
  orDeny [(m.plen != 4, St.badLength), (decide (383 < l) || !m.zero 2 2, St.badField), (!s.ownsLport (s.stageOf m) l, St.notPermitted)] s
    (doneWith (((range 0 8).map (fun q => queueStatusBytes s l q)).flatten ++ e.shaper.bytes ++
      leBytes 1 (flagNat e.shaper.effEn) ++ leBytes 1 e.effExp ++ leBytes 1 (flagNat e.lineBytes) ++ leBytes 1 e.gbPad ++
      leBytes 1 e.gates ++ leBytes 1 (flagNat e.pending.isSome) ++ leBytes 2 pos.1 ++ leBytes 4 pos.2 ++ zeros 4 ++
      leBytes 6 (at_ / 1000000000) ++ zeros 2 ++ leBytes 4 (at_ % 1000000000) ++
      ((range 0 8).map (fun c => leBytes 4 ((e.sheet.longest c).getD 0xFFFFFFFF))).flatten ++ e.sheet.bytes ++
      (match e.pending with | some p => p.1.bytes | none => [])) s)
def execQueueStatus (m : Msg) (s : State) : Out := commandRow opQueueStatus bodyQueueStatus m s

/-! ### Drain expiry (R190) -/

/-- A packet of an expired version is discarded where it stands, unless its cells are on their way: counted DRAIN_EXPIRE. -/
def State.expirePkt (s : State) (id : Nat) : State :=
  match s.pkt id with
  | none => s
  | some p =>
    let t := if p.phase == .localCopy || p.phase == .crossed || p.phase == .dresser || p.phase == .edited then p.egress else p.tile
    let s1 := s.bump t p.ctx.stage (0x71 + p.ctx.tc)
    let inPipe (s : State) : State :=
      let s2 := if p.spec = 1 then s.bump p.tile p.ctx.stage 0x07 else if p.spec = 2 ∨ p.spec = 5 then s.sendBack (p.grantBack id) else s
      s2.pipeDrop id p
    match p.phase with
    | .placed => inPipe s1
    | .parsed => inPipe s1
    | .lookedUp => inPipe s1
    | .matched => inPipe s1
    | .done => inPipe s1
    | .fifo => s1.erasePkt id
    | _ => (s1.discard id p false).settleSpill p.ctx.stage p.voq

/-- Has a packet's transmission not begun? -/
def Pkt.notBegun (p : Pkt) : Bool :=
  match p.phase with
  | .mac => false
  | .tail => false
  | .granted => p.launched == 0
  | .crossed => p.launched == p.cells
  | .dresser => p.launched == p.cells
  | .edited => p.launched == p.cells
  | _ => true

/-- The packets of an expired version are discarded; with none left the settle begins. -/
def State.expireVersion (s : State) (k r : Nat) : State :=
  let ids := s.pktsWhere (fun p => p.ctx.stage == k && p.ctx.ver == r && (range 0 8).any (fun t => p.heldBy t) && p.notBegun)
  let s1 := (forEach ids (fun id s => s.expirePkt id) s).onVer k (fun v => { v with expired := true })
  let s2 := s1.post k Ev.drainExpired Lv.device k (leBytes 1 r ++ zeros 3 ++ leBytes 4 ids.length)
  if s2.drained k r then s2.beginSettle k true else s2

/-- DRAIN_EXPIRED: 100 µs after a flip packets of the retiring version are still held. -/
def execDrainExpired (k : Nat) (s : State) : Out :=
  let v := s.ver k
  onUnit (decide (k ≤ 4))
    (match v.retiring with
     | none => s
     | some r =>
       s.when (v.state == 3 && !v.expired && decide (v.flippedAt + tkUs 100 ≤ s.now) && !s.drained k r) (fun s => s.expireVersion k r))

end Sys2Proof.Machine
end

