-- ==== Sys2Proof/Machine/Regs.lean ====
section
/-! DEFINITION. BAR0 (chapter 20): what a read of a DWORD returns and does, host writes under R17, DEV_RESET, and the microcode window
(R249, R545–R566). Addresses are offsets in BAR0. -/
namespace Sys2Proof.Machine
open Sys2Proof

/-- Does the block of an address answer in the mode (R545, R566)? -/
def State.blockOpen (s : State) (a : Nat) : Bool :=
  let m := s.cmd.mode
  if 0xB00000 ≤ a then m == Md.rehearsal
  else if (0x200000 ≤ a ∧ a < 0x300000) ∨ (0x500000 ≤ a ∧ a < 0x600000) ∨ (0x700000 ≤ a ∧ a < 0x900000) ∨ 0xA00000 ≤ a then decide (2 ≤ m)
  else decide (1 ≤ m)

/-! ### What a read returns (R545–R566) -/

def dword (bs : List Byte) (k : Nat) : Nat := fieldLE bs (4 * k) 4

/-- DEV_MODE (R553). -/
def devMode (s : State) : Nat :=
  flagNat s.ctl.bootFail * 2 ^ 31 + s.ctl.bootCause % 8 * 2 ^ 28 + flagNat s.fault.pinAsserted * 2 ^ 27 + s.ctl.lead % 2 * 2 ^ 26 +
    s.ctl.understudy % 4 * 2 ^ 24 + pendingMode s % 256 * 2 ^ 16 + s.cmd.prevMode % 8 * 2 ^ 8 + s.cmd.mode % 8

/-- The DEV block (R552). Service VERSION and slot read 0 until step 4 of R363. -/
def devReg (s : State) (o : Nat) : Nat :=
  let id := if s.ctl.deviceIdKnown then Config.deviceId.toNat else 0
  if o = 0x000 then 0x153600B1
  else if o = 0x004 then devMode s
  else if o = 0x008 then id % 2 ^ 32
  else if o = 0x00C then id / 2 ^ 32
  else if o = 0x010 then s.ctl.serviceSlot * 256 + s.ctl.rootSlot
  else if o = 0x014 then imageVersion s.ctl.root
  else if o = 0x018 then imageVersion s.ctl.service
  else if o = 0x01C then s.count.scratch
  else 0

/-- The DRAM timing set active (R342, R554): 1 for B. -/
def shadowSet (s : State) : Bool := (range 0 8).any (fun c => (s.mem.channel c).dimm.isSome && (s.mem.channel c).setB)

/-- The PWS block (R554). The dividers read 0 while ROOTPLL is not locked, their reset value. -/
def pwsReg (s : State) (o : Nat) : Nat :=
  if o < 0x24 then dword (powerStatusRecord s 0) (o / 4)
  else if o = 0x40 ∧ s.power.rootLock then
    2 ^ 31 + (if s.power.lean then 8 else 6) * 2 ^ 12 + (if s.power.lean then 10 else 8) * 2 ^ 8 + s.mem.speed % 16 * 2 ^ 4 + flagNat (shadowSet s) * 8
  else 0

/-- A ring pair's registers (R392–R394). -/
def ringReg (s : State) (p o : Nat) : Nat :=
  let g := s.ring p
  if o = 0x000 then g.sqBase % 2 ^ 32 else if o = 0x004 then g.sqBase / 2 ^ 32
  else if o = 0x008 then g.cqBase % 2 ^ 32 else if o = 0x00C then g.cqBase / 2 ^ 32
  else if o = 0x010 then
    g.stage * 2 ^ 29 + g.kind * 2 ^ 27 + g.hostq * 2 ^ 24 + flagNat g.assigned * 2 ^ 23 + g.vector * 2 ^ 17 + g.logSize * 2 ^ 12
  else if o = 0x014 then g.poll
  else if o = 0x018 then flagNat g.flush.isSome * 2 + flagNat g.enable
  else if o = 0x01C then g.state * 2 ^ 28 + g.errCause * 2 ^ 24 + flagNat g.flushDone * 2 ^ 16 + g.items.length % 2 ^ 16
  else if o = 0x020 then g.sqProd else if o = 0x024 then g.sqCons else if o = 0x028 then g.cqProd else if o = 0x02C then g.cqCons else 0

def State.vec (s : State) (v : Nat) : IrqVec := SMap.get IrqVec.reset v s.host.vecs
def State.onVec (s : State) (v : Nat) (f : IrqVec → IrqVec) : State := s.onHost (fun h => { h with vecs := SMap.upd IrqVec.reset v f h.vecs })

/-- The IRQ block (R380): MSI-X table, pending bits, IRQ_CAUSE, IRQ_MOD, IRQ_MAP. -/
def irqReg (s : State) (o : Nat) : Nat :=
  if o < 0x400 then
    let v := s.vec (o / 16)
    let k := o / 4 % 4
    if k = 0 then v.addr % 2 ^ 32 else if k = 1 then v.addr / 2 ^ 32 else if k = 2 then v.data else flagNat v.masked
  else if 0x800 ≤ o ∧ o < 0x808 then
    (range 0 32).foldl (fun a i => a + flagNat (s.vec ((o - 0x800) / 4 * 32 + i)).pba * 2 ^ i) 0
  else if 0x1000 ≤ o ∧ o < 0x1100 then (s.vec ((o - 0x1000) / 4)).cause
  else if 0x1100 ≤ o ∧ o < 0x1200 then (s.vec ((o - 0x1100) / 4)).holdoff * 64 + (s.vec ((o - 0x1100) / 4)).count
  else if 0x1200 ≤ o ∧ o < 0x1400 then SMap.get 0 ((o - 0x1200) / 4) s.host.irqMap
  else 0

/-- A record of the FLT block: DWORD k of the owner's view (R555). -/
def fltDword (r : Option FaultRec) (k : Nat) : Nat := match r with | some x => bitsOf x.masked.toNat (32 * k) 32 | none => 0

/-- The FLT block (R555). -/
def fltReg (s : State) (o : Nat) : Nat :=
  let k := o / 4 % 8
  if o < 0x20 then fltDword s.fault.first k else if o < 0x40 then fltDword s.fault.higher k
  else if o < 0x60 then fltDword s.fault.prevFirst k else if o < 0x80 then fltDword s.fault.prevHigher k
  else if o = 0x80 then s.fault.lastSeq * 65536 + s.fault.opened.length
  else if o = 0x84 then s.fault.worst
  else if 0x1000 ≤ o ∧ o < 0x2000 then SMap.get 0 ((o - 0x1000) / 4) s.fault.counts
  else 0

/-- The TIM block (R556). -/
def timReg (s : State) (o : Nat) : Nat :=
  if o = 0x00 then s.localNs % 2 ^ 32 else if o = 0x04 then s.localNs / 2 ^ 32 else if o = 0x08 then s.time.ns
  else if o = 0x0C then s.time.sec % 2 ^ 32 else if o = 0x10 then s.time.sec / 2 ^ 32 % 65536
  else if o = 0x14 then s.time.source * 16 + s.time.state else 0

/-- The bank that the windows read (R560): the one last pinned, else the newest complete. -/
def CountSt.windowBank (c : CountSt) : Bank := if c.pinUsed then c.bank c.pinned else c.newestBank
def CountSt.windowNumber (c : CountSt) : Nat := if c.pinUsed then c.pinned else c.newest.getD 0

/-- A counter of the event window (R558): nothing in the page of a stage absent from the tile, nor of a device-level event but for s = 0. -/
def windowEvent (s : State) (t k e : Nat) : Nat :=
  if decide (8 < t) || decide (4 < k) || decide (0xFF < e) then 0
  else if k != 0 && ((!eventPerStage t e) || (decide (t < 8) && !(s.stageTiles k).contains t) || !s.stageLive k) then 0
  else SMap.get 0 (evtKey t k e) s.count.windowBank.events

/-- The PMC block (R557, R558, R560). -/
def pmcReg (s : State) (o : Nat) : Nat :=
  let c := s.count
  if o = 0x04 then c.newestBank.id
  else if o = 0x08 then c.newestBank.time % 2 ^ 32
  else if o = 0x0C then c.newestBank.time / 2 ^ 32
  else if o = 0x10 then flagNat c.pinLost * 4 + flagNat c.copyEnd.isSome * 2 + c.windowNumber
  else if 0x10000 ≤ o ∧ o < 0x58000 then
    let x := o - 0x10000
    let v := windowEvent s (x / 0x8000) (x / 0x1000 % 8) (x % 0x1000 / 8)
    if o % 8 = 0 then v % 2 ^ 32 else v / 2 ^ 32
  else 0

/-- Statistic i of lport L (R559), at view + L × 0x200 + i × 8. -/
def stwReg (s : State) (o : Nat) : Nat :=
  let view := o / 0x40000
  let l := o % 0x40000 / 0x200
  let i := o % 0x200 / 8
  let v := if 383 < l ∨ 47 < i then 0
    else SMap.get 0 (l * 64 + i) (if view = 2 then s.count.windowBank.stats else s.port.stats)
  if o % 8 = 0 then v % 2 ^ 32 else v / 2 ^ 32 % 2 ^ 32

/-- The POOL block (R561). -/
def poolReg (s : State) (o : Nat) : Nat :=
  if o < 0x10 then s.host.pools.freeOf (o / 4) else if o = 0x10 then s.evt 8 0 0xBD % 2 ^ 32 else 0

/-- DIAG_WRITES: the sum of DIAG_WRITE over tiles and stages (R562). -/
def diagWrites (s : State) : Nat := sumOver (range 0 8) (fun t => sumOver (range 0 5) (fun k => s.evt t k 0x8C))

/-- The DIAG block (R562). -/
def diagReg (s : State) (o : Nat) : Nat :=
  if o = 0x00 then flagNat s.count.diagPermit else if o = 0x04 then s.count.diagTarget
  else if o = 0x0C then flagNat s.count.diagBusy.isSome * 2 ^ 31 + s.count.diagStatus
  else if 0x10 ≤ o ∧ o < 0x20 then s.count.diagData.getD ((o - 0x10) / 4) 0
  else if o = 0x20 then diagWrites s % 2 ^ 32 else 0

/-- The UCS block (R565): S0's inactive bank where there is one, otherwise the bank of its current version. -/
def ucsReg (s : State) (o : Nat) : Nat :=
  let e := s.edit 0
  if o < 0x8000 then
    let w := 6144 + o / 16
    if e.owns w then bitsOf (s.uwordAt ((e.inactive (s.hasRetiring 0)).getD e.curBank) w) (32 * (o / 4 % 4)) 32 else 0
  else if o = 0x8000 then flagNat s.count.ucsRefused * 2 ^ 30 + s.count.ucsCause % 8 * 2 ^ 27
  else if o = 0x8004 then s.count.ucsWords else 0

/-- The INJ block (R566). -/
def injReg (s : State) (o : Nat) : Nat :=
  let j := s.injector (o / 32)
  if o % 32 < 16 then dword j.cfg (o % 32 / 4) else if o % 32 = 0x14 then j.state * 2 ^ 30 + j.remaining % 256 else 0

/-- The DWORD at an address; an unmapped address or a reserved offset reads zero (R547). -/
def State.regAt (s : State) (a : Nat) : Nat :=
  if a < 0x1000 then devReg s a
  else if 0x10000 ≤ a ∧ a < 0x11000 then pwsReg s (a - 0x10000)
  else if 0x100000 ≤ a ∧ a < 0x200000 then
    leNat ((range 0 4).map (fun i => s.readMbByte ((a - 0x100000) / 0x20000) (a % 0x20000 / 4 * 4 + i)))
  else if 0x200000 ≤ a ∧ a < 0x240000 then ringReg s ((a - 0x200000) / 0x1000) (a % 0x1000)
  else if 0x300000 ≤ a ∧ a < 0x302000 then irqReg s (a - 0x300000)
  else if 0x400000 ≤ a ∧ a < 0x402000 then fltReg s (a - 0x400000)
  else if 0x500000 ≤ a ∧ a < 0x558000 then pmcReg s (a - 0x500000)
  else if 0x600000 ≤ a ∧ a < 0x601000 then timReg s (a - 0x600000)
  else if 0x700000 ≤ a ∧ a < 0x701000 then poolReg s (a - 0x700000)
  else if 0x800000 ≤ a ∧ a < 0x8C0000 then stwReg s (a - 0x800000)
  else if 0x900000 ≤ a ∧ a < 0x901000 then diagReg s (a - 0x900000)
  else if 0xA00000 ≤ a ∧ a < 0xA09000 then ucsReg s (a - 0xA00000)
  else if 0xB00000 ≤ a ∧ a < 0xB00200 then injReg s (a - 0xB00000)
  else 0

/-! ### Latches (R548) -/

/-- A DWORD of a value of several DWORDs in a block view: the view, the DWORD's place, the value's first address and its DWORDs. The views
are DEV 8, PWS 0, FLT 1, TIM 2, the PMC registers 3, the event window 4, and CLEAR, PEEK and SNAP 5, 6, 7. Reserved offsets have none (R547). -/
structure Latched where
  view : Nat
  place : Nat
  low : Nat
  count : Nat
  deriving DecidableEq, Repr

def latchedAt (a : Nat) : Option Latched :=
  if a = 0x008 ∨ a = 0x00C then some { view := 8, place := (a - 8) / 4, low := 8, count := 2 }
  else if 0x10000 ≤ a ∧ a < 0x10024 then some { view := 0, place := (a - 0x10000) / 4, low := 0x10000, count := 9 }
  else if 0x400000 ≤ a ∧ a < 0x400080 then some { view := 1, place := a % 32 / 4, low := a - a % 32, count := 8 }
  else if 0x600000 ≤ a ∧ a < 0x600014 then some { view := 2, place := (a - 0x600000) / 4, low := 0x600000, count := 5 }
  else if a = 0x500008 ∨ a = 0x50000C then some { view := 3, place := (a - 0x500008) / 4, low := 0x500008, count := 2 }
  else if 0x510000 ≤ a ∧ a < 0x558000 ∧ a % 0x8000 < 0x5000 ∧ a % 0x1000 < 0x800 then
    some { view := 4, place := a % 8 / 4, low := a - a % 8, count := 2 }
  else if 0x800000 ≤ a ∧ a < 0x8C0000 ∧ a % 0x40000 < 0x30000 ∧ a % 0x200 < 0x180 then
    some { view := 5 + (a - 0x800000) / 0x40000, place := a % 8 / 4, low := a - a % 8, count := 2 }
  else none

def State.returns (s : State) (v : Nat) : State := s.onCount (fun c => { c with readData := v })

/-- Clear a statistic (R53): the counter at an address of the CLEAR view. -/
def State.clearStat (s : State) (a : Nat) : State :=
  if 0x800000 ≤ a ∧ a < 0x840000 then
    s.onPort (fun p => { p with stats := SMap.put 0 ((a - 0x800000) / 0x200 * 64 + a % 0x200 / 8) 0 p.stats })
  else s

/-- A host read of the DWORD at an address (R546–R548): the lowest DWORD of a value latches the higher ones, which are read from the
latch; a low word of the CLEAR view clears its counter. -/
def State.hostRead (s : State) (addr : Nat) : State :=
  let a := addr / 4 * 4
  if !s.blockOpen a then s.returns 0
  else match latchedAt a with
    | none => s.returns (s.regAt a)
    | some x =>
      if x.place = 0 then
        ((s.onCount (fun c => { c with
          latches := SMap.insert x.view ((range 1 (x.count - 1)).map (fun j => s.regAt (x.low + 4 * j))) c.latches })).returns (s.regAt a)).clearStat a
      else s.returns ((SMap.get [] x.view s.count.latches).getD (x.place - 1) 0)

/-- STATISTICS_CLEARING_READ (R53): the low word of statistic i of lport l in the CLEAR view is returned, the high word latched, the
counter cleared; where there is no such counter the read returns zero (R547, R559). -/
def execStatisticsClearingRead (l i : Nat) (s : State) : Out :=
  .next (if 383 < l ∨ 47 < i then s.returns 0 else s.hostRead (0x800000 + l * 0x200 + i * 8))

/-- VIEW_LATCH_READ (R548): a read at an address of BAR0. -/
def execViewLatchRead (addr : Nat) (s : State) : Out := .next (s.hostRead addr)

/-- UCS_WORDS_READ (R565): the count is returned and cleared. -/
def execUcsWordsRead (s : State) : Out :=
  .next ((s.hostRead 0xA08004).when (s.blockOpen 0xA08004) (fun t => t.onCount (fun c => { c with ucsWords := 0 })))

/-! ### DEV_RESET (R552) -/

/-- A write that RWL or DEV_RESET turns away is recorded (R17, R549, R552). -/
def State.lockedWrite (s : State) (a : Nat) : State := s.report (Report.of Fc.lockedWrite Lv.device 0 7 (8 * 1024) 1 a 0)

/-- DEV_RESET_KEY: the key arms DEV_RESET for 1 ms; any other value disarms it. -/
def execDevResetKey (value : Nat) (s : State) : Out :=
  .next (s.when (s.blockOpen 0x20) (fun s => s.onCount (fun c => { c with
    resetArmed := if value % 2 ^ 32 = 0x54455352 then some (s.now + tkMs 1) else none })))

/-- DEV_RESET_DISARM: 1 ms after the key the arming lapses. -/
def execDevResetDisarm (s : State) : Out :=
  .next (match s.count.resetArmed with
    | some e => if e ≤ s.now then s.onCount (fun c => { c with resetArmed := none }) else s
    | none => s)

/-- DEV_RESET: a write with GO resets the device while it is armed and MB0 cannot serve a SYS.RESET; otherwise it is a LOCKED_WRITE.
The ledger names BAR0 as the source (0xFD; log entry 107). -/
def execDevReset (value : Nat) (s : State) : Out :=
  .next (s.when (s.blockOpen 0x24 && bitOf value 31) (fun s =>
    let armed := match s.count.resetArmed with | some e => decide (s.now < e) | none => false
    if armed && (s.cmd.mode == Md.load || s.ctl.noService) then s.resetToLoad 7 0xFD [] else s.lockedWrite 0x24))

/-! ### The microcode window (R249, R565) -/

/-- A discarded window write: REFUSED with its cause, EDIT_WRITE_REFUSED to MB0, source 94. -/
def State.ucsRefuse (s : State) (cause w : Nat) : State :=
  ((s.onCount (fun c => { c with ucsRefused := true, ucsCause := cause })).post 0 Ev.editWriteRefused Lv.device 0
    (leBytes 1 cause ++ zeros 1 ++ leBytes 2 w)).raiseIrq 94

/-- The bytes that the byte enables of a write select replace those of an old DWORD. -/
def mergeBytes (old new be : Nat) : Nat :=
  (range 0 4).foldl (fun a i => a + (if be.testBit i then bitsOf new (8 * i) 8 else bitsOf old (8 * i) 8) * 2 ^ (8 * i)) 0

/-- The DWORD a holding register has for a word; zero where it holds none of that word (log entry 116). -/
def CountSt.held (c : CountSt) (k w : Nat) : Option Nat :=
  match c.ucsHold.getD k none with | some (a, v) => if a = w then some v else none | none => none

/-- UCS_DWORD_LOAD (R565): a write to DWORD k (0–2) of word w. -/
def execUcsDwordLoad (w k value be : Nat) (s : State) : Out :=
  onUnit (decide (6144 ≤ w) && decide (w < 8192) && decide (k < 3)) (s.when (s.blockOpen 0xA00000) (fun s =>
    if !(s.edit 0).owns w then s.ucsRefuse 3 w
    else s.onCount (fun c => { c with ucsHold := setAt c.ucsHold k (some (w, mergeBytes ((c.held k w).getD 0) value be)) })))

/-- Why the write of a whole word is discarded, in the model's order (log entry 116): 5 WRONG_MODE, 3 RANGE, 4 INCOMPLETE, 2 COMMIT_ACCEPTED,
1 NO_INACTIVE_BANK. -/
def State.ucsRefusal (s : State) (w : Nat) : Option Nat :=
  let m := s.cmd.mode
  if !(m == Md.house || m == Md.run || m == Md.lean || m == Md.rehearsal) then some 5
  else if !(s.edit 0).owns w then some 3
  else if !([0, 1, 2].all (fun k => (s.count.held k w).isSome)) then some 4
  else if s.committing 0 then some 2
  else if s.noInactive 0 then some 1
  else none

/-- UCS_WORD_WRITE (R249, R565): a write to DWORD 3 writes the whole word to S0's inactive bank, or is discarded. -/
def execUcsWordWrite (w value be : Nat) (s : State) : Out :=
  onUnit (decide (6144 ≤ w) && decide (w < 8192)) (s.when (s.blockOpen 0xA00000) (fun s =>
    match s.ucsRefusal w with
    | some c => s.ucsRefuse c w
    | none =>
      let bank := 1 - (s.edit 0).curBank
      let v := (range 0 3).foldl (fun a k => a + ((s.count.held k w).getD 0) * 2 ^ (32 * k)) 0 +
        mergeBytes (bitsOf (s.uwordAt bank w) 96 32) value be * 2 ^ 96
      let s1 := ((s.putUword bank w v).onEdit 0 (fun e => { e with window := if e.window.contains w then e.window else e.window ++ [w] })).setBatch 0
      s1.onCount (fun c => { c with ucsHold := [none, none, none], ucsWords := (c.ucsWords + 1) % 2 ^ 32 })))

/-! ### REGISTER_WRITE (R17, R546, R547, R549) -/

/-- A ring pair's registers without a row of their own. The fields of RING_CFG that are RWL keep their value, and a write that would change
one is recorded; bases and LOG_SIZE hold while ENABLE is 1. -/
def State.writeRing (s : State) (p o v : Nat) : State :=
  let g := s.ring p
  if o = 0x000 then (if g.enable then s else s.onRing p (fun g => { g with sqBase := g.sqBase / 2 ^ 32 * 2 ^ 32 + v }))
  else if o = 0x004 then (if g.enable then s else s.onRing p (fun g => { g with sqBase := v * 2 ^ 32 + g.sqBase % 2 ^ 32 }))
  else if o = 0x008 then (if g.enable then s else s.onRing p (fun g => { g with cqBase := g.cqBase / 2 ^ 32 * 2 ^ 32 + v }))
  else if o = 0x00C then (if g.enable then s else s.onRing p (fun g => { g with cqBase := v * 2 ^ 32 + g.cqBase % 2 ^ 32 }))
  else if o = 0x010 then
    let s1 := s.onRing p (fun g => { g with vector := bitsOf v 17 6, logSize := if g.enable then g.logSize else bitsOf v 12 5 })
    if bitsOf v 23 9 = bitsOf (ringReg s p 0x010) 23 9 then s1 else s1.lockedWrite (0x200010 + p * 0x1000)
  else if o = 0x014 then s.onRing p (fun g => { g with poll := v % 2 ^ 17 })
  else if o = 0x01C then s.onRing p (fun g => { g with flushDone := g.flushDone && !bitOf v 16 })
  else if o = 0x020 then s.onRing p (fun g => { g with sqProd := v % 65536 })
  else if o = 0x02C then s.onRing p (fun g => { g with cqCons := v % 65536 })
  else s

/-- A vector is unmasked or masked; one with its pending bit set sends its message as it is unmasked. -/
def IrqVec.mask (v : IrqVec) (m : Bool) : IrqVec :=
  if !m && v.pba then { v with masked := false, pba := false, fired := v.fired + 1 } else { v with masked := m }

/-- The IRQ block (R380). -/
def State.writeIrq (s : State) (o v : Nat) : State :=
  if o < 0x400 then
    let k := o / 4 % 4
    s.onVec (o / 16) (fun x =>
      if k = 0 then { x with addr := x.addr / 2 ^ 32 * 2 ^ 32 + v } else if k = 1 then { x with addr := v * 2 ^ 32 + x.addr % 2 ^ 32 }
      else if k = 2 then { x with data := v } else x.mask (bitOf v 0))
  else if 0x1000 ≤ o ∧ o < 0x1100 then s.onVec ((o - 0x1000) / 4) (fun x => { x with cause := x.cause - (x.cause &&& v) })
  else if 0x1100 ≤ o ∧ o < 0x1200 then s.onVec ((o - 0x1100) / 4) (fun x => { x with holdoff := bitsOf v 6 10, count := bitsOf v 0 6 })
  else if 0x1200 ≤ o ∧ o < 0x1400 then s.onHost (fun h => { h with irqMap := SMap.put 0 ((o - 0x1200) / 4) (v % 64) h.irqMap })
  else s

/-- A write of a whole DWORD. Registers with a row of their own (doorbells, RSP_VALID, MB_EVT_CONS, RING_CTRL, PMC_SNAP, DEV_RESET,
DIAG_CTRL, the UCS aperture, INJ_CTRL) are written by that row; read-only, reserved and unmapped places ignore the write. -/
def State.writeReg (s : State) (a v : Nat) : State :=
  if a = 0x01C then s.onCount (fun c => { c with scratch := v })
  else if 0x100000 ≤ a ∧ a < 0x200000 then
    (if a % 0x20000 = 0x1F008 then s.onMb ((a - 0x100000) / 0x20000) (fun b => { b with dbReject := b.dbReject && !bitOf v 15 }) else s)
  else if 0x200000 ≤ a ∧ a < 0x240000 then s.writeRing ((a - 0x200000) / 0x1000) (a % 0x1000) v
  else if 0x300000 ≤ a ∧ a < 0x302000 then s.writeIrq (a - 0x300000) v
  else if a = 0x500010 then s.onCount (fun c => { c with pinLost := c.pinLost && !bitOf v 2 })
  else if a = 0x900004 then s.onCount (fun c => { c with diagTarget := v })
  else if 0x900010 ≤ a ∧ a < 0x900020 then s.onCount (fun c => { c with diagData := setAt c.diagData ((a - 0x900010) / 4) v })
  else if a = 0xA08000 then
    (if bitOf v 30 then s.onCount (fun c => { c with ucsRefused := false, ucsCause := 0 }) else s)
  else if 0xB00000 ≤ a ∧ a < 0xB00200 ∧ a % 32 < 16 then
    s.putInjector ((a - 0xB00000) / 32) { s.injector ((a - 0xB00000) / 32) with
      cfg := overwrite (s.injector ((a - 0xB00000) / 32)).cfg (a % 32) (leBytes 4 v) }
  else s

/-- REGISTER_WRITE (R546): a host write of a DWORD of BAR0 with its byte enables. A mailbox area takes the bytes enabled; a register is
written whole or not at all; a block ignores writes before its mode (R545). -/
def execRegisterWrite (addr value be : Nat) (s : State) : Out :=
  let a := addr / 4 * 4
  let v := value % 2 ^ 32
  .next (s.when (s.blockOpen a) (fun s =>
    if 0x100000 ≤ a ∧ a < 0x200000 ∧ a % 0x20000 < 0x1F000 then
      forEach (range 0 4) (fun i s => if be.testBit i then
        s.writeArea ((a - 0x100000) / 0x20000) (a % 0x20000 + i) (BitVec.ofNat 8 (v / 2 ^ (8 * i))) else s) s
    else if be % 16 = 15 then s.writeReg a v else s))

end Sys2Proof.Machine
end

