-- ==== Sys2Proof/Machine/Stage.lean ====
section
/-! DEFINITION. The STAGE group (R436–R440): creating, resizing and dissolving a side stage, and STAGE.STATUS. -/
namespace Sys2Proof.Machine
open Sys2Proof

/-! ### The layout of R436 -/

/-- The values a STAGE.CREATE or STAGE.RESIZE gives, with a state. -/
def stageGiven (m : Msg) (state : Nat) : Stage :=
  { state := state, scanWeight := m.u8 2, ports := m.u64 4, paddocks := m.u8 12, foldCells := m.u32 16, mcBase := m.u32 20, mcCount := m.u32 24 }

/-- The tiles of a map of ports. -/
def tilesOfMap (ports : Nat) : List Nat := (range 0 8).filter (fun t => (range (6 * t) 6).any (fun p => ports.testBit p))

/-- Give a side stage its record. -/
def State.putStage (s : State) (k : Nat) (g : Stage) : State := s.onCmd (fun c => { c with stages := SMap.put Stage.absent k g c.stages })

/-- The record breaks R436, or the weights of the side stages in a tile would exceed 16 (R437). -/
def stageBad (s : State) (m : Msg) : Bool :=
  let k := m.u8 0
  let g := stageGiven m 1
  k == 0 || decide (4 < k) || !m.zero 1 1 || decide (16 < g.scanWeight) || !m.zero 3 1 || g.ports == 0 || decide (2 ^ 48 ≤ g.ports) ||
    decide (96 < g.paddocks) || !m.zero 13 3 || g.mcBase % 256 != 0 || g.mcCount % 256 != 0 || decide (65536 < g.mcBase + g.mcCount) ||
    !m.zero 28 4 ||
    (tilesOfMap g.ports).any (fun t => decide (16 < g.scanWeight +
      sumOver (s.sideStages.filter (fun j => j != k && (s.stageTiles j).contains t)) (fun j => (s.stage j).scanWeight)))

/-- Do two ranges of heads share a head? -/
def headsMeet (a b : Stage) : Bool :=
  decide (0 < a.mcCount) && decide (0 < b.mcCount) && decide (a.mcBase < b.mcBase + b.mcCount) && decide (b.mcBase < a.mcBase + a.mcCount)

/-- A port or head named belongs to another side stage (log entry 104). -/
def stageForeign (s : State) (k : Nat) (g : Stage) : Bool :=
  s.sideStages.any (fun j => j != k && (g.ports &&& (s.stage j).ports != 0 || headsMeet g (s.stage j)))

/-- Is a head in a stage's range? -/
def Stage.hasHead (g : Stage) (h : Nat) : Bool := decide (g.mcBase ≤ h) && decide (h < g.mcBase + g.mcCount)

/-- VMASK bits of the live versions of a stage. -/
def State.liveMask (s : State) (k : Nat) : Nat := if s.hasRetiring k then 3 else s.curMask k

/-- Is some head that a test admits valid in a live version of a stage? -/
def State.headLive (s : State) (k : Nat) (f : Nat → Bool) : Bool :=
  (s.backsOf k 11).any (fun e => f (e.1 % 2 ^ 24) && e.2.any (fun x => x.vmask &&& s.liveMask k != 0))

/-- Is a sub-port of a port of a map ADMIN UP? -/
def State.anyAdmin (s : State) (ports : Nat) : Bool := (portsOf ports).any (fun p => (lportsOf p).any (fun l => (s.lport l).admin))

/-- Ports of one map that another does not name. -/
def mapMinus (a b : Nat) : Nat := a - (a &&& b)

/-- BUSY of what a stage takes over from S0 (R437): ports with ADMIN UP, heads valid in a live version of S0. -/
def takesBusy (s : State) (old new : Stage) : Bool :=
  s.anyAdmin (mapMinus new.ports old.ports) || s.headLive 0 (fun h => new.hasHead h && !old.hasHead h)

/-- NO_SPACE of what a stage takes over from S0 (R437): paddocks, shared cells, and reservations against the quotas that remain (R280). -/
def takesTooMuch (s : State) (k : Nat) (old new : Stage) : Bool :=
  let had (t v : Nat) : Nat := if (tilesOfMap old.ports).contains t then v else 0
  let s1 := s.putStage k new
  (tilesOfMap new.ports).any (fun t =>
    decide (s.padsFree 0 t < new.paddocks - had t old.paddocks) || decide (s.sharedFree 0 t < new.foldCells - had t old.foldCells)) ||
    s1.overReserved 0 || s1.overReserved k

/-! ### STAGE.CREATE and STAGE_READY (R437) -/

def opStageCreate : Op := (Op.plain 0x0301 .owner .hrl).withA
def bodyStageCreate (m : Msg) (s : State) : Answer :=
  let k := m.u8 0
  let g := stageGiven m 1
  orDeny [(m.plen != 32, St.badLength), (stageBad s m, St.badField), (stageForeign s k g, St.notPermitted), (s.atLimit m, St.busy),
          ((s.stage k).state != 0, St.busy), (takesBusy s Stage.absent g, St.busy), (takesTooMuch s k Stage.absent g, St.noSpace)] s
    (accept ((s.putStage k g).onVer k (fun _ => Ver.reset)))
def execStageCreate (m : Msg) (s : State) : Out := commandRow opStageCreate bodyStageCreate m s

/-- STAGE_READY (R437, R382, R391): every tile is ready; the stage's mailbox is enabled with ANY set, and both mailboxes hear of it. -/
def execStageReady (k : Nat) (s : State) : Out :=
  onUnit (decide (1 ≤ k) && decide (k ≤ 4))
    (s.when ((s.stage k).state == 1) (fun s =>
      let s1 := s.putStage k { s.stage k with state := 2 }
      let s2 := s1.onMb k (fun b => { b with enabled := mbEnabledIn s1 s1.cmd.mode k, any := true, uany := true })
      (s2.finishFor 0 (fun o => o.opcode == 0x0301 && fieldLE o.payload 0 1 == k) Ev.stageReady Lv.device k St.done (leBytes 1 k ++ zeros 3)).post
        k Ev.stageReady Lv.device k (leBytes 1 k ++ zeros 3)))

/-! ### STAGE.RESIZE and STAGE_RESIZED (R438) -/

/-- Something to be taken away is in use: a paddock or cells of a tile, a head valid in a live version of the stage. -/
def leavesBusy (s : State) (k : Nat) (old new : Stage) : Bool :=
  let keeps (t v : Nat) : Nat := if (tilesOfMap new.ports).contains t then v else 0
  s.anyAdmin (mapMinus old.ports new.ports) ||
    (tilesOfMap old.ports).any (fun t =>
      decide (keeps t new.paddocks < s.padsUsedBy k t) ||
      decide (keeps t new.foldCells < s.sumPkts (fun p => if p.tile = t ∧ p.ctx.stage = k then p.charged else 0) + s.flushingCells k t)) ||
    s.headLive k (fun h => old.hasHead h && !new.hasHead h)

/-- What the tiles newly added must hold beside paddocks: the words of the graphs and the states of the pattern sets (log entry 104). -/
def addedTooMuch (s : State) (k : Nat) (old new : Stage) : Bool :=
  let nodes := ((s.graphs k).all.map (fun g => g.nodes.length)).foldl (· + ·) 0
  let states := ((s.sets k).all.map (fun x => x.states)).foldl (· + ·) 0
  let pads := if (tilesOfMap old.ports) = [] then 0 else s.padsUsedBy k ((tilesOfMap old.ports).headD 0)
  ((tilesOfMap new.ports).filter (fun t => !(tilesOfMap old.ports).contains t)).any (fun t =>
    decide (s.nodesFree t < nodes) || decide (s.statesFree t < states) || decide (new.paddocks < pads))

def opStageResize : Op := (Op.plain 0x0302 .owner .hrl).withA
def bodyStageResize (m : Msg) (s : State) : Answer :=
  let k := m.u8 0
  let old := s.stage k
  let g := stageGiven m 2
  orDeny [(m.plen != 32, St.badLength), (stageBad s m, St.badField), (stageForeign s k g, St.notPermitted), (s.atLimit m, St.busy),
          (old.state != 2 || (s.ver k).state != 0, St.busy), (leavesBusy s k old g || takesBusy s old g, St.busy),
          (takesTooMuch s k old g || addedTooMuch s k old g, St.noSpace)] s
    (accept ((s.putStage k { old with state := 3 }).onCmd (fun c => { c with resizing := SMap.insert k g c.resizing })))
def execStageResize (m : Msg) (s : State) : Out := commandRow opStageResize bodyStageResize m s

/-- The state of a stage in a tile it leaves is scrubbed: its paddocks, node words, moves and learning there. -/
def State.scrubTile (s : State) (k t : Nat) : State :=
  let isMine (e : Nat × Bind Inst) : Bool := e.1 / 16 == k
  let pads := ((s.tab.insts.filter isMine).map (fun e => (e.2.all.map (fun i => SMap.get [] t i.pads)).flatten)).flatten
  let inPads (w : Nat) : Bool := w / 32768 / 96 == t && pads.contains (w / 32768 % 96)
  let dropI (i : Inst) : Inst := { i with pads := SMap.erase t i.pads }
  let dropG (g : Graph) : Graph := { g with words := SMap.erase t g.words }
  let words := ((s.graphs k).all.map (fun g => SMap.get [] t g.words)).flatten
  let inWords (w : Nat) : Bool := w / 1024 == t && words.contains (w % 1024)
  let s1 := s.onTab (fun a => { a with
    sram := SMap.keep (fun w _ => !inPads w) a.sram,
    poison := a.poison.filter (fun w => !inPads w),
    nodeTile := SMap.keep (fun w _ => !inWords w) a.nodeTile,
    nodeBad := a.nodeBad.filter (fun w => !inWords w),
    insts := SMap.mapD Bind.empty (fun e b => if e / 16 = k then
      { b with cur := b.cur.map dropI, next := b.next.map dropI, old := b.old.map dropI } else b) a.insts,
    provs := a.provs.filter (fun p => !(p.tile == t && p.stage == k)),
    moves := SMap.keep (fun e _ => e / 16 != t * 5 + k) a.moves,
    walks := SMap.keep (fun e _ => e / 16 != t * 5 + k) a.walks,
    moveRate := SMap.erase (t * 5 + k) a.moveRate })
  s1.onGraphs k (fun b => { b with cur := b.cur.map dropG, next := b.next.map dropG, old := b.old.map dropG })

/-- The direct halves of a tile newly added: the current version's and the next version's content (R142). -/
def State.fillBothHalves (s : State) (k : Nat) (i : Inst) : State :=
  let cb := s.curMask k
  let nb := s.nextMask k
  (s.backsOf k 6).foldl (fun s e =>
    let d := e.1 / 2 ^ 33
    let len := pkeyLen 32 (e.1 % 2 ^ 33)
    forEach (s.instTiles k i) (fun t s =>
      forEach (range (pkeyAddr 32 (e.1 % 2 ^ 33) / 65536) (2 ^ (16 - len))) (fun x s =>
        s.writeLoc i t (directHalfLoc d x) (restageDirect k cb nb (directWord k (3, coverOf (s.shortPrefixes k d cb) x) (0, 0))
          (coverOf (s.shortPrefixes k d nb) x))) s) s) s

/-- One instance in the tiles newly added: it takes paddocks there, and what the backing store holds is written (learning starts empty).
The stage's map names the added tiles alone while this is done. -/
def State.extendInst (s : State) (k kind : Nat) (i : Inst) : State :=
  let n := if i.split then i.p / 2 else i.p
  let pads := (s.stageTiles k).foldl (fun l t => SMap.insert t (s.takePads t n) l) i.pads
  let new : Inst := { i with pads := pads }
  let rename (x : Inst) : Inst := if x = i then new else x
  let s1 := s.onInsts k kind (fun b => { b with cur := b.cur.map rename, next := b.next.map rename, old := b.old.map rename })
  if kind = 6 then s1.fillBothHalves k new else s1.fillInst k new

/-- The graphs of a stage take node words in the tiles newly added. -/
def State.extendGraph (s : State) (k : Nat) (g : Graph) : State :=
  let placed := (s.placeGraph k g).words
  let new : Graph := { g with words := placed.foldl (fun l e => SMap.insert e.1 e.2 l) g.words }
  let rename (x : Graph) : Graph := if x = g then new else x
  (s.onGraphs k (fun b => { b with cur := b.cur.map rename, next := b.next.map rename, old := b.old.map rename })).writeNodes placed

/-- The stage's versioned state is written in the tiles newly added. -/
def State.addTiles (s : State) (k : Nat) (old new : Stage) (tiles : List Nat) : State :=
  let there := (portsOf new.ports).foldl (fun a p => if tiles.contains (p / 6) then a + 2 ^ p else a) 0
  let s1 := s.putStage k { new with ports := there }
  let s2 := instKinds.foldl (fun s kind => (s.insts k kind).all.eraseDups.foldl (fun s i => s.extendInst k kind i) s) s1
  let s3 := (s2.graphs k).all.eraseDups.foldl (fun s g => s.extendGraph k g) s2
  s3.putStage k old

/-- The end of a resize: the tiles left are scrubbed, the tiles added are written, removed ports pass to S0 with ADMIN DOWN. -/
def State.endResize (s : State) (k : Nat) (new : Stage) : State :=
  let old := s.stage k
  let left := (tilesOfMap old.ports).filter (fun t => !(tilesOfMap new.ports).contains t)
  let added := (tilesOfMap new.ports).filter (fun t => !(tilesOfMap old.ports).contains t)
  let s1 := forEach left (fun t s => s.scrubTile k t) s
  let s2 := if added.isEmpty then s1 else s1.addTiles k old new added
  let s3 := (s2.putStage k new).onCmd (fun c => { c with resizing := SMap.erase k c.resizing })
  s3.finishFor 0 (fun o => o.opcode == 0x0302 && fieldLE o.payload 0 1 == k) Ev.stageResized Lv.device k St.done (leBytes 1 k ++ zeros 3)

/-- STAGE_RESIZED (R438): a resize in progress ends. -/
def execStageResized (k : Nat) (s : State) : Out :=
  onUnit (decide (1 ≤ k) && decide (k ≤ 4))
    (match SMap.find k s.cmd.resizing with
     | some new => s.when ((s.stage k).state == 3) (fun s => s.endResize k new)
     | none => s)

/-! ### STAGE.DISSOLVE and STAGE_DISSOLVED (R439) -/

/-- Steps 1 and 2: the mailbox is disabled and what it held is gone; the stage's lports are flushed and DOWN, its rings OFF. -/
def State.beginDissolve (s : State) (k : Nat) : State :=
  let s1 := s.onMb k (fun b => { b with
    enabled := false, intake := [], urgIntake := none, urgBusy := false, responses := [], uresponses := [], outstanding := [] })
  let s2 := s1.onCmd (fun c => { c with
    held := c.held.filter (fun h => h.stage != k), stages := SMap.adjust k (fun g => { g with state := 4 }) c.stages,
    dissolving := SMap.insert k s.now c.dissolving })
  let s3 := s2.onCount (fun c => { c with
    snapWaiters := c.snapWaiters.filter (fun w => w.mb != k), copyWaiters := c.copyWaiters.filter (fun w => w.mb != k) })
  let lports := ((portsOf (s.stage k).ports).map lportsOf).flatten.filter (fun l => (s.lport l).configured)
  let s4 := forEach lports (fun l s =>
    let was := (s.lport l).oper
    let x := (s.stopLport l).onLport l (fun q => { q with
      oper := 0, cause := 5, trainSince := s.now, cfg := q.cfg.map (fun c => setBit c 10 false) })
    if was = 0 then x else x.post 0 Ev.linkDown Lv.port l (leBytes 1 5 ++ zeros 3)) s3
  let pairs := (range 0 64).filter (fun p => (s.ring p).assigned && (s.ring p).stage == k)
  s4.onHost (fun h => { h with
    rings := SMap.mapD Ring.reset (fun p g => if pairs.contains p then g.off else g) h.rings,
    dumps := h.dumps.filter (fun d => d.mb != k),
    pools := pairs.foldl (fun p r => p.freeOwned r) h.pools })

def opStageDissolve : Op := (Op.plain 0x0303 .owner .hrl).withA
def bodyStageDissolve (m : Msg) (s : State) : Answer :=
  let k := m.u8 0
  orDeny [(m.plen != 4, St.badLength), (k == 0 || decide (4 < k) || !m.zero 1 3, St.badField), (s.atLimit m, St.busy),
          ((s.stage k).state == 0, St.notFound), ((s.stage k).state != 2 || s.committing k, St.busy)] s
    (accept (s.beginDissolve k))
def execStageDissolve (m : Msg) (s : State) : Out := commandRow opStageDissolve bodyStageDissolve m s

/-- What a stage's tables, programs and rules hold is scrubbed (R439, R99, R246). -/
def TableSt.scrub (a : TableSt) (k : Nat) : TableSt :=
  let e := SMap.get EditSt.reset k a.edits
  let inRange (w : Nat) : Bool := decide (e.base ≤ w % 8192) && decide (w % 8192 < e.base + e.count)
  let isMine (b : Nat) : Bool := match SMap.find b a.blocks with | some x => x.stage == k | none => false
  { a with
    vers := SMap.erase k a.vers,
    insts := SMap.keep (fun x _ => x / 16 != k) a.insts,
    backing := SMap.keep (fun x _ => x / 2 ^ 200 / 16 != k) a.backing,
    staticNew := a.staticNew.filter (fun x => x.1 != k),
    ctrLost := SMap.keep (fun x _ => x / 2 ^ 20 / 8 != k) a.ctrLost,
    cfgs := SMap.keep (fun x _ => x / 2 != k) a.cfgs,
    cfgStarted := a.cfgStarted.filter (fun x => x != k),
    blocks := SMap.keep (fun _ b => b.stage != k) a.blocks,
    omaTile := SMap.keep (fun x _ => !isMine (x % 32768 / 1024)) a.omaTile,
    omaBad := a.omaBad.filter (fun x => !isMine (x % 32768 / 1024)),
    graphs := SMap.erase k a.graphs,
    loads := SMap.keep (fun x _ => x / 4 != k) a.loads,
    checking := a.checking.filter (fun x => x.1 / 4 != k),
    sets := SMap.erase k a.sets,
    surveys := SMap.keep (fun _ x => x.stage != k) a.surveys,
    ucode := SMap.keep (fun w _ => !inRange w) a.ucode,
    ucodeBad := a.ucodeBad.filter (fun w => !inRange w),
    edits := SMap.erase k a.edits,
    sweepPosted := a.sweepPosted.filter (fun x => x != k) }

/-- What the switch core and the queues hold of a stage is scrubbed: packets, class settings, sessions, policers. -/
def SwitchSt.scrub (w : SwitchSt) (k ports : Nat) : SwitchSt :=
  let r := SMap.get (0, 0) k w.polRange
  let inRange (p : Nat) : Bool := decide (r.1 ≤ p) && decide (p < r.1 + r.2)
  { w with
    pkts := SMap.keep (fun _ p => p.ctx.stage != k && !(p.phase == .fifo && decide (p.src < 48) && ports.testBit (p.tile * 6 + p.src / 8))) w.pkts,
    classes := SMap.keep (fun x _ => x / 8 != k) w.classes,
    sessions := SMap.keep (fun x _ => x / 32 != k) w.sessions,
    flushing := w.flushing.filter (fun f => f.2.1 != k),
    pinned := SMap.keep (fun x _ => x / 8 % 5 != k) w.pinned,
    policers := SMap.keep (fun x _ => !inRange x) w.policers,
    buckets := SMap.keep (fun x _ => !inRange (x % 8192)) w.buckets,
    polRange := SMap.erase k w.polRange,
    colours := SMap.erase k w.colours }

/-- What the host path holds of a stage is scrubbed: pool buffers, ring pairs, quota, and its mailbox with its areas; EVSEQ goes on (R389). -/
def HostSt.scrub (h : HostSt) (k : Nat) : HostSt :=
  { h with
    mbs := SMap.upd Mailbox.reset k (fun b => { Mailbox.reset with evSeq := b.evSeq }) h.mbs,
    areas := Memory.clear h.areas (0x100000 + k * 0x20000) 0x20000,
    rings := SMap.keep (fun _ g => g.stage != k) h.rings,
    pools := { h.pools with
      buffers := SMap.keep (fun _ b => b.stage != k) h.pools.buffers,
      quotas := SMap.erase k h.pools.quotas,
      limits := SMap.erase (64 + k) h.pools.limits },
    puntRot := SMap.keep (fun x _ => x / 8 != k) h.puntRot,
    capWait := h.capWait.filter (fun x => x.2 / 4 != k) }

/-- Counters of a stage, its settings, records and shares (log entry 105). -/
def State.scrubRest (s : State) (k : Nat) : State :=
  let mine (x : Nat) : Bool := x / 256 % 8 == k
  let bank (b : Bank) : Bank := { b with events := SMap.keep (fun x _ => !mine x) b.events }
  let s1 := s.onCount (fun c => { c with
    events := SMap.keep (fun x _ => !mine x) c.events, bank0 := bank c.bank0, bank1 := bank c.bank1 })
  let s2 := s1.onCmd (fun c => { c with
    settings := SMap.keep (fun x _ => !(settingScope (x / 512) == some 1 && x % 512 == k)) c.settings })
  let s3 := s2.onBook (fun b => { b with
    rings := SMap.keep (fun x _ => x / 8 != k) b.rings, shares := SMap.erase k b.shares,
    captures := SMap.keep (fun x _ => x / 4 != k) b.captures, flows := SMap.keep (fun x _ => x / 2 != k) b.flows })
  let s4 := s3.onFault (fun f => { f with stageCounts := SMap.keep (fun x _ => x % 8 != k) f.stageCounts })
  s4.onMem (fun m => { m with shares := SMap.keep (fun x _ => x / 8 != k) m.shares })

/-- Steps 4 and 5: everything of the stage is scrubbed and passes to S0, with ports at ADMIN DOWN. -/
def State.endDissolve (s : State) (k : Nat) : State :=
  let s1 := forEach (s.stageTiles k) (fun t s => s.scrubTile k t) s
  let s2 := ((s1.onTab (fun a => a.scrub k)).onSw (fun w => w.scrub k (s.stage k).ports)).onHost (fun h => h.scrub k)
  let s3 := (s2.scrubRest k).onCmd (fun c => { c with stages := SMap.erase k c.stages, dissolving := SMap.erase k c.dissolving })
  s3.finishFor 0 (fun o => o.opcode == 0x0303 && fieldLE o.payload 0 1 == k) Ev.stageDissolved Lv.device k St.done (leBytes 1 k ++ zeros 3)

/-- Packets of a stage held in some tile. -/
def State.stageHeld (s : State) (k : Nat) : List Nat :=
  s.pktsWhere (fun p => p.ctx.stage == k && (range 0 8).any (fun t => p.heldBy t))

/-- STAGE_DISSOLVED (R439, R190): the versions have drained, or 100 µs have passed and what has not begun is discarded. -/
def execStageDissolved (k : Nat) (s : State) : Out :=
  onUnit (decide (1 ≤ k) && decide (k ≤ 4))
    (s.when ((s.stage k).state == 4) (fun s =>
      let late := decide ((SMap.get 0 k s.cmd.dissolving) + tkUs 100 ≤ s.now)
      let s1 := if late then forEach ((s.stageHeld k).filter (fun id => match s.pkt id with | some p => p.notBegun | none => false))
                  (fun id s => s.expirePkt id) s else s
      if (s1.stageHeld k).isEmpty then s1.endDissolve k else s1))

/-! ### STAGE.STATUS (R440) -/

/-- The least of a figure over the tiles. -/
def leastOf (f : Nat → Nat) : Nat := (range 1 7).foldl (fun a t => min a (f t)) (f 0)

/-- A stage's 32-byte record. -/
def State.stageRecord (s : State) (k : Nat) : List Byte :=
  let g : Stage := if k = 0 then
      { state := 2, scanWeight := leastOf (fun t => s.scanWeightIn 0 t), ports := s.stagePorts 0, paddocks := leastOf (fun t => s.padsHeld 0 t),
        foldCells := leastOf (fun t => s.foldQuota 0 t), mcBase := 0, mcCount := 65536 - sumOver s.sideStages (fun j => (s.stage j).mcCount) }
    else s.stage k
  leBytes 1 k ++ leBytes 1 g.state ++ leBytes 1 g.scanWeight ++ leBytes 1 (if g.state = 0 then 0xE else (s.ver k).cur) ++
    leBytes 8 g.ports ++ leBytes 1 g.paddocks ++ zeros 3 ++ leBytes 4 g.foldCells ++ leBytes 4 g.mcBase ++ leBytes 4 g.mcCount ++ zeros 4

def opStageStatus : Op := (Op.plain 0x0304 .read .all).withRS
def bodyStageStatus (m : Msg) (s : State) : Answer :=
  let k := s.stageOf m
  orDeny [(m.plen != 0, St.badLength)] s
    (doneWith (if k = 0 then ((range 0 5).map s.stageRecord).flatten else s.stageRecord k) s)
def execStageStatus (m : Msg) (s : State) : Out := commandRow opStageStatus bodyStageStatus m s

end Sys2Proof.Machine
end

