-- ==== Sys2Proof/Machine/TableEvents.lean ====
section
/-! DEFINITION. What tiles do to their tables on their own (R126–R133): verdicts on provisions, removal under new statics, MOVE_STORM, ageing,
scrub and repair. -/
namespace Sys2Proof.Machine
open Sys2Proof

/-- PROVISION_VERDICT (R126): the sequencer of a tile acts on the oldest provision whose frame's verdict is known. -/
def execProvisionVerdict (t : Nat) (s : State) : Out :=
  onUnit (decide (t < 8))
    (match s.tab.provs.find? (fun p => p.tile == t && p.verdict.isSome) with
     | some p =>
       let s1 := s.onTab (fun a => { a with provs := a.provs.erase p })
       (s.insts p.stage 1).all.foldl (fun s i => s.judgeProvIn i p (p.verdict.getD false)) s1
     | none => s)

/-- STATIC_LEARNED_REMOVAL (R128): the learned entries of stations whose static entry became valid are removed in every tile. -/
def execStaticLearnedRemoval (k : Nat) (s : State) : Out :=
  onUnit (decide (k ≤ 4))
    (let mine := s.tab.staticNew.filter (fun x => x.1 == k)
     let gone (raw : Nat) : Bool := mine.any (fun x => x.2.1 == bitsOf raw 108 12 && x.2.2 == bitsOf raw 60 48)
     let ws := ((s.stageTiles k).map (fun t => (s.learnedWords t k (s.insts k 1).all).filter (fun e => gone e.2))).flatten
     (ws.foldl (fun s e => s.putWord e.1 0) s).onTab (fun a => { a with staticNew := a.staticNew.filter (fun x => x.1 != k) }))

/-- MOVE_STORM (R128, R135): raised once in a second in which a tile's firm moves of a stage exceed MOVE_LIMIT. -/
def execMoveStorm (t k : Nat) (s : State) : Out :=
  let sec := s.now / tkS 1
  let m := SMap.get (0, 0) (t * 5 + k) s.tab.moveRate
  let key := 512 + (t * 5 + k)
  let raised := match SMap.find key s.tab.onsets with | some x => x / tkS 1 == sec | none => false
  onUnit (decide (t < 8) && decide (k ≤ 4))
    (s.when (m.1 == sec && decide (s.setting 0x0011 k < m.2) && !raised) (fun s =>
      (s.onTab (fun a => { a with onsets := SMap.insert key s.now a.onsets })).post k Ev.moveStorm Lv.tile t
        (leBytes 1 t ++ zeros 3 ++ leBytes 4 m.2)))

/-- Is a place of a tile's table SRAM one R102 gives it? -/
def placeOk (t pad line word : Nat) : Bool := decide (t < 8) && decide (pad < 96) && decide (line < 8192) && decide (word < 4)

/-- AGEING_VISIT (R130, R131): a firm learned entry loses HIT, or is removed where it had none; a source hit in the same port cycle saves it. -/
def execAgeingVisit (t pad line word : Nat) (hit : Bool) (s : State) : Out :=
  let w := wordKey t pad line word
  let raw := s.word w
  let k := entStage 1 raw
  let learned := s.tab.insts.any (fun e => e.1 % 16 == 1 && e.2.all.any (fun i => (SMap.get [] t i.pads).contains pad)) &&
    entVmask 1 raw != 0 && entLearned 1 raw && !l2Prov raw
  onUnit (placeOk t pad line word)
    (s.when learned (fun s =>
      if l2Hit raw then s.putWord w (setBit raw 121 hit)
      else if hit then (s.putWord w (setBit raw 121 true)).bump t k 0x3A
      else (s.putWord w 0).bump t k 0x39))

/-- The instance that holds a paddock of a tile: its stage and itself. -/
def State.padInst (s : State) (t pad : Nat) : Option (Nat × Inst) :=
  (s.tab.insts.map (fun e => (e.2.all.filter (fun i => (SMap.get [] t i.pads).contains pad)).map (fun i => (e.1 / 16, i)))).flatten.head?

/-- PADDOCK_SCRUB (R133, R460): a scrub read finds a word good (0), corrects it (1), or finds it uncorrectable (2): a learned entry is removed,
another word is poisoned. -/
def execPaddockScrub (t pad line word found : Nat) (s : State) : Out :=
  let w := wordKey t pad line word
  let k := (s.padStage t pad).getD 0
  let kind := ((s.padInst t pad).map (fun x => x.2.kind)).getD 0
  let addr := (pad * 8192 + line) * 4 + word
  onUnit (placeOk t pad line word)
    (if found = 1 then (s.bump t k 0x31).report (Report.of Fc.sramCe Lv.tile t k (4 * 1024 + t) 4 addr 0)
     else if found = 2 then
       if kind = 1 ∧ entVmask 1 (s.word w) ≠ 0 ∧ entLearned 1 (s.word w) then
         (s.putWord w 0).report (Report.of Fc.learnedUe Lv.tile t k (4 * 1024 + t) 4 addr kind)
       else ((s.onTab (fun a => { a with poison := if a.poison.contains w then a.poison else a.poison ++ [w] }))).report
         (Report.of Fc.tableUe Lv.tile t k (4 * 1024 + t) 4 addr kind)
     else s)

/-- A word of an instance takes the content of the backing store: entries it does not hold go, direct entries are rewritten. -/
def State.rewriteWord (s : State) (k : Nat) (i : Inst) (t : Nat) (w : Nat × Nat × Nat) : State :=
  if i.kind ≤ 5 then
    forEach (range 0 4) (fun j s =>
      let st := s.slotState i t (i.bucketOf w) j
      let raw := s.slotRaw i t (i.bucketOf w) j
      if (st == 1 || st == 2) && !entLearned i.kind raw && !s.backed k i.kind raw then s.clearEnt i t (i.bucketOf w) j else s) s
  else if 9 ≤ i.kind ∧ i.kind ≤ 12 then
    (i.directsIn t w).foldl (fun s d => s.writeLoc i t d.2 (match (s.backs k i.kind d.1).head? with
      | some x => directRaw i.kind d.1 x | none => 0)) s
  else s

/-- The stage and the repair of one poisoned word: a counter word is zeroed and its loss noted; a free word is zeroed. -/
def State.repairWord (s : State) (t pad line word : Nat) : State :=
  let w := wordKey t pad line word
  let s0 := s.onTab (fun a => { a with poison := a.poison.filter (fun x => x != w), tries := SMap.erase w a.tries })
  match s.padInst t pad with
  | none => s0.putWord w 0
  | some (k, i) =>
    let pads := SMap.get [] t i.pads
    let idx := (if i.split && t % 2 == 1 then i.p / 2 else 0) + ((findIdxVal (fun p => p == pad) pads 0).map (fun x => x.1)).getD 0
    if i.kind = 13 then
      (s0.putWord w 0).onTab (fun a => { a with
        ctrLost := SMap.upd 0 ((k * 8 + t) * 2 ^ 20 + (idx * 32768 + line * 4 + word)) (fun n => n + 1) a.ctrLost })
    else s0.rewriteWord k i (if i.split then t - t % 2 else t) (idx, line, word)

/-- POISON_REPAIR (R133): a poisoned word is rewritten; a rewrite that fails twice raises TABLE_REPAIR_FAIL and withdraws the paddock. -/
def execPoisonRepair (t pad line word : Nat) (ok : Bool) (s : State) : Out :=
  let w := wordKey t pad line word
  onUnit (placeOk t pad line word)
    (s.when (s.tab.poison.contains w) (fun s =>
      if ok then s.repairWord t pad line word
      else if SMap.get 0 w s.tab.tries = 0 then s.onTab (fun a => { a with tries := SMap.insert w 1 a.tries })
      else (s.onTab (fun a => { a with
          tries := SMap.erase w a.tries,
          withdrawn := if a.withdrawn.contains (t * 96 + pad) then a.withdrawn else a.withdrawn ++ [t * 96 + pad] })).post
        ((s.padStage t pad).getD 0) Ev.tableRepairFail Lv.tile t (leBytes 1 t ++ leBytes 1 pad ++ leBytes 2 line)))

end Sys2Proof.Machine
end

