-- ==== Sys2Proof/Machine/Time.lean ====
section
/-! DEFINITION. The time unit's events and the TIME commands (R465–R476, R581). -/
namespace Sys2Proof.Machine
open Sys2Proof

/-! ### Events -/

/-- The second the next edge marks: a TIME.SET waiting for it, or the one after the last TOD sentence's. -/
def TimeSt.edgeSecond (t : TimeSt) : Option Nat :=
  match t.setSeconds with
  | some v => some v
  | none => t.tod.map (fun v => v + 1)

/-- The servo takes an accepted edge (R467, R469, R470): a step while LOCKING beyond STEP_THRESHOLD or to a named second, else the
frequency the servo wants, held to FREQ_BOUND. `offset` is network time less reference at the edge, in ns. -/
def State.servoEdge (s : State) (offset servo : Int) : State :=
  let t := s.time
  let locking := t.state != 2
  let b : Int := t.freqBound
  let f := clampInt servo (-b) b
  let pins := decide (servo < -b) || decide (b < servo)
  let good := if offset.natAbs ≤ 50 then t.goodRun + 1 else 0
  let s1 := s.onTime (fun t => { t with
    lastEdge := some s.now, edgeOffset := some offset, rejectRun := 0, goodRun := good, freq := f, servoPinned := pins,
    servoFreqs := (t.servoFreqs ++ [f]).drop (t.servoFreqs.length + 1 - 64), setSeconds := none, tod := none })
  let s2 := if pins && !t.servoPinned then s1.post 0 Ev.loopAtLimit Lv.device 0 (leBytes 1 6 ++ leBytes 1 (flagNat (decide (b < servo))) ++ zeros 2) else s1
  let target : Option Int :=
    match t.edgeSecond with
    | some sec => if t.setSeconds.isSome || (locking && t.sec != sec) then some ((sec * 1000000000 * 2 ^ 40 : Nat) : Int) else none
    | none => none
  let s3 := match target with
    | some v => s2.stepTime v (if t.setSeconds.isSome then 0 else 2)
    | none => if locking && decide (t.stepThreshold < offset.natAbs) then s2.stepTime (t.fine - offset * 2 ^ 40) 2 else s2
  if t.state = 0 ∨ t.state = 3 then s3.timeState 1
  else if t.state = 1 ∧ 16 ≤ good then s3.timeState 2 else s3

/-- PPS_EDGE (R467, R470): a 1PPS_IN edge is sampled. While LOCKED an edge more than 1 ms off is rejected and counted PPS_REJECT, and
the third in a row returns the unit to LOCKING. Other sources ignore edges. -/
def execPpsEdge (offset servo : Int) (s : State) : Out :=
  .next (if s.time.source != 2 then s
    else if s.time.state = 2 ∧ 1000000 < offset.natAbs then
      let s1 := (s.onTime (fun t => { t with rejects := t.rejects + 1, rejectRun := t.rejectRun + 1 })).bump 8 0 0xCE
      if 3 ≤ s1.time.rejectRun then (s1.onTime (fun t => { t with rejectRun := 0, goodRun := 0 })).timeState 1 else s1
    else s.servoEdge offset servo)

/-- PPS_LOST (R467, R468): no edge for 1.1 s; the unit holds the mean servo frequency of the last 64 accepted edges. -/
def execPpsLost (s : State) : Out :=
  .next (match s.time.lastEdge with
    | some e =>
      if s.time.source == 2 && (s.time.state == 1 || s.time.state == 2) && decide (e + tkMs 1100 ≤ s.now) then
        ((s.onTime (fun t => { t with freq := meanFreq t.servoFreqs })).post 0 Ev.ppsLost Lv.device 0 []).timeState 3
      else s
    | none => s)

/-- HOST_TIMEOUT (R467, R468): no adjustment for HOST_TIMEOUT while LOCKED; the frequency last set is held. -/
def execHostTimeout (s : State) : Out :=
  .next (if s.time.source == 1 && s.time.state == 2 && decide (s.time.lastAdjust + tkS s.time.hostTimeout ≤ s.now)
    then s.timeState 3 else s)

/-- TOD_SENTENCE (R471): a ZDA sentence with a right checksum, 10–900 ms after an edge, names the UTC second of that edge. -/
def execTodSentence (utc : Nat) (checksumOk : Bool) (s : State) : Out :=
  .next (match s.time.lastEdge with
    | some e =>
      if checksumOk && decide (e + tkMs 10 ≤ s.now) && decide (s.now ≤ e + tkMs 900) then
        s.onTime (fun t => { t with tod := some ((utc : Int) + t.utcOffset).toNat })
      else s
    | none => s)

/-- CALENDAR_WRITE (R472): while LOCKED, network time seconds are written into the calendar. -/
def execCalendarWrite (s : State) : Out :=
  .next (if s.time.state = 2 then s.onTime (fun t => { t with calendar := t.sec, calTick := s.now }) else s)

/-- SLEW_END (R469): the last CCLK of a slew applies only the remainder, and the slew frequency ends. -/
def execSlewEnd (s : State) : Out :=
  .next (if s.time.slew != 0 && s.time.slewLast then
    s.onTime (fun t => { (t.setFine (t.fine + t.slew)) with slew := 0 }) else s)

/-- Is 1PPS_OUT driven (R471)? PPS_OUT: 0 off, 1 in every state but FREE, 2 always. -/
def TimeSt.ppsDriven (t : TimeSt) : Bool := t.ppsOut == 2 || (t.ppsOut == 1 && t.state != 0)

/-- PPS_OUT_PULSE (R471): 1PPS_OUT rises as the nanoseconds field passes 0, and falls after PPS_WIDTH. -/
def execPpsOutPulse (s : State) : Out :=
  .next (match s.time.ppsHigh with
    | some e => if e ≤ s.now then s.onTime (fun t => { t with ppsHigh := none }) else s
    | none =>
      if s.time.ppsDriven && s.time.ns == 0 then s.onTime (fun t => { t with ppsHigh := some (s.now + tkMs t.ppsWidth) }) else s)

/-! ### Commands -/

/-- TIME.STATUS's record (R581). -/
def timeStatusRecord (s : State) : List Byte :=
  let t := s.time
  leBytes 1 t.source ++ leBytes 1 t.state ++ zeros 2 ++ leBytes 6 t.sec ++ zeros 2 ++ leBytes 4 t.ns ++ leBytes 8 s.localNs ++
    leBytes 4 (unsignedOf (t.freq + t.slewFreq) 32) ++
    leBytes 4 (if t.source = 2 then (match t.edgeOffset with | some o => unsignedOf o 32 | none => 0x80000000) else 0x80000000) ++
    leBytes 2 (unsignedOf t.utcOffset 16) ++ zeros 2 ++ leBytes 8 (unsignedOf (t.slew / 2 ^ 40) 64) ++ zeros 4

def opTimeStatus : Op := (Op.plain 0x0E01 .read .all).withRS.withU
def bodyTimeStatus (m : Msg) (s : State) : Answer :=
  orDeny [(m.plen != 0, St.badLength)] s (doneWith (timeStatusRecord s) s)
def execTimeStatus (m : Msg) (s : State) : Out := commandRow opTimeStatus bodyTimeStatus m s

/-- What selecting another source does (R467): FREE clears the frequency offset and ends a slew; every selection starts in FREE. -/
def TimeSt.select (t : TimeSt) (src : Nat) : TimeSt :=
  if src = t.source then t
  else
    let t1 := { t with source := src, state := 0, lastEdge := none, edgeOffset := none, rejectRun := 0, goodRun := 0,
                       servoFreqs := [], setSeconds := none, tod := none, servoPinned := false }
    if src = 0 then { t1 with freq := 0, slew := 0 } else t1

def opTimeConfig : Op := Op.plain 0x0E02 .owner .ops
def bodyTimeConfig (m : Msg) (s : State) : Answer :=
  orDeny [(m.plen != 20, St.badLength),
          (decide (2 < m.u8 0) || decide (2 < m.u8 1) || decide (m.u16 2 < 1) || decide (500 < m.u16 2) || decide (m.u32 4 < 100) ||
            decide (1000000000 < m.u32 4) || decide (m.u16 8 < 1) || decide (60 < m.u16 8) || decide (m.u32 12 < 1000) ||
            decide (500000000 < m.u32 12) || decide (m.u32 16 < 4800) || decide (115200 < m.u32 16), St.badField)] s
    (let s1 := s.onTime (fun t => { (t.select (m.u8 0)) with
       ppsOut := m.u8 1, ppsWidth := m.u16 2, stepThreshold := m.u32 4, hostTimeout := m.u16 8, utcOffset := m.int 10 2,
       freqBound := m.u32 12, todBaud := m.u32 16 })
     done (if s1.time.state = s.time.state then s1 else s1.raiseIrq 90))
def execTimeConfig (m : Msg) (s : State) : Out := commandRow opTimeConfig bodyTimeConfig m s

def opTimeSet : Op := Op.plain 0x0E03 .owner .ops
/-- TIME.SET (R469): a step; under PPS_TOD nanoseconds must be 0 and the seconds are taken at the next edge. -/
def bodyTimeSet (m : Msg) (s : State) : Answer :=
  let sec := m.u48 0
  let ns := m.u32 8
  orDeny [(m.plen != 12, St.badLength),
          (!m.zero 6 2 || decide (999999999 < ns) || (s.time.source == 2 && ns != 0), St.badField)] s
    (done (if s.time.source = 2 then s.onTime (fun t => { t with setSeconds := some sec })
           else s.stepTime (((sec * 1000000000 + ns) * 2 ^ 40 : Nat) : Int) 0))
def execTimeSet (m : Msg) (s : State) : Out := commandRow opTimeSet bodyTimeSet m s

/-- Checks common to the three operations of TIME.ADJUST (R469, R476). -/
def adjustChecks (op : Nat) (m : Msg) (s : State) : List (Bool × Nat) :=
  [(m.plen != 16, St.badLength),
   (m.u8 0 != op || !m.zero 1 3 || (op == 0 && (decide (m.int 4 4 < -freqLimit) || decide (freqLimit < m.int 4 4))), St.badField),
   (s.time.source == 2, St.notPermitted)]

/-- An adjustment under HOST brings the unit to LOCKED (R467). -/
def State.adjusted (s : State) : State :=
  if s.time.source = 1 then (s.onTime (fun t => { t with lastAdjust := s.now })).timeState 2 else s

def opTimeAdjust : Op := Op.plain 0x0E04 .owner .ops
/-- TIME.ADJUST FREQ sets the base frequency offset; a slew under way continues on it (R469). -/
def bodyTimeAdjustFreq (m : Msg) (s : State) : Answer :=
  orDeny (adjustChecks 0 m s) s (done (s.onTime (fun t => { t with freq := m.int 4 4 })).adjusted)
def execTimeAdjustFreq (m : Msg) (s : State) : Out := commandRow opTimeAdjust bodyTimeAdjustFreq m s
/-- TIME.ADJUST SLEW starts or replaces a slew; OFFSET 0 ends one (R469). -/
def bodyTimeAdjustSlew (m : Msg) (s : State) : Answer :=
  orDeny (adjustChecks 1 m s) s (done (s.onTime (fun t => { t with slew := m.int 8 8 * 2 ^ 40 })).adjusted)
def execTimeAdjustSlew (m : Msg) (s : State) : Out := commandRow opTimeAdjust bodyTimeAdjustSlew m s
/-- TIME.ADJUST STEP steps network time by OFFSET (R469). -/
def bodyTimeAdjustStep (m : Msg) (s : State) : Answer :=
  orDeny (adjustChecks 2 m s) s (done (s.stepTime (s.time.fine + m.int 8 8 * 2 ^ 40) 1).adjusted)
def execTimeAdjustStep (m : Msg) (s : State) : Out := commandRow opTimeAdjust bodyTimeAdjustStep m s

def opTimePort : Op := (Op.plain 0x0E05 .stage .ops).withRS
/-- TIME.PORT CONFIG: PTP_EN, ONE_STEP and the delays of an lport (R473, R476). -/
def bodyTimePortConfig (m : Msg) (s : State) : Answer :=
  let l := m.u16 0
  orDeny [(m.plen != 8, St.badLength), (decide (383 < l) || m.u8 2 != 0 || decide (3 < m.u8 3), St.badField),
          (!s.ownsLport (s.stageOf m) l, St.notPermitted)] s
    (done (s.onPtp l (fun p => { p with enabled := bitOf (m.u8 3) 0, oneStep := bitOf (m.u8 3) 1, rxDelay := m.int 4 2,
                                        txDelay := m.int 6 2 })))
def execTimePortConfig (m : Msg) (s : State) : Out := commandRow opTimePort bodyTimePortConfig m s

/-- A ring entry's 16 bytes (R475). -/
def TsEntry.bytes (e : TsEntry) : List Byte :=
  leBytes 6 e.sec ++ leBytes 4 e.ns ++ leBytes 1 e.type ++ leBytes 1 e.domain ++ leBytes 2 e.seqid ++ leBytes 2 e.portnum

/-- TIME.PORT READ: the ring's next serial, LOST when FIRST has been overwritten, then the entries from FIRST on that are still held. -/
def bodyTimePortRead (m : Msg) (s : State) : Answer :=
  let l := m.u16 0
  let p := s.ptpPort l
  let ring := if m.u8 3 = 0 then p.rx else p.tx
  let next := if m.u8 3 = 0 then p.rxNext else p.txNext
  let first := m.u32 4
  let age := subMod next first (2 ^ 32)
  orDeny [(m.plen != 8, St.badLength), (decide (383 < l) || m.u8 2 != 1 || decide (1 < m.u8 3), St.badField),
          (!s.ownsLport (s.stageOf m) l, St.notPermitted)] s
    (doneWith (leBytes 4 next ++ leBytes 1 (flagNat (decide (ring.length < age) && decide (age ≤ 2 ^ 31))) ++ zeros 3 ++
      ((ring.filter (fun e => decide (subMod next e.serial (2 ^ 32) ≤ age))).map TsEntry.bytes).flatten) s)
def execTimePortRead (m : Msg) (s : State) : Out := commandRow opTimePort bodyTimePortRead m s

end Sys2Proof.Machine
end

