-- ==== Sys2Proof/Machine/Take.lean ====
section
/-! DEFINITION. How firmware takes commands (R385, R400, R414–R416): COMMAND_TAKE from an intake queue, an urgent lane or a WORK ring, the
opcode catalogue, and WORK_ITEM, which fetches a WORK ring's messages and writes their responses. -/
namespace Sys2Proof.Machine
open Sys2Proof

/-! ### The opcode catalogue (R427) -/

/-- A row of the catalogue with its meaning. -/
abbrev CatRow := Op × (Msg → State → Answer)

/-- TIME.ADJUST and TIME.PORT choose their meaning by OP (R476). -/
def bodyTimeAdjust (m : Msg) (s : State) : Answer :=
  if m.u8 0 = 0 then bodyTimeAdjustFreq m s else if m.u8 0 = 1 then bodyTimeAdjustSlew m s else bodyTimeAdjustStep m s
def bodyTimePort (m : Msg) (s : State) : Answer := if m.u8 2 = 0 then bodyTimePortConfig m s else bodyTimePortRead m s

def catalogueSys : List CatRow :=
  [(opSysPing, bodySysPing), (opSysStatus, bodySysStatus), (opSysControlStatus, bodySysControlStatus),
   (opSysFwLoad, bodySysFwLoad), (opSysFwActivate, bodySysFwActivate), (opSysSwitchover, bodySysSwitchover),
   (opSysReset, bodySysReset), (opSysSet, bodySysSet), (opSysGet, bodySysGet), (opSysAsyncStatus, bodySysAsyncStatus)]
def catalogueMode : List CatRow :=
  [(opModeSet, bodyModeSet), (opModeStatus, bodyModeStatus)]
def catalogueStage : List CatRow :=
  [(opStageCreate, bodyStageCreate), (opStageResize, bodyStageResize), (opStageDissolve, bodyStageDissolve),
   (opStageStatus, bodyStageStatus)]
def cataloguePort : List CatRow :=
  [(opPortConfig, bodyPortConfig), (opPortStatus, bodyPortStatus), (opPortHealth, bodyPortHealth),
   (opPortSerdesBounds, bodyPortSerdesBounds)]
def catalogueModule : List CatRow :=
  [(opModuleStatus, bodyModuleStatus), (opModuleRead, bodyModuleRead), (opModuleWrite, bodyModuleWrite),
   (opModuleReset, bodyModuleReset)]
def catalogueParse : List CatRow :=
  [(opParseLoad, bodyParseLoad), (opParseDiscard, bodyParseDiscard), (opParseRead, bodyParseRead),
   (opParseStatus, bodyParseStatus)]
def catalogueTable : List CatRow :=
  [(opTableCreate, bodyTableCreate), (opTableProfile, bodyTableProfile), (opTableDomain, bodyTableDomain),
   (opTablePfxAdd, bodyTablePfxAdd), (opTablePfxDelete, bodyTablePfxDelete), (opTableEntryWrite, bodyTableEntryWrite),
   (opTableEntryDelete, bodyTableEntryDelete), (opTableRead, bodyTableRead), (opTableFlushLearned, bodyTableFlushLearned),
   (opTableCommit, bodyTableCommit), (opTableCommitCancel, bodyTableCommitCancel), (opTableAbort, bodyTableAbort),
   (opTableVstatus, bodyTableVstatus)]
def catalogueRule : List CatRow :=
  [(opRuleBlock, bodyRuleBlock), (opRuleLayout, bodyRuleLayout), (opRuleRange, bodyRuleRange),
   (opRulePreselect, bodyRulePreselect), (opRuleDefault, bodyRuleDefault), (opRuleAdd, bodyRuleAdd),
   (opRuleDelete, bodyRuleDelete), (opRuleRead, bodyRuleRead)]
def cataloguePattern : List CatRow :=
  [(opPatternLoad, bodyPatternLoad), (opPatternDiscard, bodyPatternDiscard), (opPatternRead, bodyPatternRead),
   (opPatternStatus, bodyPatternStatus), (opPatternBounds, bodyPatternBounds), (opPatternQuery, bodyPatternQuery),
   (opPatternStep, bodyPatternStep)]
def catalogueEdit : List CatRow :=
  [(opEditLoad, bodyEditLoad), (opEditSwap, bodyEditSwap), (opEditRead, bodyEditRead), (opEditStatus, bodyEditStatus),
   (opEditRegion, bodyEditRegion)]
def catalogueQueue : List CatRow :=
  [(opQueuePolicer, bodyQueuePolicer), (opQueuePolicerRead, bodyQueuePolicerRead), (opQueuePolicerRange, bodyQueuePolicerRange),
   (opQueuePrecolour, bodyQueuePrecolour), (opQueueService, bodyQueueService), (opQueueLport, bodyQueueLport),
   (opQueueCuesheet, bodyQueueCuesheet), (opQueueStatus, bodyQueueStatus)]
def catalogueBuffer : List CatRow :=
  [(opBufferClass, bodyBufferClass), (opBufferLport, bodyBufferLport), (opBufferSession, bodyBufferSession),
   (opBufferStatus, bodyBufferStatus)]
def catalogueMem : List CatRow :=
  [(opMemConfig, bodyMemConfig), (opMemRegion, bodyMemRegion), (opMemShare, bodyMemShare), (opMemSpeed, bodyMemSpeed),
   (opMemRepair, bodyMemRepair), (opMemStatus, bodyMemStatus)]
def catalogueTime : List CatRow :=
  [(opTimeStatus, bodyTimeStatus), (opTimeConfig, bodyTimeConfig), (opTimeSet, bodyTimeSet), (opTimeAdjust, bodyTimeAdjust),
   (opTimePort, bodyTimePort)]
def cataloguePower : List CatRow :=
  [(opPowerStatus, bodyPowerStatus), (opPowerLimit, bodyPowerLimit), (opPowerPrecedence, bodyPowerPrecedence),
   (opPowerBounds, bodyPowerBounds)]
def catalogueFault : List CatRow :=
  [(opFaultStatus, bodyFaultStatus), (opFaultAck, bodyFaultAck), (opFaultConfig, bodyFaultConfig), (opFaultPin, bodyFaultPin)]
def catalogueRecord : List CatRow :=
  [(opRecordConfig, bodyRecordConfig), (opRecordTrigger, bodyRecordTrigger), (opRecordStatus, bodyRecordStatus),
   (opRecordRead, bodyRecordRead), (opRecordDrive, bodyRecordDrive)]
def catalogueLife : List CatRow :=
  [(opLifeRead, bodyLifeRead), (opLifeStatus, bodyLifeStatus), (opLifeBackup, bodyLifeBackup)]
def catalogueCounter : List CatRow :=
  [(opCounterRead, bodyCounterRead), (opCounterSnapshot, bodyCounterSnapshot), (opCounterEvents, bodyCounterEvents),
   (opCounterSlots, bodyCounterSlots), (opCounterLport, bodyCounterLport)]
def catalogueRing : List CatRow :=
  [(opRingAssign, bodyRingAssign), (opRingPools, bodyRingPools), (opRingQuota, bodyRingQuota), (opRingCap, bodyRingCap),
   (opRingRelease, bodyRingRelease), (opRingStatus, bodyRingStatusCmd)]
def catalogueIdentity : List CatRow :=
  [(opIdentityChain, bodyIdentityChain), (opIdentityQuote, bodyIdentityQuote), (opIdentityOwnerEnrol, bodyIdentityOwnerEnrol),
   (opIdentityRollbackCommit, bodyIdentityRollbackCommit)]
def catalogueTest : List CatRow :=
  [(opTestLoopback, bodyTestLoopback), (opTestPrbs, bodyTestPrbs), (opTestInject, bodyTestInject), (opTestStatus, bodyTestStatus)]

/-- Every row of the catalogue. -/
def catalogue : List CatRow :=
  catalogueSys ++ catalogueMode ++ catalogueStage ++ cataloguePort ++ catalogueModule ++ catalogueParse ++ catalogueTable ++
    catalogueRule ++ cataloguePattern ++ catalogueEdit ++ catalogueQueue ++ catalogueBuffer ++ catalogueMem ++ catalogueTime ++
    cataloguePower ++ catalogueFault ++ catalogueRecord ++ catalogueLife ++ catalogueCounter ++ catalogueRing ++
    catalogueIdentity ++ catalogueTest

/-- The row of an opcode, if it is listed (R414 step 2). -/
def rowOf (opcode : Nat) : Option CatRow := catalogue.find? (fun r => r.1.code == opcode)

/-! ### The header checks of R385 and R400 -/

/-- A message as it was taken: its bytes, the length the doorbell or the entry gave, and the SEQ expected. -/
structure Taken where
  bytes : List Byte
  len : Nat
  seq : Nat
  deriving DecidableEq, Repr

def Taken.opcode (x : Taken) : Nat := fieldLE x.bytes 0 2
def Taken.flags (x : Taken) : Nat := fieldLE x.bytes 8 1

/-- Step 1 of R414. A WORK message has SEQ and URGENT zero. -/
def Taken.refusal (x : Taken) (lane : Lane) : Option Nat :=
  firstRefusal [
    (x.len != 16 + fieldLE x.bytes 2 2, St.badLength),
    (fieldLE x.bytes 14 2 != messageCrc x.bytes (x.bytes.drop 16) || fieldLE x.bytes 10 2 != x.seq ||
      bitOf x.flags 7 != laneUrgent lane || x.flags % 32 != 0 || fieldLE x.bytes 12 2 != 0, St.badField)]

/-- The command a message spells. -/
def Taken.msg (x : Taken) (lane : Lane) (ext : Option (List Byte)) : Msg :=
  { lane := lane, tag := fieldLE x.bytes 4 4, seq := x.seq, replaySafe := bitOf x.flags 6, async := bitOf x.flags 5, payload := x.bytes.drop 16,
    ext := ext }

/-- A message refused before its opcode has a meaning: journalled and answered like any command (R371, R385). -/
def State.refuseMessage (s : State) (code : Nat) (m : Msg) (st : Nat) : State :=
  if s.journalFull m then s.putResponse m (responseOf code m s St.busy [])
  else respond code m (deny st (s.journalAccept code m))

/-- Firmware judges a message it has taken and runs it (R414). -/
def State.judgeTaken (s : State) (x : Taken) (lane : Lane) (ext : Option (List Byte)) : State :=
  let m := x.msg lane ext
  match x.refusal lane with
  | some st => s.refuseMessage x.opcode m st
  | none => match rowOf x.opcode with
    | none => s.refuseMessage x.opcode m St.badOpcode
    | some r => runCommand r.1 r.2 m s

/-! ### Who takes, and when (R355, R404, R416, R423) -/

/-- The thread of the lead that serves a lane (R355; for WORK rings the log entry's distribution). -/
def State.laneThread (s : State) (l : Lane) : Nat :=
  64 * s.ctl.lead + (match l with
    | .mailbox r => 16 * (r % 4) + 1 + r / 4
    | .urgent r => 16 * (r % 4) + 3 + r / 4
    | .work p => 16 * (p % 4) + 5 + p / 4 % 11)

/-- The responses of a lane that are not yet written. -/
def State.laneUnanswered (s : State) (l : Lane) : Bool :=
  (match l with
   | .mailbox r => !(s.mb r).responses.isEmpty
   | .urgent r => !(s.mb r).uresponses.isEmpty
   | .work p => (s.ring p).answer.isSome) ||
    s.cmd.held.any (fun h => h.msg.lane == l) ||
    (s.count.snapWaiters ++ s.count.copyWaiters).any (fun w => w.msg.lane == l)

/-- May firmware take from a lane: a complex serves, its thread is not halted, the mode lets it, and the lane's previous command is answered. -/
def State.laneOpen (s : State) (l : Lane) : Bool :=
  !s.ctl.noService && !(s.thread (s.laneThread l)).halted && decide (2 ≤ s.cmd.mode) && (s.cmd.mode != Md.interval || laneUrgent l) &&
    !s.laneUnanswered l

/-- The item of a WORK ring whose message has been fetched. -/
def Ring.fetchedWork (g : Ring) : Option Item := if g.kind = 2 then g.firstIn .reserved else none

/-- Take the next message of a lane, if it is there to be taken. -/
def State.takeFrom (s : State) (l : Lane) (ext : Option (List Byte)) : State :=
  match l with
  | .mailbox r => match (s.mb r).intake with
    | x :: rest => s.when (decide (x.visibleAt ≤ s.now)) (fun s =>
        (s.onMb r (fun b => { b with intake := rest })).judgeTaken { bytes := x.bytes, len := x.len, seq := x.seq } l ext)
    | [] => s
  | .urgent r => match (s.mb r).urgIntake with
    | some x => s.when (decide (x.visibleAt ≤ s.now)) (fun s =>
        (s.onMb r (fun b => { b with urgIntake := none })).judgeTaken { bytes := x.bytes, len := x.len, seq := x.seq } l ext)
    | none => s
  | .work p => match (s.ring p).fetchedWork with
    | some it => s.when ((s.ring p).state == 1 || (s.ring p).state == 2) (fun s =>
        let bytes := ((it.buffer.bind (fun k => s.buffer k)).map (fun b => b.data)).getD []
        (s.setItem p it { it with phase := .held }).judgeTaken { bytes := bytes, len := fieldLE it.entry 8 4, seq := 0 } l ext)
    | none => s

/-- COMMAND_TAKE. `ext`: what the outside device answers that the command waits on. -/
def execCommandTake (lane : Lane) (ext : Option (List Byte)) (s : State) : Out :=
  onUnit (laneOk lane) (s.when (s.laneOpen lane) (fun s => s.takeFrom lane ext))

/-! ### WORK_ITEM (R400) -/

/-- A WORK item starts: a buffer is reserved and the message is fetched from REQ_ADDR; `bytes` is what host memory holds there. -/
def State.startWork (s : State) (p : Nat) (it : Item) (bytes : List Byte) (dmaOk cqOk : Bool) : State :=
  let n := fieldLE it.entry 8 4
  match s.allocBuffer p (s.ring p).stage n with
  | none => s.completeItem p it (Comp.of Rc.noPool) cqOk
  | some (key, s1) =>
    let it1 : Item := { it with buffer := some key, phase := .reserved }
    let s2 := (s1.setItem p it it1).onPools (fun q => { q with
      buffers := SMap.adjust key (fun b => { b with data := (bytes ++ zeros (n - bytes.length)).take n }) q.buffers })
    if dmaOk then s2.moved p n else s2.completeItem p it1 (Comp.of Rc.dmaError) cqOk

/-- The response of a WORK item is written to RSP_ADDR, cut to RSP_SIZE, and the item completes. -/
def State.endWork (s : State) (p : Nat) (it : Item) (r : Rsp) (dmaOk cqOk : Bool) : State :=
  let s0 := s.onRing p (fun g => { g with answer := none })
  if !dmaOk then s0.completeItem p it (Comp.of Rc.dmaError) cqOk
  else
    let size := fieldLE it.entry 20 4
    let out := (r.bytes false).take size
    let code := if size < 16 + r.payload.length then Rc.truncated else Rc.ok
    ((s0.hostWrite (fieldLE it.entry 12 8) out).moved p out.length).completeItem p it
      { Comp.of code with w4 := out.length, w8 := r.status } cqOk

/-- WORK_ITEM: the ring's answer is written where there is one; otherwise, with no item in service, the oldest waiting item starts. -/
def execWorkItem (p : Nat) (bytes : List Byte) (dmaOk cqOk : Bool) (s : State) : Out :=
  let g := s.ring p
  onUnit (decide (p < 64)) (s.when (g.kind == 2 && (g.state == 1 || g.state == 2)) (fun s =>
    match g.answer, g.firstIn .held with
    | some r, some it => s.endWork p it r dmaOk cqOk
    | _, some _ => s
    | _, none => match g.fetchedWork, g.firstIn .waiting with
      | none, some it => if g.state = 1 then s.startWork p it bytes dmaOk cqOk else s
      | _, _ => s))

end Sys2Proof.Machine
end

