-- ==== Sys2Proof/Machine/Tap.lean ====
section
/-! DEFINITION. The test access port (R579): the controller of IEEE 1149.1, its instruction register and the registers between TDI and TDO. -/
namespace Sys2Proof.Machine
open Sys2Proof

/-- The controller's next state. States: 0 Test-Logic-Reset, 1 Run-Test/Idle, 2–8 Select, Capture, Shift, Exit1, Pause, Exit2, Update of the
data register, 9–15 the same of the instruction register. -/
def tapNext (st : Nat) (tms : Bool) : Nat :=
  match st, tms with
  | 0, true => 0 | 0, false => 1
  | 1, true => 2 | 1, false => 1
  | 2, true => 9 | 2, false => 3
  | 3, true => 5 | 3, false => 4
  | 4, true => 5 | 4, false => 4
  | 5, true => 8 | 5, false => 6
  | 6, true => 7 | 6, false => 6
  | 7, true => 8 | 7, false => 4
  | 8, true => 2 | 8, false => 1
  | 9, true => 0 | 9, false => 10
  | 10, true => 12 | 10, false => 11
  | 11, true => 12 | 11, false => 11
  | 12, true => 15 | 12, false => 13
  | 13, true => 14 | 13, false => 13
  | 14, true => 15 | 14, false => 11
  | _, true => 2 | _, false => 1

/-- The low n bits of a number, lowest first. -/
def bitsLow (v n : Nat) : List Bool := (range 0 n).map (fun i => v.testBit i)
/-- The number that bits spell, lowest first. -/
def bitsVal : List Bool → Nat
  | [] => 0
  | b :: l => flagNat b + 2 * bitsVal l

/-- Do EXTEST, EXTEST_PULSE and EXTEST_TRAIN drive the balls: only while RESET_N is low (R579)? -/
def tapDriving (inst : Nat) (resetLow : Bool) : Bool := (inst == 3 || inst == 4 || inst == 5) && resetLow

/-- What the data register captures: IDCODE's 32 bits, the balls for a boundary-scan instruction, one 0 for BYPASS and debug instructions. -/
def tapCapture (inst : Nat) (pins : List Bool) : List Bool :=
  if inst = 0 then bitsLow 0x1153694F 32 else if 2 ≤ inst ∧ inst ≤ 5 then pins else [false]

/-- The instruction an 8-bit code loads; all ones is BYPASS by IEEE 1149.1. -/
def tapDecode (code : Nat) : Nat := if code = 0xFF then 1 else Config.tapKind code

/-- One cycle of TCK with its levels of TMS and TDI; `pins` are the levels the boundary cells see. -/
def CountSt.tck (c : CountSt) (tms tdi resetLow : Bool) (pins : List Bool) : CountSt :=
  let next := tapNext c.tapState tms
  let drives := tapDriving c.tapInst resetLow
  let shift :=
    if c.tapState = 3 then tapCapture c.tapInst pins
    else if c.tapState = 10 then bitsLow (if drives then 0x05 else 0x01) 8
    else if c.tapState = 4 ∨ c.tapState = 11 then c.tapShift.drop 1 ++ [tdi]
    else c.tapShift
  let inst := if next = 0 then 0 else if next = 15 then tapDecode (bitsVal shift) else c.tapInst
  { c with
    tapState := next, tapInst := inst, tapShift := shift,
    tapCells := (if next = 8 ∧ 2 ≤ c.tapInst ∧ c.tapInst ≤ 5 then shift else c.tapCells),
    tapTdo := (if next = 4 ∨ next = 11 then (shift.head?).getD false else c.tapTdo),
    tapDrives := tapDriving inst resetLow }

/-- TEST_ACCESS_PORT: a cycle of TCK; TRST_N low resets the controller. The debug unlock acts in REHEARSAL only, and entry 4 of the
measurement list reports it (R367). -/
def execTestAccessPort (trstLow tms tdi resetLow : Bool) (pins : List Bool) (s : State) : Out :=
  .next (if trstLow then s.onCount (fun c => { c with tapState := 0, tapInst := 0, tapDrives := false })
    else
      let t := s.onCount (fun c => c.tck tms tdi resetLow pins)
      if t.count.tapState = 15 ∧ t.count.tapInst = 6 ∧ s.cmd.mode = Md.rehearsal then t.onCtl (fun c => { c with jtagUnlocked := true }) else t)

end Sys2Proof.Machine
end

