-- ==== Sys2Proof/Machine/Dispatch.lean ====
section
/-! DEFINITION. The dispatch: one arm per constructor of Instr, each one direct call of that command's meaning, or, while it
has none, a rejection by name. -/
namespace Sys2Proof.Machine
open Sys2Proof

def exec (i : Instr) (s : State) : Host.Outcome State Fault Refusal :=
  match i with
  | .sysPing m => Sys2Proof.Machine.execSysPing m s
  | .sysStatus m => Sys2Proof.Machine.execSysStatus m s
  | .sysControlStatus m => Sys2Proof.Machine.execSysControlStatus m s
  | .sysFwLoad m => Sys2Proof.Machine.execSysFwLoad m s
  | .fwStaged vendorOk ownerOk ownerHash measure => Sys2Proof.Machine.execFwStaged vendorOk ownerOk ownerHash measure s
  | .sysFwActivate m => Sys2Proof.Machine.execSysFwActivate m s
  | .fwActivated => Sys2Proof.Machine.execFwActivated s
  | .fwActivateFailed faulted => Sys2Proof.Machine.execFwActivateFailed faulted s
  | .sysSwitchover m => Sys2Proof.Machine.execSysSwitchover m s
  | .sysReset m => Sys2Proof.Machine.execSysReset m s
  | .sysResetStart => Sys2Proof.Machine.execSysResetStart s
  | .sysSet m => Sys2Proof.Machine.execSysSet m s
  | .sysGet m => Sys2Proof.Machine.execSysGet m s
  | .sysAsyncStatus m => Sys2Proof.Machine.execSysAsyncStatus m s
  | .modeSet m => Sys2Proof.Machine.execModeSet m s
  | .modeChanged => Sys2Proof.Machine.execModeChanged s
  | .modeStatus m => Sys2Proof.Machine.execModeStatus m s
  | .stageCreate m => Sys2Proof.Machine.execStageCreate m s
  | .stageReady k => Sys2Proof.Machine.execStageReady k s
  | .stageResize m => Sys2Proof.Machine.execStageResize m s
  | .stageResized k => Sys2Proof.Machine.execStageResized k s
  | .stageDissolve m => Sys2Proof.Machine.execStageDissolve m s
  | .stageDissolved k => Sys2Proof.Machine.execStageDissolved k s
  | .stageStatus m => Sys2Proof.Machine.execStageStatus m s
  | .portConfig m => Sys2Proof.Machine.execPortConfig m s
  | .portStatus m => Sys2Proof.Machine.execPortStatus m s
  | .portHealth m => Sys2Proof.Machine.execPortHealth m s
  | .portSerdesBounds m => Sys2Proof.Machine.execPortSerdesBounds m s
  | .moduleStatus m => Sys2Proof.Machine.execModuleStatus m s
  | .moduleRead m => Sys2Proof.Machine.execModuleRead m s
  | .moduleWrite m => Sys2Proof.Machine.execModuleWrite m s
  | .moduleReset m => Sys2Proof.Machine.execModuleReset m s
  | .parseLoad m => Sys2Proof.Machine.execParseLoad m s
  | .graphStaged k written => Sys2Proof.Machine.execGraphStaged k written s
  | .parseDiscard m => Sys2Proof.Machine.execParseDiscard m s
  | .parseRead m => Sys2Proof.Machine.execParseRead m s
  | .parseStatus m => Sys2Proof.Machine.execParseStatus m s
  | .tableCreate m => Sys2Proof.Machine.execTableCreate m s
  | .instanceReady k kind => Sys2Proof.Machine.execInstanceReady k kind s
  | .tableProfile m => Sys2Proof.Machine.execTableProfile m s
  | .tableDomain m => Sys2Proof.Machine.execTableDomain m s
  | .tablePfxAdd m => Sys2Proof.Machine.execTablePfxAdd m s
  | .tablePfxDelete m => Sys2Proof.Machine.execTablePfxDelete m s
  | .tableEntryWrite m => Sys2Proof.Machine.execTableEntryWrite m s
  | .tableEntryDelete m => Sys2Proof.Machine.execTableEntryDelete m s
  | .tableRead m => Sys2Proof.Machine.execTableRead m s
  | .tableFlushLearned m => Sys2Proof.Machine.execTableFlushLearned m s
  | .tableCommit m => Sys2Proof.Machine.execTableCommit m s
  | .commitArming k failed => Sys2Proof.Machine.execCommitArming k failed s
  | .versionFlip k => Sys2Proof.Machine.execVersionFlip k s
  | .tableCommitCancel m => Sys2Proof.Machine.execTableCommitCancel m s
  | .tableAbort m => Sys2Proof.Machine.execTableAbort m s
  | .tableVstatus m => Sys2Proof.Machine.execTableVstatus m s
  | .drainComplete k => Sys2Proof.Machine.execDrainComplete k s
  | .drainExpired k => Sys2Proof.Machine.execDrainExpired k s
  | .versionRetired k => Sys2Proof.Machine.execVersionRetired k s
  | .sweepPass k => Sys2Proof.Machine.execSweepPass k s
  | .ruleBlock m => Sys2Proof.Machine.execRuleBlock m s
  | .ruleLayout m => Sys2Proof.Machine.execRuleLayout m s
  | .ruleRange m => Sys2Proof.Machine.execRuleRange m s
  | .rulePreselect m => Sys2Proof.Machine.execRulePreselect m s
  | .ruleDefault m => Sys2Proof.Machine.execRuleDefault m s
  | .ruleAdd m => Sys2Proof.Machine.execRuleAdd m s
  | .ruleDelete m => Sys2Proof.Machine.execRuleDelete m s
  | .ruleRead m => Sys2Proof.Machine.execRuleRead m s
  | .respaced b => Sys2Proof.Machine.execRespaced b s
  | .patternLoad m => Sys2Proof.Machine.execPatternLoad m s
  | .patternStaged k written => Sys2Proof.Machine.execPatternStaged k written s
  | .patternDiscard m => Sys2Proof.Machine.execPatternDiscard m s
  | .patternRead m => Sys2Proof.Machine.execPatternRead m s
  | .patternStatus m => Sys2Proof.Machine.execPatternStatus m s
  | .patternBounds m => Sys2Proof.Machine.execPatternBounds m s
  | .patternQuery m => Sys2Proof.Machine.execPatternQuery m s
  | .patternStep m => Sys2Proof.Machine.execPatternStep m s
  | .editLoad m => Sys2Proof.Machine.execEditLoad m s
  | .editStaged k written => Sys2Proof.Machine.execEditStaged k written s
  | .editSwap m => Sys2Proof.Machine.execEditSwap m s
  | .editRead m => Sys2Proof.Machine.execEditRead m s
  | .editStatus m => Sys2Proof.Machine.execEditStatus m s
  | .editRegion m => Sys2Proof.Machine.execEditRegion m s
  | .queuePolicer m => Sys2Proof.Machine.execQueuePolicer m s
  | .queuePolicerRead m => Sys2Proof.Machine.execQueuePolicerRead m s
  | .queuePolicerRange m => Sys2Proof.Machine.execQueuePolicerRange m s
  | .queuePrecolour m => Sys2Proof.Machine.execQueuePrecolour m s
  | .queueService m => Sys2Proof.Machine.execQueueService m s
  | .queueLport m => Sys2Proof.Machine.execQueueLport m s
  | .queueCuesheet m => Sys2Proof.Machine.execQueueCuesheet m s
  | .queueStatus m => Sys2Proof.Machine.execQueueStatus m s
  | .bufferClass m => Sys2Proof.Machine.execBufferClass m s
  | .bufferLport m => Sys2Proof.Machine.execBufferLport m s
  | .bufferSession m => Sys2Proof.Machine.execBufferSession m s
  | .bufferStatus m => Sys2Proof.Machine.execBufferStatus m s
  | .memConfig m => Sys2Proof.Machine.execMemConfig m s
  | .memRegion m => Sys2Proof.Machine.execMemRegion m s
  | .memShare m => Sys2Proof.Machine.execMemShare m s
  | .memSpeed m => Sys2Proof.Machine.execMemSpeed m s
  | .memRepair m => Sys2Proof.Machine.execMemRepair m s
  | .memStatus m => Sys2Proof.Machine.execMemStatus m s
  | .timeStatus m => Sys2Proof.Machine.execTimeStatus m s
  | .timeConfig m => Sys2Proof.Machine.execTimeConfig m s
  | .timeSet m => Sys2Proof.Machine.execTimeSet m s
  | .timeAdjustFreq m => Sys2Proof.Machine.execTimeAdjustFreq m s
  | .timeAdjustSlew m => Sys2Proof.Machine.execTimeAdjustSlew m s
  | .timeAdjustStep m => Sys2Proof.Machine.execTimeAdjustStep m s
  | .timePortConfig m => Sys2Proof.Machine.execTimePortConfig m s
  | .timePortRead m => Sys2Proof.Machine.execTimePortRead m s
  | .slewEnd => Sys2Proof.Machine.execSlewEnd s
  | .powerStatus m => Sys2Proof.Machine.execPowerStatus m s
  | .powerLimit m => Sys2Proof.Machine.execPowerLimit m s
  | .powerPrecedence m => Sys2Proof.Machine.execPowerPrecedence m s
  | .powerBounds m => Sys2Proof.Machine.execPowerBounds m s
  | .faultStatus m => Sys2Proof.Machine.execFaultStatus m s
  | .faultAck m => Sys2Proof.Machine.execFaultAck m s
  | .faultConfig m => Sys2Proof.Machine.execFaultConfig m s
  | .faultPin m => Sys2Proof.Machine.execFaultPin m s
  | .recordConfig m => Sys2Proof.Machine.execRecordConfig m s
  | .recordTrigger m => Sys2Proof.Machine.execRecordTrigger m s
  | .recordStatus m => Sys2Proof.Machine.execRecordStatus m s
  | .recordRead m => Sys2Proof.Machine.execRecordRead m s
  | .recordDrive m => Sys2Proof.Machine.execRecordDrive m s
  | .lifeRead m => Sys2Proof.Machine.execLifeRead m s
  | .lifeStatus m => Sys2Proof.Machine.execLifeStatus m s
  | .lifeBackup m => Sys2Proof.Machine.execLifeBackup m s
  | .counterRead m => Sys2Proof.Machine.execCounterRead m s
  | .counterSnapshot m => Sys2Proof.Machine.execCounterSnapshot m s
  | .counterEvents m => Sys2Proof.Machine.execCounterEvents m s
  | .counterSlots m => Sys2Proof.Machine.execCounterSlots m s
  | .counterLport m => Sys2Proof.Machine.execCounterLport m s
  | .ringAssign m => Sys2Proof.Machine.execRingAssign m s
  | .ringPools m => Sys2Proof.Machine.execRingPools m s
  | .ringQuota m => Sys2Proof.Machine.execRingQuota m s
  | .ringCap m => Sys2Proof.Machine.execRingCap m s
  | .ringRelease m => Sys2Proof.Machine.execRingRelease m s
  | .ringStatusCmd m => Sys2Proof.Machine.execRingStatusCmd m s
  | .identityChain m => Sys2Proof.Machine.execIdentityChain m s
  | .identityQuote m => Sys2Proof.Machine.execIdentityQuote m s
  | .identityOwnerEnrol m => Sys2Proof.Machine.execIdentityOwnerEnrol m s
  | .identityRollbackCommit m => Sys2Proof.Machine.execIdentityRollbackCommit m s
  | .testLoopback m => Sys2Proof.Machine.execTestLoopback m s
  | .testPrbs m => Sys2Proof.Machine.execTestPrbs m s
  | .testInject m => Sys2Proof.Machine.execTestInject m s
  | .testStatus m => Sys2Proof.Machine.execTestStatus m s
  | .commandTake lane ext => Sys2Proof.Machine.execCommandTake lane ext s
  | .responseDelivery r urgent => Sys2Proof.Machine.execResponseDelivery r urgent s
  | .eventPost r => Sys2Proof.Machine.execEventPost r s
  | .frameReceive l wire rxErr full high => Sys2Proof.Machine.execFrameReceive l wire rxErr full high s
  | .pipePlacement t held => Sys2Proof.Machine.execPipePlacement t held s
  | .parseWalk id corr ue => Sys2Proof.Machine.execParseWalk id corr ue s
  | .classifyAndLookUp id room => Sys2Proof.Machine.execClassifyAndLookUp id room s
  | .paddockRead id n => Sys2Proof.Machine.execPaddockRead id n s
  | .specGrant id => Sys2Proof.Machine.execSpecGrant id s
  | .patternScan t id start engine err => Sys2Proof.Machine.execPatternScan t id start engine err s
  | .scanFallback id => Sys2Proof.Machine.execScanFallback id s
  | .orderedMatchSearch id wait => Sys2Proof.Machine.execOrderedMatchSearch id wait s
  | .confirm id sel => Sys2Proof.Machine.execConfirm id sel s
  | .specReturn x => Sys2Proof.Machine.execSpecReturn x s
  | .reorderRelease t src => Sys2Proof.Machine.execReorderRelease t src s
  | .lateRelease t src => Sys2Proof.Machine.execLateRelease t src s
  | .xoffRefresh l c => Sys2Proof.Machine.execXoffRefresh l c s
  | .xonSend l c => Sys2Proof.Machine.execXonSend l c s
  | .egressGrant x wait room => Sys2Proof.Machine.execEgressGrant x wait room s
  | .cellLaunch id err cell => Sys2Proof.Machine.execCellLaunch id err cell s
  | .cellArrival id => Sys2Proof.Machine.execCellArrival id s
  | .multicastReplication k wait => Sys2Proof.Machine.execMulticastReplication k wait s
  | .reentryRead key ue => Sys2Proof.Machine.execReentryRead key ue s
  | .dresserAssign id wait => Sys2Proof.Machine.execDresserAssign id wait s
  | .editProgram id wait corr ue => Sys2Proof.Machine.execEditProgram id wait corr ue s
  | .handOff id => Sys2Proof.Machine.execHandOff id s
  | .transmitFrame id room => Sys2Proof.Machine.execTransmitFrame id room s
  | .tailVerdict id => Sys2Proof.Machine.execTailVerdict id s
  | .provisionVerdict t => Sys2Proof.Machine.execProvisionVerdict t s
  | .staticLearnedRemoval k => Sys2Proof.Machine.execStaticLearnedRemoval k s
  | .moveStorm t k => Sys2Proof.Machine.execMoveStorm t k s
  | .ageingVisit t pad line word hit => Sys2Proof.Machine.execAgeingVisit t pad line word hit s
  | .paddockScrub t pad line word found => Sys2Proof.Machine.execPaddockScrub t pad line word found s
  | .poisonRepair t pad line word ok => Sys2Proof.Machine.execPoisonRepair t pad line word ok s
  | .graphNodeRepair t w => Sys2Proof.Machine.execGraphNodeRepair t w s
  | .patternRepair t e => Sys2Proof.Machine.execPatternRepair t e s
  | .editRepair t bank w => Sys2Proof.Machine.execEditRepair t bank w s
  | .policerRepair t pol => Sys2Proof.Machine.execPolicerRepair t pol s
  | .throttleReading die tj => Sys2Proof.Machine.execThrottleReading die tj s
  | .surveyJob handle => Sys2Proof.Machine.execSurveyJob handle s
  | .surveyWaitExpiry handle => Sys2Proof.Machine.execSurveyWaitExpiry handle s
  | .lportFlush l => Sys2Proof.Machine.execLportFlush l s
  | .flushCellsFreed t k => Sys2Proof.Machine.execFlushCellsFreed t k s
  | .foldScrub t cell found => Sys2Proof.Machine.execFoldScrub t cell found s
  | .pauseFrameReceive l pfc enabled quanta => Sys2Proof.Machine.execPauseFrameReceive l pfc enabled quanta s
  | .pauseExpiry l c => Sys2Proof.Machine.execPauseExpiry l c s
  | .pauseWatchdog l c => Sys2Proof.Machine.execPauseWatchdog l c s
  | .shaperRefill l => Sys2Proof.Machine.execShaperRefill l s
  | .gateChange l => Sys2Proof.Machine.execGateChange l s
  | .cuesheetSwitch l => Sys2Proof.Machine.execCuesheetSwitch l s
  | .peerHelloSend l => Sys2Proof.Machine.execPeerHelloSend l s
  | .peerHelloReceive l flags => Sys2Proof.Machine.execPeerHelloReceive l flags s
  | .peerTimeout l => Sys2Proof.Machine.execPeerTimeout l s
  | .laneFault lane => Sys2Proof.Machine.execLaneFault lane s
  | .widthChangeOrderedSet l pair => Sys2Proof.Machine.execWidthChangeOrderedSet l pair s
  | .widthChange l => Sys2Proof.Machine.execWidthChange l s
  | .restoreHoldExpiry l pair => Sys2Proof.Machine.execRestoreHoldExpiry l pair s
  | .healthWindowEnd l cw corr sym unc => Sys2Proof.Machine.execHealthWindowEnd l cw corr sym unc s
  | .probationStart l cw corr sym unc => Sys2Proof.Machine.execProbationStart l cw corr sym unc s
  | .probationEnd l => Sys2Proof.Machine.execProbationEnd l s
  | .linkUp l => Sys2Proof.Machine.execLinkUp l s
  | .linkDown l cause => Sys2Proof.Machine.execLinkDown l cause s
  | .laneRateFallback l => Sys2Proof.Machine.execLaneRateFallback l s
  | .serdesAdaptation lane field want => Sys2Proof.Machine.execSerdesAdaptation lane field want s
  | .stateComparison => Sys2Proof.Machine.execStateComparison s
  | .refclkLaneLoss k => Sys2Proof.Machine.execRefclkLaneLoss k s
  | .dramAlert c sub again => Sys2Proof.Machine.execDramAlert c sub again s
  | .memChannelReset c ok => Sys2Proof.Machine.execMemChannelReset c ok s
  | .patrolScrub c sub found region a b rank device row copy => Sys2Proof.Machine.execPatrolScrub c sub found region a b rank device row copy s
  | .channelTraining c dimm cachedOk => Sys2Proof.Machine.execChannelTraining c dimm cachedOk s
  | .dqsOscillatorRead c rank drift => Sys2Proof.Machine.execDqsOscillatorRead c rank drift s
  | .memSpeedStep => Sys2Proof.Machine.execMemSpeedStep s
  | .mr4Read c hot => Sys2Proof.Machine.execMr4Read c hot s
  | .retainSelfRefresh c rank => Sys2Proof.Machine.execRetainSelfRefresh c rank s
  | .dimmTemperatureRead c temp => Sys2Proof.Machine.execDimmTemperatureRead c temp s
  | .frameSpill n => Sys2Proof.Machine.execFrameSpill n s
  | .frameFill n => Sys2Proof.Machine.execFrameFill n s
  | .frameFault n nested => Sys2Proof.Machine.execFrameFault n nested s
  | .threadWake n reason halt => Sys2Proof.Machine.execThreadWake n reason halt s
  | .rootWrite n address write => Sys2Proof.Machine.execRootWrite n address write s
  | .generationSeal => Sys2Proof.Machine.execGenerationSeal s
  | .generationAdopt crcOk => Sys2Proof.Machine.execGenerationAdopt crcOk s
  | .heartbeatWrite complex => Sys2Proof.Machine.execHeartbeatWrite complex s
  | .heartbeatMiss => Sys2Proof.Machine.execHeartbeatMiss s
  | .leadYield => Sys2Proof.Machine.execLeadYield s
  | .understudyReady selfTestOk => Sys2Proof.Machine.execUnderstudyReady selfTestOk s
  | .controlRecoveryAttempt started => Sys2Proof.Machine.execControlRecoveryAttempt started s
  | .startUp b => Sys2Proof.Machine.execStartUp b s
  | .perstN low => Sys2Proof.Machine.execPerstN low s
  | .functionLevelReset => Sys2Proof.Machine.execFunctionLevelReset s
  | .hostLinkLoss => Sys2Proof.Machine.execHostLinkLoss s
  | .hostLinkReset => Sys2Proof.Machine.execHostLinkReset s
  | .irqHoldoffExpiry v => Sys2Proof.Machine.execIrqHoldoffExpiry v s
  | .mbDoorbell r value copy => Sys2Proof.Machine.execMbDoorbell r value copy s
  | .mbUdoorbell r value copy => Sys2Proof.Machine.execMbUdoorbell r value copy s
  | .rspValidWrite r => Sys2Proof.Machine.execRspValidWrite r s
  | .urspValidWrite r => Sys2Proof.Machine.execUrspValidWrite r s
  | .mbEvtConsWrite r value => Sys2Proof.Machine.execMbEvtConsWrite r value s
  | .smbusSetOffset offset pecOk => Sys2Proof.Machine.execSmbusSetOffset offset pecOk s
  | .smbusBlockWrite data pecOk copy => Sys2Proof.Machine.execSmbusBlockWrite data pecOk copy s
  | .smbusBlockRead n pecOk => Sys2Proof.Machine.execSmbusBlockRead n pecOk s
  | .ringEnable p => Sys2Proof.Machine.execRingEnable p s
  | .ringDisable p => Sys2Proof.Machine.execRingDisable p s
  | .ringFlush p cqOk => Sys2Proof.Machine.execRingFlush p cqOk s
  | .flushDone p entries fetchOk cqOk => Sys2Proof.Machine.execFlushDone p entries fetchOk cqOk s
  | .ringPoll p entries fetchOk cqOk => Sys2Proof.Machine.execRingPoll p entries fetchOk cqOk s
  | .injectItem p frame dmaOk cqOk => Sys2Proof.Machine.execInjectItem p frame dmaOk cqOk s
  | .injectCompletion p cqOk => Sys2Proof.Machine.execInjectCompletion p cqOk s
  | .puntWrite k q t c err cell dmaOk cqOk => Sys2Proof.Machine.execPuntWrite k q t c err cell dmaOk cqOk s
  | .workItem p bytes dmaOk cqOk => Sys2Proof.Machine.execWorkItem p bytes dmaOk cqOk s
  | .dumpFill p dmaOk cqOk => Sys2Proof.Machine.execDumpFill p dmaOk cqOk s
  | .sheepdogVisit cqOk => Sys2Proof.Machine.execSheepdogVisit cqOk s
  | .faultReport cls level unit stage master access address detail => Sys2Proof.Machine.execFaultReport cls level unit stage master access address detail s
  | .faultWindowExpiry => Sys2Proof.Machine.execFaultWindowExpiry s
  | .fltAck seq => Sys2Proof.Machine.execFltAck seq s
  | .faultRepaired cls level unit ok => Sys2Proof.Machine.execFaultRepaired cls level unit ok s
  | .pipeStall tile pipe stage => Sys2Proof.Machine.execPipeStall tile pipe stage s
  | .dresserStall tile dresser stage => Sys2Proof.Machine.execDresserStall tile dresser stage s
  | .quietPeriodEnd => Sys2Proof.Machine.execQuietPeriodEnd s
  | .faultNPulseEnd => Sys2Proof.Machine.execFaultNPulseEnd s
  | .injectorConsumed n word level unit stage master access address => Sys2Proof.Machine.execInjectorConsumed n word level unit stage master access address s
  | .ppsEdge offset servo => Sys2Proof.Machine.execPpsEdge offset servo s
  | .ppsLost => Sys2Proof.Machine.execPpsLost s
  | .hostTimeout => Sys2Proof.Machine.execHostTimeout s
  | .todSentence utc checksumOk => Sys2Proof.Machine.execTodSentence utc checksumOk s
  | .calendarWrite => Sys2Proof.Machine.execCalendarWrite s
  | .journalRecordWrite => Sys2Proof.Machine.execJournalRecordWrite s
  | .snapIntervalRecord => Sys2Proof.Machine.execSnapIntervalRecord s
  | .captureTriggered k j code => Sys2Proof.Machine.execCaptureTriggered k j code s
  | .capturePostEnd k j => Sys2Proof.Machine.execCapturePostEnd k j s
  | .captureDone k j ue => Sys2Proof.Machine.execCaptureDone k j ue s
  | .flowSample k q t c err cell => Sys2Proof.Machine.execFlowSample k q t c err cell s
  | .flowExport k j n ue => Sys2Proof.Machine.execFlowExport k j n ue s
  | .driveAdded n label pct extents serial critical => Sys2Proof.Machine.execDriveAdded n label pct extents serial critical s
  | .driveRemoved n => Sys2Proof.Machine.execDriveRemoved n s
  | .smartRead n pct critical => Sys2Proof.Machine.execSmartRead n pct critical s
  | .ledgerCheckpoint measured energy => Sys2Proof.Machine.execLedgerCheckpoint measured energy s
  | .laneTrend trend => Sys2Proof.Machine.execLaneTrend trend s
  | .dramEcs counts => Sys2Proof.Machine.execDramEcs counts s
  | .ledgerCompaction failed => Sys2Proof.Machine.execLedgerCompaction failed s
  | .ledgerBackup => Sys2Proof.Machine.execLedgerBackup s
  | .vinBand vin => Sys2Proof.Machine.execVinBand vin s
  | .currentLimitStep iin => Sys2Proof.Machine.execCurrentLimitStep iin s
  | .currentLimitRelease iin => Sys2Proof.Machine.execCurrentLimitRelease iin s
  | .avsStep die up => Sys2Proof.Machine.execAvsStep die up s
  | .clockingChange => Sys2Proof.Machine.execClockingChange s
  | .temperatureReading die tj => Sys2Proof.Machine.execTemperatureReading die tj s
  | .thermalTrip die => Sys2Proof.Machine.execThermalTrip die s
  | .thermalDarkExit => Sys2Proof.Machine.execThermalDarkExit s
  | .resetN lowNs taken => Sys2Proof.Machine.execResetN lowNs taken s
  | .moduleInserted c => Sys2Proof.Machine.execModuleInserted c s
  | .moduleLowPower c identifier cmis vendor part serial firmware power apps pwrUpMs dpInitMs => Sys2Proof.Machine.execModuleLowPower c identifier cmis vendor part serial firmware power apps pwrUpMs dpInitMs s
  | .modulePowerUp c => Sys2Proof.Machine.execModulePowerUp c s
  | .moduleReady c => Sys2Proof.Machine.execModuleReady c s
  | .moduleTimeout c => Sys2Proof.Machine.execModuleTimeout c s
  | .moduleInterrupt c fault alarm => Sys2Proof.Machine.execModuleInterrupt c fault alarm s
  | .modulePoll c answers serial temp fault alarm => Sys2Proof.Machine.execModulePoll c answers serial temp fault alarm s
  | .moduleRemoved c => Sys2Proof.Machine.execModuleRemoved c s
  | .mgmtBusRecover bus => Sys2Proof.Machine.execMgmtBusRecover bus s
  | .pmcSnap value => Sys2Proof.Machine.execPmcSnap value s
  | .snapshotEdge => Sys2Proof.Machine.execSnapshotEdge s
  | .snapshotTaken => Sys2Proof.Machine.execSnapshotTaken s
  | .pmcSnapIdRead => Sys2Proof.Machine.execPmcSnapIdRead s
  | .statisticsClearingRead l n => Sys2Proof.Machine.execStatisticsClearingRead l n s
  | .viewLatchRead addr => Sys2Proof.Machine.execViewLatchRead addr s
  | .ucsWordsRead => Sys2Proof.Machine.execUcsWordsRead s
  | .devResetKey value => Sys2Proof.Machine.execDevResetKey value s
  | .devResetDisarm => Sys2Proof.Machine.execDevResetDisarm s
  | .devReset value => Sys2Proof.Machine.execDevReset value s
  | .diagRead => Sys2Proof.Machine.execDiagRead s
  | .diagWrite backingToo => Sys2Proof.Machine.execDiagWrite backingToo s
  | .diagComplete => Sys2Proof.Machine.execDiagComplete s
  | .ucsDwordLoad w k value be => Sys2Proof.Machine.execUcsDwordLoad w k value be s
  | .ucsWordWrite w value be => Sys2Proof.Machine.execUcsWordWrite w value be s
  | .injArm n => Sys2Proof.Machine.execInjArm n s
  | .injDisarm n => Sys2Proof.Machine.execInjDisarm n s
  | .registerWrite addr value be => Sys2Proof.Machine.execRegisterWrite addr value be s
  | .ppsOutPulse => Sys2Proof.Machine.execPpsOutPulse s
  | .refclkLaneReturn k => Sys2Proof.Machine.execRefclkLaneReturn k s
  | .prbsLocked lane => Sys2Proof.Machine.execPrbsLocked lane s
  | .prbsLockLost lane => Sys2Proof.Machine.execPrbsLockLost lane s
  | .cgRstNRelease c => Sys2Proof.Machine.execCgRstNRelease c s
  | .smbusTimeout => Sys2Proof.Machine.execSmbusTimeout s
  | .snapshotPinLapse => Sys2Proof.Machine.execSnapshotPinLapse s
  | .channelZeroingDone c => Sys2Proof.Machine.execChannelZeroingDone c s
  | .testAccessPort trstLow tms tdi resetLow pins => Sys2Proof.Machine.execTestAccessPort trstLow tms tdi resetLow pins s

end Sys2Proof.Machine
end

