-- ==== Sys2Proof/Machine/Tick.lean ====
section
/-! DEFINITION. What one tick of 1/66 ns does while no command waits (log entry 1): the clocks' edges (R500), network time (R466, R469),
the slot accounts of a PCLK (R230, R535–R538) and the hold counters of the egress queues (R324). Everything else that time brings about
has a row of its own. -/
namespace Sys2Proof.Machine
open Sys2Proof

/-- Units of a tile that isolation has taken out of use (R455): pipes, dressers. -/
def State.pipesOut (s : State) (t : Nat) : Nat := ((range 0 16).filter (fun i => s.fault.isolated.contains (.pipe t i))).length
def State.dressersOut (s : State) (t : Nat) : Nat := ((range 0 96).filter (fun i => s.fault.isolated.contains (.dresser t i))).length

/-- The 16 pipe slots of a PCLK (R535, R537): packets entered, isolated pipes and owed waits BACK_STARVED, the rest FRONT_STARVED. -/
def State.pipeSlots (s : State) (t : Nat) : State :=
  let e := ((range 0 16).filter (fun i => (SMap.get 0 t s.sw.entered).testBit i)).length
  let out := s.pipesOut t
  let owed := SMap.get 0 t s.sw.backOwed
  let back := min owed (16 - e - out)
  ((((s.bump t 0 0x00).bumpN t 0 0x03 out).bumpN t 0 0x1B (out + back)).bumpN t 0 0x1A (16 - e - out - back)).onSw (fun w => { w with
    entered := SMap.erase t w.entered, backOwed := SMap.put 0 t (owed - back) w.backOwed,
    rotation := SMap.upd 0 t (fun r => (r + 1) % 50) w.rotation })

/-- The 96 dresser slots of a PCLK (R230, R536): microword-cycles run, isolated dressers and owed waits BACK_STARVED, the rest
FRONT_STARVED. -/
def State.dresserSlots (s : State) (t : Nat) : State :=
  let out := s.dressersOut t
  let runs := SMap.get 0 t s.sw.runOwed
  let waits := SMap.get 0 t s.sw.dressBackOwed
  let ran := min runs (96 - out)
  let back := min waits (96 - out - ran)
  (((s.bumpN t 0 0x04 out).bumpN t 0 0x1F (out + back)).bumpN t 0 0x1E (96 - out - ran - back)).onSw (fun w => { w with
    runOwed := SMap.put 0 t (runs - ran) w.runOwed, dressBackOwed := SMap.put 0 t (waits - back) w.dressBackOwed })

/-- Queues (exit × 8 + class) that may hold a frame: those with a VOQ entry or a local copy waiting. -/
def State.busyQueues (s : State) : List Nat :=
  ((s.sw.voqs.filter (fun (e : Nat × List Nat) => decide (e.1 / 40 % 408 < 400) && !e.2.isEmpty)).map (fun (e : Nat × List Nat) => e.1 / 40 % 408 * 8 + e.1 / 5 % 8) ++
    (s.sw.queues.filter (fun (e : Nat × EQueue) => !e.2.copies.isEmpty)).map (fun (e : Nat × EQueue) => e.1)).eraseDups

/-- SHAPER_HOLD and GATE_HOLD of a queue in a PCLK (R324). -/
def State.holdCount (s : State) (q : Nat) : State :=
  let x := q / 8
  let c := q % 8
  match s.unmet x c with
  | 5 => s.arr 4 (tileOfExit x) x c 1
  | 4 => s.arr 5 (tileOfExit x) x c 1
  | _ => s

/-- A PCLK edge with the pipes ungated. -/
def State.pclkEdge (s : State) : State :=
  let s1 := forEach (range 0 8) (fun t s => (s.pipeSlots t).dresserSlots t) s
  forEach s1.busyQueues (fun q s => s.holdCount q) s1

/-- One tick: `now` advances; a CCLK edge, every 60 ticks, advances network time; a PCLK edge places the slots of its PCLK. The clocks
stand in DARK, where only the always-on calendar runs. -/
def State.tick (s : State) : State :=
  let n := s.now + 1
  let s1 := { s with now := n }
  if s.cmd.mode = Md.dark then s1
  else
    let s2 := if n % 60 = 0 then s1.onTime TimeSt.cclkEdge else s1
    if s.sw.pipesUp ∧ n % pclkTicks s = 0 then s2.pclkEdge else s2

end Sys2Proof.Machine
end

