-- ==== Sys2Proof/WellFormed.lean ====
section
/-! DEFINITION. Well-formed commands and events: every unit an operand names is one the spec gives the device (R6), every field of a message
fits its place in the request header (R385). -/
namespace Sys2Proof
open Sys2Proof.Machine

/-- A Myelle message: its lane exists, TAG, SEQ and LEN fit their fields, the payload is no longer than its lane's area admits (R384, R385). -/
def Msg.wf (m : Msg) : Bool :=
  laneOk m.lane && decide (m.tag < 2 ^ 32) && decide (m.seq < 2 ^ 16) && decide (m.payload.length ≤ lanePlenMax m.lane)

/-- A place of a tile's table SRAM (R102): tile, paddock, line, word. -/
def placeWf (t pad line word : Nat) : Bool := decide (t < 8) && decide (pad < 96) && decide (line < 8192) && decide (word < 4)

/-- An exit that an egress tile grants: a front lport or a recirculation exit (R6). -/
def exitOk (x : Nat) : Bool := decide (x < 384) || (decide (392 ≤ x) && decide (x < 400))

/-- Is a command or event well formed? -/
def Instr.wf : Instr → Bool
  | .sysPing m | .sysStatus m | .sysControlStatus m | .sysFwLoad m | .sysFwActivate m | .sysSwitchover m | .sysReset m | .sysSet m
  | .sysGet m | .sysAsyncStatus m | .modeSet m | .modeStatus m | .stageCreate m | .stageResize m | .stageDissolve m | .stageStatus m
  | .portConfig m | .portStatus m | .portHealth m | .portSerdesBounds m | .moduleStatus m | .moduleRead m | .moduleWrite m
  | .moduleReset m | .parseLoad m | .parseDiscard m | .parseRead m | .parseStatus m | .tableCreate m | .tableProfile m
  | .tableDomain m | .tablePfxAdd m | .tablePfxDelete m | .tableEntryWrite m | .tableEntryDelete m | .tableRead m
  | .tableFlushLearned m | .tableCommit m | .tableCommitCancel m | .tableAbort m | .tableVstatus m | .ruleBlock m | .ruleLayout m
  | .ruleRange m | .rulePreselect m | .ruleDefault m | .ruleAdd m | .ruleDelete m | .ruleRead m | .patternLoad m | .patternDiscard m
  | .patternRead m | .patternStatus m | .patternBounds m | .patternQuery m | .patternStep m | .editLoad m | .editSwap m
  | .editRead m | .editStatus m | .editRegion m | .queuePolicer m | .queuePolicerRead m | .queuePolicerRange m | .queuePrecolour m
  | .queueService m | .queueLport m | .queueCuesheet m | .queueStatus m | .bufferClass m | .bufferLport m | .bufferSession m
  | .bufferStatus m | .memConfig m | .memRegion m | .memShare m | .memSpeed m | .memRepair m | .memStatus m | .timeStatus m
  | .timeConfig m | .timeSet m | .timeAdjustFreq m | .timeAdjustSlew m | .timeAdjustStep m | .timePortConfig m | .timePortRead m
  | .powerStatus m | .powerLimit m | .powerPrecedence m | .powerBounds m | .faultStatus m | .faultAck m | .faultConfig m
  | .faultPin m | .recordConfig m | .recordTrigger m | .recordStatus m | .recordRead m | .recordDrive m | .lifeRead m
  | .lifeStatus m | .lifeBackup m | .counterRead m | .counterSnapshot m | .counterEvents m | .counterSlots m | .counterLport m
  | .ringAssign m | .ringPools m | .ringQuota m | .ringCap m | .ringRelease m | .ringStatusCmd m | .identityChain m
  | .identityQuote m | .identityOwnerEnrol m | .identityRollbackCommit m | .testLoopback m | .testPrbs m | .testInject m
  | .testStatus m => m.wf
  | .fwStaged _ _ _ _ | .fwActivated | .fwActivateFailed _ | .sysResetStart | .modeChanged | .slewEnd | .parseWalk _ _ _
  | .classifyAndLookUp _ _ | .paddockRead _ _ | .specGrant _ | .scanFallback _ | .orderedMatchSearch _ _
  | .confirm _ _ | .cellLaunch _ _ _ | .cellArrival _ | .reentryRead _ _ | .dresserAssign _ _ | .editProgram _ _ _ _ | .handOff _
  | .transmitFrame _ _ | .tailVerdict _ | .surveyJob _ | .surveyWaitExpiry _ | .stateComparison | .memSpeedStep | .generationSeal
  | .generationAdopt _ | .heartbeatMiss | .leadYield | .understudyReady _ | .controlRecoveryAttempt _ | .startUp _ | .perstN _
  | .functionLevelReset | .hostLinkLoss | .hostLinkReset | .smbusSetOffset _ _ | .smbusBlockWrite _ _ _ | .smbusBlockRead _ _
  | .sheepdogVisit _ | .faultWindowExpiry | .fltAck _ | .faultRepaired _ _ _ _ | .quietPeriodEnd | .faultNPulseEnd | .ppsEdge _ _
  | .ppsLost | .hostTimeout | .todSentence _ _ | .calendarWrite | .journalRecordWrite | .snapIntervalRecord | .ledgerCheckpoint _ _
  | .laneTrend _ | .dramEcs _ | .ledgerCompaction _ | .ledgerBackup | .vinBand _ | .currentLimitStep _ | .currentLimitRelease _
  | .clockingChange | .thermalDarkExit | .resetN _ _ | .pmcSnap _ | .snapshotEdge | .snapshotTaken | .pmcSnapIdRead
  | .viewLatchRead _ | .ucsWordsRead | .devResetKey _ | .devResetDisarm | .devReset _ | .diagRead | .diagWrite _ | .diagComplete
  | .registerWrite _ _ _ | .ppsOutPulse | .smbusTimeout | .snapshotPinLapse | .testAccessPort _ _ _ _ _ => true
  | .stageReady k => (decide (1 ≤ k) && decide (k ≤ 4))
  | .stageResized k => (decide (1 ≤ k) && decide (k ≤ 4))
  | .stageDissolved k => (decide (1 ≤ k) && decide (k ≤ 4))
  | .graphStaged k _ => decide (k ≤ 4)
  | .instanceReady k kind => decide (k ≤ 4) && decide (kind < 16)
  | .commitArming k _ => decide (k ≤ 4)
  | .versionFlip k => decide (k ≤ 4)
  | .drainComplete k => decide (k ≤ 4)
  | .drainExpired k => decide (k ≤ 4)
  | .versionRetired k => decide (k ≤ 4)
  | .sweepPass k => decide (k ≤ 4)
  | .respaced b => decide (b < 32)
  | .patternStaged k _ => decide (k ≤ 4)
  | .editStaged k _ => decide (k ≤ 4)
  | .commandTake lane _ => laneOk lane
  | .responseDelivery r _ => decide (r < 8)
  | .eventPost r => decide (r < 8)
  | .frameReceive l _ _ _ _ => decide (l < 384)
  | .pipePlacement t _ => decide (t < 8)
  | .patternScan t _ _ _ _ => decide (t < 8)
  | .specReturn x => decide (x < 384)
  | .reorderRelease t src => decide (t < 8) && decide (src < 50)
  | .lateRelease t src => decide (t < 8) && decide (src < 50)
  | .xoffRefresh l c => decide (l < 384) && decide (c ≤ 8)
  | .xonSend l c => decide (l < 384) && decide (c ≤ 8)
  | .egressGrant x _ _ => exitOk x
  | .multicastReplication k _ => decide (k < 8)
  | .provisionVerdict t => decide (t < 8)
  | .staticLearnedRemoval k => decide (k ≤ 4)
  | .moveStorm t k => decide (t < 8) && decide (k ≤ 4)
  | .ageingVisit t pad line word _ => placeWf t pad line word
  | .paddockScrub t pad line word _ => placeWf t pad line word
  | .poisonRepair t pad line word _ => placeWf t pad line word
  | .graphNodeRepair t w => decide (t < 8) && decide (w < 1024)
  | .patternRepair t e => decide (t < 8) && decide (e < 4)
  | .editRepair t bank w => decide (t < 8) && decide (bank < 2) && decide (w < 8192)
  | .policerRepair t pol => decide (t < 8) && decide (pol < 8192)
  | .throttleReading die _ => decide (die < 2)
  | .lportFlush l => decide (l < 384)
  | .flushCellsFreed t k => decide (t < 8) && decide (k ≤ 4)
  | .foldScrub t cell _ => decide (t < 8) && decide (cell < 262144)
  | .pauseFrameReceive l _ _ _ => decide (l < 384)
  | .pauseExpiry l c => decide (l < 384) && decide (c < 8)
  | .pauseWatchdog l c => decide (l < 384) && decide (c < 8)
  | .shaperRefill l => decide (l < 384)
  | .gateChange l => decide (l < 384)
  | .cuesheetSwitch l => decide (l < 384)
  | .peerHelloSend l => decide (l < 384)
  | .peerHelloReceive l _ => decide (l < 384)
  | .peerTimeout l => decide (l < 384)
  | .laneFault lane => decide (lane < 384)
  | .widthChangeOrderedSet l pair => decide (l < 384) && decide (pair < 4)
  | .widthChange l => decide (l < 384)
  | .restoreHoldExpiry l pair => decide (l < 384) && decide (pair < 4)
  | .healthWindowEnd l _ _ _ _ => decide (l < 384)
  | .probationStart l _ _ _ _ => decide (l < 384)
  | .probationEnd l => decide (l < 384)
  | .linkUp l => decide (l < 384)
  | .linkDown l _ => decide (l < 384)
  | .laneRateFallback l => decide (l < 384)
  | .serdesAdaptation lane field _ => decide (lane < 384) && decide (field < 7)
  | .refclkLaneLoss k => decide (k < 8)
  | .dramAlert c sub _ => decide (c < 8) && decide (sub < 2)
  | .memChannelReset c _ => decide (c < 8)
  | .patrolScrub c sub _ region _ _ _ _ _ _ => decide (c < 8) && decide (sub < 2) && decide (region < 5)
  | .channelTraining c _ _ => decide (c < 8)
  | .dqsOscillatorRead c _ _ => decide (c < 8)
  | .mr4Read c _ => decide (c < 8)
  | .retainSelfRefresh c _ => decide (c < 8)
  | .dimmTemperatureRead c _ => decide (c < 8)
  | .frameSpill i => decide (i < 128)
  | .frameFill i => decide (i < 128)
  | .frameFault i _ => decide (i < 128)
  | .threadWake i _ _ => decide (i < 128)
  | .rootWrite i _ _ => decide (i < 128)
  | .heartbeatWrite complex => decide (complex < 2)
  | .irqHoldoffExpiry v => decide (v < 64)
  | .mbDoorbell r _ _ => decide (r < 8)
  | .mbUdoorbell r _ _ => decide (r < 8)
  | .rspValidWrite r => decide (r < 8)
  | .urspValidWrite r => decide (r < 8)
  | .mbEvtConsWrite r _ => decide (r < 8)
  | .ringEnable p => decide (p < 64)
  | .ringDisable p => decide (p < 64)
  | .ringFlush p _ => decide (p < 64)
  | .flushDone p _ _ _ => decide (p < 64)
  | .ringPoll p _ _ _ => decide (p < 64)
  | .injectItem p _ _ _ => decide (p < 64)
  | .injectCompletion p _ => decide (p < 64)
  | .puntWrite k q t c _ _ _ _ => decide (k ≤ 4) && decide (q < 8) && decide (t < 8) && decide (c < 8)
  | .workItem p _ _ _ => decide (p < 64)
  | .dumpFill p _ _ => decide (p < 64)
  | .faultReport cls _ _ _ _ _ _ _ => (Machine.Fc.severity cls).isSome
  | .pipeStall tile pipe _ => decide (tile < 8) && decide (pipe < 16)
  | .dresserStall tile dresser _ => decide (tile < 8) && decide (dresser < 96)
  | .injectorConsumed i word _ _ _ _ _ _ => decide (i < 16) && (Machine.Fc.severity word).isSome
  | .captureTriggered k j _ => decide (k ≤ 4) && decide (j < 4)
  | .capturePostEnd k j => decide (k ≤ 4) && decide (j < 4)
  | .captureDone k j _ => decide (k ≤ 4) && decide (j < 4)
  | .flowSample k q t c _ _ => decide (k ≤ 4) && decide (q < 8) && decide (t < 8) && decide (c < 8)
  | .flowExport k j _ _ => decide (k ≤ 4) && decide (j < 2)
  | .driveAdded i _ _ _ _ _ => decide (i < 4)
  | .driveRemoved i => decide (i < 4)
  | .smartRead i _ _ => decide (i < 4)
  | .avsStep die _ => decide (die < 11)
  | .temperatureReading die _ => decide (die < 11)
  | .thermalTrip die => decide (die < 11)
  | .moduleInserted c => decide (c < 48)
  | .moduleLowPower c _ _ _ _ _ _ _ _ _ _ => decide (c < 48)
  | .modulePowerUp c => decide (c < 48)
  | .moduleReady c => decide (c < 48)
  | .moduleTimeout c => decide (c < 48)
  | .moduleInterrupt c _ _ => decide (c < 48)
  | .modulePoll c _ _ _ _ _ => decide (c < 48)
  | .moduleRemoved c => decide (c < 48)
  | .mgmtBusRecover bus => decide (bus < 8)
  | .statisticsClearingRead l _ => decide (l < 384)
  | .ucsDwordLoad w k _ _ => decide (6144 ≤ w) && decide (w < 8192) && decide (k < 3)
  | .ucsWordWrite w _ _ => decide (6144 ≤ w) && decide (w < 8192)
  | .injArm i => decide (i < 16)
  | .injDisarm i => decide (i < 16)
  | .refclkLaneReturn k => decide (k < 8)
  | .prbsLocked lane => decide (lane < 384)
  | .prbsLockLost lane => decide (lane < 384)
  | .cgRstNRelease c => decide (c < 48)
  | .channelZeroingDone c => decide (c < 8)

end Sys2Proof
end

