-- ==== Sys2Proof/Safety.lean ====
section
/-! DEFINITION. What claims about the block use: when a command is admitted, what its answer is, which states are sound, and what a command
that only reads may change. -/
namespace Sys2Proof
open Sys2Proof.Machine

/-- A command is admitted (R371, R375, R414): its lane exists, a complex serves the device, the journal has room, the checks of class, flags and
mode pass, and no lost DRAM channel stands. -/
structure Admitted (o : Op) (m : Msg) (s : State) : Prop where
  lane : laneOk m.lane = true
  served : s.ctl.noService = false
  room : s.journalFull m = false
  judged : judge o m (s.intake o m) = none
  dram : s.fault.standing.contains Fc.memChannelLost = false ∨ servedWithoutDram o.code = true

/-- The answer a command gives once it is taken up: the journal's COMPLETE, the response in its lane, and for ACCEPTED a place among the
outstanding commands. An E command sent with ASYNC whose work is done answers ACCEPTED and completes with CMD_DONE (R417). -/
def answered (o : Op) (m : Msg) (a : Answer) : Out := .next (respondEither o m a)

/-- A command row completes: where it is admitted and `ok` holds of the message and the state that has taken it up, its answer is `ans`. -/
def Completes (o : Op) (row : Msg → Instr) (ok : Msg → State → Prop) (ans : Msg → State → Answer) : Prop :=
  ∀ (m : Msg) (s : State), Admitted o m s → ok m (s.intake o m) → exec (row m) s = answered o m (ans m (s.intake o m))

/-- A chunked load completes (R203): an admitted chunk that fits its assembly, where the conditions `ok` hold, is kept (DONE); the final one hands
the image to validation (ACCEPTED) unless the mailbox holds 64 commands (R419). -/
def LoadCompletes (o : Op) (row : Msg → Instr) (kind : Nat) (ok : State → Nat → Prop) : Prop :=
  ∀ (m : Msg) (s : State) (a : Assembly), Admitted o m s → firstRefusal (chunkChecks m) = none →
    takeChunk ((s.intake o m).assembly ((s.intake o m).stageOf m) kind) m = .taken a →
    (a.final = true → (s.intake o m).atLimit m = false) → ok (s.intake o m) ((s.intake o m).stageOf m) →
    exec (row m) s = answered o m
      (if a.final then accept ((s.intake o m).keepChunk ((s.intake o m).stageOf m) kind a)
       else done ((s.intake o m).keepChunk ((s.intake o m).stageOf m) kind a))

/-- A stage may stage writes: no resize of it runs and no commit of it waits to flip (R182, R438). -/
abbrev StagingOpen (s : State) (k : Nat) : Prop := (s.stage k).state ≠ 3 ∧ s.committing k = false

/-- A stage may change a bank: besides, none of its versions is retiring (R165, R182). -/
abbrev BankOpen (s : State) (k : Nat) : Prop := StagingOpen s k ∧ s.hasRetiring k = false

/-- The catalogue row (R427) and the message of a command; none for an event. -/
def Instr.command : Instr → Option (Op × Msg)
  | .sysPing m => some (opSysPing, m)
  | .sysStatus m => some (opSysStatus, m)
  | .sysControlStatus m => some (opSysControlStatus, m)
  | .sysFwLoad m => some (opSysFwLoad, m)
  | .sysFwActivate m => some (opSysFwActivate, m)
  | .sysSwitchover m => some (opSysSwitchover, m)
  | .sysReset m => some (opSysReset, m)
  | .sysSet m => some (opSysSet, m)
  | .sysGet m => some (opSysGet, m)
  | .sysAsyncStatus m => some (opSysAsyncStatus, m)
  | .modeSet m => some (opModeSet, m)
  | .modeStatus m => some (opModeStatus, m)
  | .stageCreate m => some (opStageCreate, m)
  | .stageResize m => some (opStageResize, m)
  | .stageDissolve m => some (opStageDissolve, m)
  | .stageStatus m => some (opStageStatus, m)
  | .portConfig m => some (opPortConfig, m)
  | .portStatus m => some (opPortStatus, m)
  | .portHealth m => some (opPortHealth, m)
  | .portSerdesBounds m => some (opPortSerdesBounds, m)
  | .moduleStatus m => some (opModuleStatus, m)
  | .moduleRead m => some (opModuleRead, m)
  | .moduleWrite m => some (opModuleWrite, m)
  | .moduleReset m => some (opModuleReset, m)
  | .parseLoad m => some (opParseLoad, m)
  | .parseDiscard m => some (opParseDiscard, m)
  | .parseRead m => some (opParseRead, m)
  | .parseStatus m => some (opParseStatus, m)
  | .tableCreate m => some (opTableCreate, m)
  | .tableProfile m => some (opTableProfile, m)
  | .tableDomain m => some (opTableDomain, m)
  | .tablePfxAdd m => some (opTablePfxAdd, m)
  | .tablePfxDelete m => some (opTablePfxDelete, m)
  | .tableEntryWrite m => some (opTableEntryWrite, m)
  | .tableEntryDelete m => some (opTableEntryDelete, m)
  | .tableRead m => some (opTableRead, m)
  | .tableFlushLearned m => some (opTableFlushLearned, m)
  | .tableCommit m => some (opTableCommit, m)
  | .tableCommitCancel m => some (opTableCommitCancel, m)
  | .tableAbort m => some (opTableAbort, m)
  | .tableVstatus m => some (opTableVstatus, m)
  | .ruleBlock m => some (opRuleBlock, m)
  | .ruleLayout m => some (opRuleLayout, m)
  | .ruleRange m => some (opRuleRange, m)
  | .rulePreselect m => some (opRulePreselect, m)
  | .ruleDefault m => some (opRuleDefault, m)
  | .ruleAdd m => some (opRuleAdd, m)
  | .ruleDelete m => some (opRuleDelete, m)
  | .ruleRead m => some (opRuleRead, m)
  | .patternLoad m => some (opPatternLoad, m)
  | .patternDiscard m => some (opPatternDiscard, m)
  | .patternRead m => some (opPatternRead, m)
  | .patternStatus m => some (opPatternStatus, m)
  | .patternBounds m => some (opPatternBounds, m)
  | .patternQuery m => some (opPatternQuery, m)
  | .patternStep m => some (opPatternStep, m)
  | .editLoad m => some (opEditLoad, m)
  | .editSwap m => some (opEditSwap, m)
  | .editRead m => some (opEditRead, m)
  | .editStatus m => some (opEditStatus, m)
  | .editRegion m => some (opEditRegion, m)
  | .queuePolicer m => some (opQueuePolicer, m)
  | .queuePolicerRead m => some (opQueuePolicerRead, m)
  | .queuePolicerRange m => some (opQueuePolicerRange, m)
  | .queuePrecolour m => some (opQueuePrecolour, m)
  | .queueService m => some (opQueueService, m)
  | .queueLport m => some (opQueueLport, m)
  | .queueCuesheet m => some (opQueueCuesheet, m)
  | .queueStatus m => some (opQueueStatus, m)
  | .bufferClass m => some (opBufferClass, m)
  | .bufferLport m => some (opBufferLport, m)
  | .bufferSession m => some (opBufferSession, m)
  | .bufferStatus m => some (opBufferStatus, m)
  | .memConfig m => some (opMemConfig, m)
  | .memRegion m => some (opMemRegion, m)
  | .memShare m => some (opMemShare, m)
  | .memSpeed m => some (opMemSpeed, m)
  | .memRepair m => some (opMemRepair, m)
  | .memStatus m => some (opMemStatus, m)
  | .timeStatus m => some (opTimeStatus, m)
  | .timeConfig m => some (opTimeConfig, m)
  | .timeSet m => some (opTimeSet, m)
  | .timeAdjustFreq m => some (opTimeAdjust, m)
  | .timeAdjustSlew m => some (opTimeAdjust, m)
  | .timeAdjustStep m => some (opTimeAdjust, m)
  | .timePortConfig m => some (opTimePort, m)
  | .timePortRead m => some (opTimePort, m)
  | .powerStatus m => some (opPowerStatus, m)
  | .powerLimit m => some (opPowerLimit, m)
  | .powerPrecedence m => some (opPowerPrecedence, m)
  | .powerBounds m => some (opPowerBounds, m)
  | .faultStatus m => some (opFaultStatus, m)
  | .faultAck m => some (opFaultAck, m)
  | .faultConfig m => some (opFaultConfig, m)
  | .faultPin m => some (opFaultPin, m)
  | .recordConfig m => some (opRecordConfig, m)
  | .recordTrigger m => some (opRecordTrigger, m)
  | .recordStatus m => some (opRecordStatus, m)
  | .recordRead m => some (opRecordRead, m)
  | .recordDrive m => some (opRecordDrive, m)
  | .lifeRead m => some (opLifeRead, m)
  | .lifeStatus m => some (opLifeStatus, m)
  | .lifeBackup m => some (opLifeBackup, m)
  | .counterRead m => some (opCounterRead, m)
  | .counterSnapshot m => some (opCounterSnapshot, m)
  | .counterEvents m => some (opCounterEvents, m)
  | .counterSlots m => some (opCounterSlots, m)
  | .counterLport m => some (opCounterLport, m)
  | .ringAssign m => some (opRingAssign, m)
  | .ringPools m => some (opRingPools, m)
  | .ringQuota m => some (opRingQuota, m)
  | .ringCap m => some (opRingCap, m)
  | .ringRelease m => some (opRingRelease, m)
  | .ringStatusCmd m => some (opRingStatus, m)
  | .identityChain m => some (opIdentityChain, m)
  | .identityQuote m => some (opIdentityQuote, m)
  | .identityOwnerEnrol m => some (opIdentityOwnerEnrol, m)
  | .identityRollbackCommit m => some (opIdentityRollbackCommit, m)
  | .testLoopback m => some (opTestLoopback, m)
  | .testPrbs m => some (opTestPrbs, m)
  | .testInject m => some (opTestInject, m)
  | .testStatus m => some (opTestStatus, m)
  | _ => none

/-- The DWORDs of BAR0 that the manual lists: areas, registers and counters (R380–R382, R392, R552–R566). Every other is unmapped or reserved. -/
def barListed (a : Nat) : Bool :=
  decide (a < 0x28) ||                                                                       -- DEV
  (decide (0x10000 ≤ a) && (decide (a < 0x10024) || a == 0x10040)) ||                        -- PWS
  (decide (0x100000 ≤ a) && decide (a < 0x200000) && (decide (a % 0x20000 < 0x12000) ||
    (decide (0x1F000 ≤ a % 0x20000) && decide (a % 0x20000 < 0x1F024)))) ||                  -- MBX
  (decide (0x200000 ≤ a) && decide (a < 0x240000) && decide (a % 0x1000 < 0x30)) ||          -- RNG
  (decide (0x300000 ≤ a) && (decide (a < 0x300400) || (decide (0x300800 ≤ a) && decide (a < 0x300808)) ||
    (decide (0x301000 ≤ a) && decide (a < 0x301400)))) ||                                    -- IRQ
  (decide (0x400000 ≤ a) && (decide (a < 0x400088) || (decide (0x401000 ≤ a) && decide (a < 0x402000)))) ||  -- FLT
  (decide (0x500000 ≤ a) && (decide (a < 0x500014) || (decide (0x510000 ≤ a) && decide (a < 0x558000) &&
    decide (a % 0x8000 < 0x5000) && decide (a % 0x1000 < 0x800)))) ||                        -- PMC
  (decide (0x600000 ≤ a) && decide (a < 0x600018)) ||                                        -- TIM
  (decide (0x700000 ≤ a) && decide (a < 0x700014)) ||                                        -- POOL
  (decide (0x800000 ≤ a) && decide (a < 0x8C0000) && decide (a % 0x40000 < 0x30000) && decide (a % 0x200 < 0x180)) ||  -- STW
  (decide (0x900000 ≤ a) && decide (a < 0x900024)) ||                                        -- DIAG
  (decide (0xA00000 ≤ a) && decide (a < 0xA08008)) ||                                        -- UCS
  (decide (0xB00000 ≤ a) && decide (a < 0xB00200) && decide (a % 32 < 0x18))                 -- INJ

/-- The legal modes (R9): DEV_MODE is one of the eight major modes, and an activation returns to one of them. -/
def LegalMode (s : State) : Prop :=
  s.cmd.mode ≤ 7 ∧ ∀ a, s.ctl.activation = some a → a.returnMode ≤ 7

/-- The byte memories are in canonical form: the mailbox areas and what the device has written to host memory. -/
def CanonicalMemory (s : State) : Prop := s.host.areas.wf = true ∧ s.host.hostMem.wf = true

end Sys2Proof
end

