-- ==== Sys2Proof/Certificates/Slice0/Obligations.lean ====
section
/-! DEFINITION. The statements for the provers: what the rules of the spec say the block does, each a Prop about exec and step. -/
open Sys2Proof
open Sys2Proof.Machine

/-- A step takes the command at the front of the queue and is exec of it on the state with the queue's rest; with an empty queue it is one tick
(the queue and the tick are the model's own: log entry 1). -/
def Obligations.StepTakesTheFront : Prop :=
  (∀ (c : Instr) (rest : List Instr) (s : State), s.pending = c :: rest → step s = exec c { s with pending := rest }) ∧
  (∀ s : State, s.pending = [] → step s = .next s.tick)

/-- The state after reset meets the two invariants: a legal mode and canonical byte memories. -/
def Obligations.ResetIsSound : Prop := LegalMode State.reset ∧ CanonicalMemory State.reset

/-- What reset leaves where the spec gives a value: queue 7 at level 3, every queue with QUANTUM 6 and its shaper off; GB_PAD 64, PAUSE_WD 100 ms
and REFILL_EXP 2 of an lport; QUIET_PERIOD 60 s, PIN_MODE 0 and no interrupt class; PPS_WIDTH 100 ms, UTC_OFFSET 37 s, FREQ_BOUND 100 ppm;
injectors idle, nothing isolated, mailboxes disabled with ANY set; throttle between FULL and OFF. -/
def Obligations.ResetDefaults : Prop :=
  (∀ l, (State.reset.queue l 7).level = 3 ∧ ∀ q, q < 7 → (State.reset.queue l q).level = 0) ∧
  (∀ l q, (State.reset.queue l q).quantum = 6 ∧ (State.reset.queue l q).shaper.en = false) ∧
  (∀ l, (State.reset.eg l).gbPad = 64 ∧ (State.reset.eg l).pauseWd = 100 ∧ (State.reset.eg l).refillExp = 2) ∧
  (State.reset.fault.quietPeriod = 60 ∧ State.reset.fault.pinMode = 0 ∧ State.reset.fault.interrupt = [] ∧ State.reset.fault.isolated = []) ∧
  (State.reset.time.ppsWidth = 100 ∧ State.reset.time.utcOffset = 37 ∧ State.reset.time.freqBound = 100000000) ∧
  (∀ r, (State.reset.mb r).enabled = false ∧ (State.reset.mb r).any = true) ∧
  State.reset.tab.cap = 0 ∧ State.reset.tab.floor = 3

/-- From every state whose mode is legal, a step that answers a next state leaves a legal mode: DEV_MODE is one of the eight values of R9, and an
activation in progress returns to one of them; and the DEV_MODE field, bits [2:0] of its register, reports the mode. -/
def Obligations.EveryStepKeepsALegalMode : Prop :=
  ∀ s t : State, LegalMode s → step s = .next t → LegalMode t ∧ devMode t % 8 = t.cmd.mode

/-- From every state whose mailbox areas and written host memory are in canonical form, a step that answers a next state leaves them so: equal
contents stay equal data (the form is the model's: log entry 2). -/
def Obligations.EveryStepKeepsMemoryCanonical : Prop :=
  ∀ s t : State, CanonicalMemory s → step s = .next t → CanonicalMemory t

/-- No command or event whose operands name units of the device (R6) ends in a fault or a refusal: each has a next state, in every state. -/
def Obligations.WellFormedNeverStops : Prop :=
  ∀ (c : Instr) (s : State), c.wf = true → ∃ t, exec c s = .next t

/-- Whatever a command or event does, it leaves the queue of waiting commands as it finds it, and it takes no time: the clock stands (the queue
and the clock that only an empty queue advances are the model's: log entry 1). -/
def Obligations.CommandsLeaveTheQueueAndTheClock : Prop :=
  ∀ (c : Instr) (s t : State), exec c s = .next t → t.pending = s.pending ∧ t.now = s.now

/-- An operand that names a unit the device does not have stops by name (log entry 125): a message on mailbox 8 or ring pair 64, a doorbell of
mailbox 8, a frame on lport 384, a packet placed in tile 8. -/
def Obligations.AbsentUnitsStop : Prop :=
  (∀ (m : Msg) (s : State), laneOk m.lane = false → exec (.sysPing m) s = .fault .noSuchUnit ∧ exec (.portConfig m) s = .fault .noSuchUnit) ∧
  (∀ (r v copy : Nat) (s : State), 8 ≤ r → exec (.mbDoorbell r v copy) s = .fault .noSuchUnit) ∧
  (∀ (l : Nat) (w : List Byte) (e f h : Bool) (s : State), 384 ≤ l → exec (.frameReceive l w e f h) s = .fault .noSuchUnit) ∧
  (∀ (t held : Nat) (s : State), 8 ≤ t → exec (.pipePlacement t held) s = .fault .noSuchUnit)

/-- SYS.PING returns its payload; SYS.STATUS, SYS.CONTROL_STATUS and MODE.STATUS their records as the sender's stage sees them; SYS.GET each setting
record with VALUE filled in; SYS.ASYNC_STATUS the count and the entries of the sender's accepted and uncompleted commands. All with DONE, and with
no change of state beside the command's own journal entry and response. -/
def Obligations.SysReadsAnswer : Prop :=
  Completes opSysPing .sysPing (fun m _ => m.plen ≤ lanePlenMax m.lane) (fun m s => doneWith m.payload s) ∧
  Completes opSysStatus .sysStatus (fun m _ => m.plen = 0) (fun m s => doneWith (sysStatusRecord s (s.stageOf m)) s) ∧
  Completes opSysControlStatus .sysControlStatus (fun m _ => m.plen = 0) (fun m s => doneWith (controlStatusRecord s (s.stageOf m)) s) ∧
  Completes opModeStatus .modeStatus (fun m _ => m.plen = 0) (fun _ s => doneWith (modeStatusRecord s) s) ∧
  Completes opSysGet .sysGet
    (fun m s => m.plen ≠ 0 ∧ m.plen % 16 = 0 ∧ m.plen ≤ 1023 * 16 ∧
      (m.records 0 16).all (fun r => settingFieldsOk r false && settingAllowed s (s.stageOf m) (s.isOwner m) false r) = true)
    (fun m s => doneWith ((m.records 0 16).map (fun r =>
      r.take 8 ++ leBytes 8 (s.setting (settingKey r) (settingSlot (s.stageOf m) r)))).flatten s) ∧
  Completes opSysAsyncStatus .sysAsyncStatus (fun m _ => m.plen = 0)
    (fun m s => doneWith (leBytes 4 (s.mb (s.mbOf m)).outstanding.length ++
      ((s.mb (s.mbOf m)).outstanding.map (fun o =>
        leBytes 4 o.tag ++ leBytes 2 o.opcode ++ leBytes 2 o.seq ++ leBytes 4 ((s.now - o.acceptedAt) / tkMs 1))).flatten) s)

/-- SYS.FW_LOAD keeps a chunk (DONE), or with the final chunk hands the image to verification (ACCEPTED); SYS.FW_ACTIVATE notes the mode to return to and
enters INTERVAL; SYS.SWITCHOVER seals and adopts a generation and flips the lead; SYS.RESET schedules the reset of its KIND; SYS.SET writes every
record; MODE.SET notes the transition and its REASON, also in the ledger. -/
def Obligations.SysCommandsAct : Prop :=
  (∀ (m : Msg) (s : State) (a : Assembly), Admitted opSysFwLoad m s → firstRefusal (chunkChecks m) = none →
    takeChunk s.ctl.fwAssembly m = .taken a → (a.final = true → s.atLimit m = false) →
    exec (.sysFwLoad m) s = answered opSysFwLoad m (
      if a.final then accept ((s.intake opSysFwLoad m).onCtl (fun c => { c with fwAssembly := none, fwChecking := c.fwChecking ++ [a.bytes] }))
      else done ((s.intake opSysFwLoad m).onCtl (fun c => { c with fwAssembly := some a })))) ∧
  Completes opSysFwActivate .sysFwActivate
    (fun m s => m.plen = 0 ∧ s.atLimit m = false ∧ s.anyCommitPending = false ∧ s.ctl.fwStaged.isSome = true)
    (fun _ s => accept ((s.onCtl (fun c => { c with activation := some { returnMode := s.cmd.mode, since := s.now } })).moveMode Md.interval 6 0)) ∧
  Completes opSysSwitchover .sysSwitchover (fun m s => m.plen = 0 ∧ s.ctl.understudy = 0)
    (fun _ s => done ((((s.onCtl (fun c => { c with sealed := c.sealed + 1, adopted := c.sealed + 1 })).flipLead).newLeadAcks).announceTakeover 0 0)) ∧
  Completes opSysReset .sysReset (fun m _ => m.plen = 8 ∧ m.u8 0 ≤ 1 ∧ m.zero 1 3 = true ∧ m.u32 4 = 0x54455352)
    (fun m s => done (s.onCmd (fun c => { c with resetPlan := some { cold := m.u8 0 == 1, due := none, sender := s.mbOf m } }))) ∧
  Completes opSysSet .sysSet
    (fun m s => m.plen ≠ 0 ∧ m.plen % 16 = 0 ∧ m.plen ≤ 1023 * 16 ∧
      (m.records 0 16).all (fun r => settingFieldsOk r true && settingAllowed s (s.stageOf m) (s.isOwner m) true r) = true)
    (fun m s => done ((m.records 0 16).foldl (fun t r => t.putSetting (settingKey r) (settingSlot (s.stageOf m) r) (settingValue r)) s)) ∧
  Completes opModeSet .modeSet
    (fun m s => m.plen = 8 ∧ (m.u8 0 = Md.dark ∨ m.u8 0 = Md.house ∨ m.u8 0 = Md.run ∨ m.u8 0 = Md.rehearsal ∨ m.u8 0 = Md.safe) ∧
      m.zero 1 3 = true ∧ s.atLimit m = false ∧ commandedMove s (m.u8 0) = true ∧ (s.cmd.mode = Md.house → s.fault.standing = []) ∧
      s.cmd.transition = none)
    (fun m s => accept ((s.onCmd (fun c => { c with
      reason := m.u32 4, transition := some { target := m.u8 0, cause := 0, mb := some (s.mbOf m), tag := m.tag } })).ledgerWrite 6
        (leBytes 1 (m.u8 0) ++ leBytes 4 (m.u32 4))))

/-- A service image that passes step 4 of R363 is held and FW_STAGED completes its load; an activation ends with the new image running, or, 500 ms late
or at the new image's fault, with the old one; a reset that is due takes the device through LOAD; a transition in progress is made. -/
def Obligations.FirmwareAndModeEventsAct : Prop :=
  (∀ (v o : Bool) (h ms : Nat) (bytes : List Byte) (rest : List (List Byte)) (s : State), s.ctl.fwChecking = bytes :: rest →
    (s.findOut 0 0x0104).isSome = true → serviceImageOk s.ctl (imageOfBytes bytes v o h ms) = true →
    exec (.fwStaged v o h ms) s = .next (((s.onCtl (fun c => { c with fwChecking := rest })).onCtl
      (fun c => { c with fwStaged := some (imageOfBytes bytes v o h ms) })).finish 0 0x0104 Ev.fwStaged Lv.device 0 St.done
        (leBytes 4 (imageOfBytes bytes v o h ms).version))) ∧
  (∀ (s : State) (a : Activation) (img : Image), s.ctl.activation = some a → s.ctl.fwStaged = some img →
    ∃ t, exec .fwActivated s = .next t ∧
      t = ((((s.onCtl (fun c => { c with fwPrevious := c.service, service := some img, fwStaged := none })).endInterval a.returnMode).ledgerWrite 3
        (firmwareRecord 0 img.version img.svn 0)).finish 0 0x0105 Ev.fwActivated Lv.device 0 St.done
          (leBytes 4 (imageVersion s.ctl.service) ++ leBytes 4 img.version))) ∧
  (∀ (s : State) (a : Activation), s.ctl.activation = some a →
    exec (.fwActivateFailed true) s = .next ((s.endInterval a.returnMode).finish 0 0x0105 Ev.fwActivateFailed Lv.device 0 St.hwFault []) ∧
    (a.since + tkMs 500 ≤ s.now →
      exec (.fwActivateFailed false) s = .next ((s.endInterval a.returnMode).finish 0 0x0105 Ev.fwActivateFailed Lv.device 0 St.timeout []))) ∧
  (∀ (s : State) (p : ResetPlan) (d : Nat), s.cmd.resetPlan = some p → p.due = some d → d ≤ s.now →
    exec .sysResetStart s = .next (s.resetToLoad 7 p.sender [])) ∧
  (∀ (s : State) (x : Transition), s.cmd.transition = some x → exec .modeChanged s = .next (s.makeTransition x))

/-- STAGE.CREATE of a side stage that is absent, from ports, heads, paddocks and cells that S0 can give, is ACCEPTED: the record stands CREATING and the
stage's versions start at 0; STAGE_READY makes it READY, enables its mailbox with ANY set and posts to both mailboxes. STAGE.RESIZE of a READY stage
is ACCEPTED with the state RESIZING and the new values noted; STAGE_RESIZED ends it. STAGE.DISSOLVE begins the dissolution; STAGE_DISSOLVED, once no
packet of the stage is held, ends it. STAGE.STATUS returns the owner every record and a side stage its own. -/
def Obligations.StageCommandsAct : Prop :=
  Completes opStageCreate .stageCreate
    (fun m s => m.plen = 32 ∧ stageBad s m = false ∧ stageForeign s (m.u8 0) (stageGiven m 1) = false ∧ s.atLimit m = false ∧
      (s.stage (m.u8 0)).state = 0 ∧ takesBusy s Stage.absent (stageGiven m 1) = false ∧
      takesTooMuch s (m.u8 0) Stage.absent (stageGiven m 1) = false)
    (fun m s => accept ((s.putStage (m.u8 0) (stageGiven m 1)).onVer (m.u8 0) (fun _ => Ver.reset))) ∧
  (∀ (k : Nat) (s : State), 1 ≤ k → k ≤ 4 → (s.stage k).state = 1 →
    exec (.stageReady k) s = .next ((((s.putStage k { s.stage k with state := 2 }).onMb k (fun b => { b with
      enabled := mbEnabledIn (s.putStage k { s.stage k with state := 2 }) s.cmd.mode k, any := true, uany := true })).finishFor 0
        (fun o => o.opcode == 0x0301 && fieldLE o.payload 0 1 == k) Ev.stageReady Lv.device k St.done (leBytes 1 k ++ zeros 3)).post
          k Ev.stageReady Lv.device k (leBytes 1 k ++ zeros 3))) ∧
  Completes opStageResize .stageResize
    (fun m s => m.plen = 32 ∧ stageBad s m = false ∧ stageForeign s (m.u8 0) (stageGiven m 2) = false ∧ s.atLimit m = false ∧
      (s.stage (m.u8 0)).state = 2 ∧ (s.ver (m.u8 0)).state = 0 ∧ leavesBusy s (m.u8 0) (s.stage (m.u8 0)) (stageGiven m 2) = false ∧
      takesBusy s (s.stage (m.u8 0)) (stageGiven m 2) = false ∧ takesTooMuch s (m.u8 0) (s.stage (m.u8 0)) (stageGiven m 2) = false ∧
      addedTooMuch s (m.u8 0) (s.stage (m.u8 0)) (stageGiven m 2) = false)
    (fun m s => accept ((s.putStage (m.u8 0) { s.stage (m.u8 0) with state := 3 }).onCmd
      (fun c => { c with resizing := SMap.insert (m.u8 0) (stageGiven m 2) c.resizing }))) ∧
  (∀ (k : Nat) (new : Stage) (s : State), 1 ≤ k → k ≤ 4 → (s.stage k).state = 3 → SMap.find k s.cmd.resizing = some new →
    exec (.stageResized k) s = .next (s.endResize k new)) ∧
  Completes opStageDissolve .stageDissolve
    (fun m s => m.plen = 4 ∧ m.u8 0 ≠ 0 ∧ m.u8 0 ≤ 4 ∧ m.zero 1 3 = true ∧ s.atLimit m = false ∧ (s.stage (m.u8 0)).state = 2 ∧
      s.committing (m.u8 0) = false)
    (fun m s => accept (s.beginDissolve (m.u8 0))) ∧
  (∀ (k : Nat) (s : State), 1 ≤ k → k ≤ 4 → (s.stage k).state = 4 → s.stageHeld k = [] →
    exec (.stageDissolved k) s = .next (s.endDissolve k)) ∧
  Completes opStageStatus .stageStatus (fun m _ => m.plen = 0)
    (fun m s => doneWith (if s.stageOf m = 0 then ((range 0 5).map s.stageRecord).flatten else s.stageRecord (s.stageOf m)) s)

/-- PORT.CONFIG by the port's stage, with records that live together, reconfigures the eight lports as one change, gives the module its application and
recomputes the budget; PORT.STATUS returns one record per configured sub-port; PORT.HEALTH the record of a configured lport; PORT.SERDES_BOUNDS binds the
lanes of every record. TEST.LOOPBACK starts or ends a loopback; TEST.PRBS with DIR 0 and no pattern running changes nothing, with DIR 1 a generator starts
and the sub-port is in test; TEST.STATUS adds the new counts of the locked lanes and returns the
injector and PRBS records. -/
def Obligations.PortCommandsAct : Prop :=
  Completes opPortConfig .portConfig
    (fun m s => 8 ≤ m.plen ∧ m.plen ≤ 72 ∧ m.plen % 8 = 0 ∧ m.u8 0 ≤ 47 ∧ m.zero 1 7 = true ∧ cfgSetOk ((m.records 8 8).map leNat) = true ∧
      s.ownsPort (s.stageOf m) (m.u8 0) = true)
    (fun m s => done ((forEach (range 0 8) (fun k s =>
      s.reconfigure (8 * m.u8 0 + k) (((m.records 8 8).map leNat).find? (fun c => cfgSub c == k))) s).reselectModule (m.u8 0)).recompute) ∧
  Completes opPortStatus .portStatus
    (fun m s => m.plen = 4 ∧ m.u8 0 ≤ 47 ∧ m.zero 1 3 = true ∧ s.ownsPort (s.stageOf m) (m.u8 0) = true)
    (fun m s => doneWith (((lportsOf (m.u8 0)).filter (fun l => (s.lport l).configured)).map (fun l => leBytes 8 (portStatusRecord s l))).flatten s) ∧
  Completes opPortHealth .portHealth
    (fun m s => m.plen = 4 ∧ m.u16 0 ≤ 383 ∧ m.zero 2 2 = true ∧ s.ownsLport (s.stageOf m) (m.u16 0) = true ∧ (s.lport (m.u16 0)).configured = true)
    (fun m s => doneWith (portHealthRecord s (m.u16 0)) s) ∧
  Completes opPortSerdesBounds .portSerdesBounds
    (fun m s => m.plen ≠ 0 ∧ m.plen % 16 = 0 ∧ m.plen ≤ 384 * 16 ∧ (m.records 0 16).all (serdesRecordOk s) = true)
    (fun m s => done ((m.records 0 16).foldl (fun s r =>
      forEach (serdesLanes r) (fun n s => s.onLane n (fun x => x.bind (boundsOf r))) s) s)) ∧
  Completes opTestLoopback .testLoopback
    (fun m s => m.plen = 4 ∧ m.u16 0 ≤ 383 ∧ m.u8 3 = 0 ∧ (m.u8 2 = 1 ∨ m.u8 2 = 2) ∧ (s.lport (m.u16 0)).configured = true)
    (fun m s => done ((s.enterTest (m.u16 0)).onLport (m.u16 0) (fun x => { x with loop := m.u8 2 }))) ∧
  Completes opTestLoopback .testLoopback
    (fun m s => m.plen = 4 ∧ m.u16 0 ≤ 383 ∧ m.u8 3 = 0 ∧ m.u8 2 = 0 ∧ (s.lport (m.u16 0)).configured = true ∧ (s.lport (m.u16 0)).loop ≠ 0)
    (fun m s => done (s.endLoop 0 (m.u16 0))) ∧
  (∀ l : Nat, Completes opTestPrbs .testPrbs
    (fun m s => m.plen = 8 ∧ m.u16 0 ≤ 383 ∧ m.u8 2 = 1 ∧ 1 ≤ m.u8 3 ∧ m.u8 3 ≤ 8 ∧ m.zero 4 4 = true ∧ s.lportOfLane (m.u16 0) = some l)
    (fun m s => done ((s.onLane (m.u16 0) (fun x => { x with gen := m.u8 3 })).enterTest l))) ∧
  (∀ x : State, Completes opTestStatus .testStatus
    (fun m s => m.plen = 0 ∧ x = ((m.ext.map (fun b => recordsOf b 0 20 (b.length / 20))).getD []).foldl (fun y r =>
      y.onLane (fieldLE r 0 2) (fun z => if z.locked then { z with
        bits := z.bits + fieldLE r 4 8, errors := z.errors + fieldLE r 12 8 } else z)) s)
    (fun _ _ => doneWith (injectorRecords x ++ prbsRecords x) x))

/-- LINK_UP of an lport with ADMIN up that is DOWN or TRAINING, admitted and able to train, makes it UP at its rate with all lanes, starts the health
windows again and posts LINK_UP; out of probation it enters probation at once. LINK_DOWN takes it down with its cause, NO_SIGNAL but for TRAIN_FAIL.
LANE_RATE_FALLBACK lowers the rate by one step while it is above FLOOR. The loss of a lane reference clock takes the eight ports of the tile's six ports
down; its return lets them train. -/
def Obligations.LinkEventsAct : Prop :=
  (∀ (l : Nat) (s : State), l < 384 → (s.lport l).admin = true → ((s.lport l).oper = 0 ∨ (s.lport l).oper = 1) →
    s.portAdmitted (l / 8) = true → s.cannotTrain l = none → s.inTest l = false → (s.lport l).probOnUp = false →
    exec (.linkUp l) s = .next ((s.onLport l (fun y => { y with
      oper := 2, cause := 0, rate := (if y.oper = 0 then cfgRate y.conf else y.rate), lanesOut := 0, step := none,
      deg := false, win := HealthWin.zero, winStart := s.now, windows := 0 })).postPort l Ev.linkUp [])) ∧
  (∀ (l cause : Nat) (s : State), l < 384 → (s.lport l).configured = true → ((s.lport l).oper = 1 ∨ (s.lport l).linkUp = true) →
    exec (.linkDown l cause) s = .next (s.downLport l (if cause = 4 then 4 else 3))) ∧
  (∀ (l : Nat) (s : State), l < 384 → (s.lport l).oper = 1 →
    exec (.laneRateFallback l) s = .next (if cfgFallback (s.lport l).conf = false then s.downLport l 4
      else if cfgFloor (s.lport l).conf < (s.lport l).rate then s.onLport l (fun x => { x with rate := x.rate - 1 })
      else (s.downLport l 4).postPort l Ev.loopAtLimit (portLoopPayload 2 l 0))) ∧
  (∀ (k : Nat) (s : State), k < 8 → exec (.refclkLaneLoss k) s = .next (forEach (range (6 * k) 6) (fun p s => s.downPort p 3)
    (s.onPower (fun p => { p with refLost := setBit p.refLost k true })))) ∧
  (∀ (k : Nat) (s : State), k < 8 → s.power.refLost.testBit k = true → exec (.refclkLaneReturn k) s = .next (
    forEach (range (48 * k) 48) (fun l s => if (s.lport l).admin && (s.lport l).oper == 0 && s.portAdmitted (l / 8) then s.trainLport l else s)
      (s.onPower (fun p => { p with refLost := setBit p.refLost k false }))))

/-- A hello is sent when 100 ms have passed, counted as transmitted octets and frames; a hello received with ACK brings peer mode up and posts it; 300 ms
without one take it down. A lane fault of a sub-port that can lose lanes starts a width change without the pair; both ends hold at the ordered set, run
at the new width at the marker and post it; a pair that has run RESTORE_HOLD without a fault is restored. -/
def Obligations.PeerAndWidthEventsAct : Prop :=
  (∀ (l : Nat) (s : State), l < 384 → (s.lport l).peer = true → (s.lport l).linkUp = true → (s.lport l).helloSent + tkMs 100 ≤ s.now →
    exec (.peerHelloSend l) s = .next ((((s.onLport l (fun y => { y with
      helloSent := s.now, helloSeq := (y.helloSeq + 1) % 2 ^ 32, lastTx := helloFrame s l y.helloSeq })).stat l 21).stat l 23).statN l 20 64)) ∧
  (∀ (l flags : Nat) (s : State), l < 384 → (s.lport l).peer = true → (s.lport l).linkUp = true → (s.lport l).peerUp = false →
    flags.testBit 13 = true →
    exec (.peerHelloReceive l flags) s = .next ((((s.onLport l (fun x => { x with
      lastHello := some s.now, peerWidth := flags.testBit 14 })).stat l 9).onLport l (fun x => { x with peerUp := true, hist := [] })).postPort
        l Ev.peerUp [])) ∧
  (∀ (l t : Nat) (s : State), l < 384 → (s.lport l).lastHello = some t → t + tkMs 300 ≤ s.now →
    exec (.peerTimeout l) s = .next (s.peerDown l 0)) ∧
  (∀ (lane l : Nat) (s : State), lane < 384 → s.lportOfLane lane = some l → widthCapable (s.lport l) = true →
    pairsOut (faultTarget (s.lport l) (lane % 8 / 2)) ≤ 2 →
    exec (.laneFault lane) s = .next (
      (s.report (Report.of Fc.peerLaneFault Lv.lane lane (s.portStage (l / 8)) (9 * 1024 + l) 7 0 (lane % 8 / 2))).onLport l (fun y => { y with
        pairSince := SMap.insert (lane % 8 / 2) s.now y.pairSince,
        step := if faultTarget (s.lport l) (lane % 8 / 2) = y.lanesOut then none
          else some { target := faultTarget (s.lport l) (lane % 8 / 2), restoring := false } }))) ∧
  (∀ (l pair : Nat) (s : State), l < 384 → pair < 4 → widthCapable (s.lport l) = true → pairsOut (faultTarget (s.lport l) pair) ≤ 2 →
    exec (.widthChangeOrderedSet l pair) s = .next (s.onLport l (fun y => { y with
      pairSince := SMap.insert pair s.now y.pairSince,
      step := if faultTarget (s.lport l) pair = y.lanesOut then none
        else some { target := faultTarget (s.lport l) pair, restoring := false } }))) ∧
  (∀ (l : Nat) (w : WidthStep) (s : State), l < 384 → (s.lport l).step = some w →
    ∃ t, exec (.widthChange l) s = .next t ∧
      t = (s.onLport l (fun y => { y with
        lanesOut := w.target, step := none, oper := (if y.oper = 4 then 4 else if w.target = 0 then 2 else 3) })).postPort l Ev.widthChange
          (leBytes 1 (laneMap (s.lport l) l) ++ leBytes 1 (laneMap ((s.onLport l (fun y => { y with
            lanesOut := w.target, step := none, oper := (if y.oper = 4 then 4 else if w.target = 0 then 2 else 3) })).lport l) l) ++ zeros 2)) ∧
  (∀ (l pair t : Nat) (s : State), l < 384 → pair < 4 → (s.lport l).linkUp = true → (s.lport l).lanesOut.testBit pair = true →
    (s.lport l).step = none → SMap.find pair (s.lport l).pairSince = some t → t + tkS (s.setting 0x36 l) ≤ s.now →
    exec (.restoreHoldExpiry l pair) s = .next (s.onLport l (fun x => { x with
      step := some { target := setBit x.lanesOut pair false, restoring := true } })))

/-- A health window's end takes in its counts, judges DEGRADED, keeps the window as the last one and starts the next. Counts by which the uncorrected
codewords reach WITHDRAW start probation; at its end the last window decides between UP again and DOWN with cause PROBATION. A lane loop that asks for a
value inside its bounds gets it; outside it pins at the bound. A PRBS checker locks and counts from zero; losing lock zeroes both counts. -/
def Obligations.HealthAndLaneEventsAct : Prop :=
  (∀ (l cw corr sym unc : Nat) (s : State), l < 384 → (s.lport l).linkUp = true → (s.lport l).winStart + tkMs (s.setting 0x31 l) ≤ s.now →
    exec (.healthWindowEnd l cw corr sym unc) s = .next (
      ((s.fecCount l cw corr sym unc).setDegraded l ((s.fecCount l cw corr sym unc).degradedBy l ((s.fecCount l cw corr sym unc).lport l).win)).onLport
        l (fun y => { y with
          last := ((s.fecCount l cw corr sym unc).lport l).win, lastEnd := s.localNs, windows := y.windows + 1, win := HealthWin.zero,
          winStart := s.now }))) ∧
  (∀ (l cw corr sym unc : Nat) (s : State), l < 384 → (s.lport l).linkUp = true → (s.lport l).oper ≠ 4 →
    s.setting 0x34 l ≤ ((s.fecCount l cw corr sym unc).lport l).win.unc →
    (s.fecCount l cw corr sym unc).degradedBy l ((s.fecCount l cw corr sym unc).lport l).win = false →
    exec (.probationStart l cw corr sym unc) s = .next ((s.fecCount l cw corr sym unc).startProbation l)) ∧
  (∀ (l e : Nat) (s : State), l < 384 → (s.lport l).oper = 4 → (s.lport l).probEnd = some e → e ≤ s.now →
    exec (.probationEnd l) s = .next (if s.degradedBy l (s.lport l).last then s.downLport l 6
      else (s.onLport l (fun x => { x with probEnd := none, oper := (if x.lanesOut = 0 then 2 else 3) })).postPort l Ev.probationEnd (zeros 4))) ∧
  (∀ (lane field want : Nat) (s : State), lane < 384 → field < 7 → boundSetting (s.lane lane).bounds field want = want →
    exec (.serdesAdaptation lane field want) s = .next (s.onLane lane (fun x => { x with taps := setAt x.taps field want }))) ∧
  (∀ (lane field want : Nat) (s : State), lane < 384 → field < 7 → boundSetting (s.lane lane).bounds field want ≠ want →
    loopEpisodeNew (SMap.find field (s.lane lane).pinned) s.now = true →
    ∃ t, exec (.serdesAdaptation lane field want) s = .next t ∧
      t = ((s.onLane lane (fun x => { x with taps := setAt x.taps field (boundSetting (s.lane lane).bounds field want) })).onLane lane
        (fun x => { x with pinned := SMap.insert field s.now x.pinned })).post 0 Ev.loopAtLimit Lv.lane lane (portLoopPayload 1 lane field)) ∧
  (∀ (lane : Nat) (s : State), lane < 384 → (s.lane lane).chk ≠ 0 → (s.lane lane).locked = false →
    exec (.prbsLocked lane) s = .next (s.onLane lane (fun x => { x with locked := true, bits := 0, errors := 0 }))) ∧
  (∀ (lane : Nat) (s : State), lane < 384 → (s.lane lane).chk ≠ 0 →
    exec (.prbsLockLost lane) s = .next (s.onLane lane (fun x => { x with locked := false, bits := 0, errors := 0 })))

/-- A module seated in HOUSE or above begins bring-up; its reset is released when due; the pages read in low power are kept, with a ledger record of a new
module, and bring-up goes on unless it is not CMIS or asks too much power; power-up and data-path activation complete it and its port's sub-ports train; a
step that exceeds its limit, a fault flag or no answer stops it; removal takes the port's sub-ports down. A stuck bus is recovered and counted. -/
def Obligations.ModuleEventsAct : Prop :=
  (∀ (c : Nat) (s : State), c < 48 → (s.module c).state = 0 → 2 ≤ s.cmd.mode → exec (.moduleInserted c) s = .next (s.insertModule c)) ∧
  (∀ (c : Nat) (s : State), c < 48 → (s.module c).state = 1 → (s.module c).step = 2 → (s.module c).since + (s.module c).limit ≤ s.now →
    exec (.cgRstNRelease c) s = .next (s.onModule c (fun m => { m with rstLow := false, step := 3, since := s.now, limit := tkS 2 }))) ∧
  (∀ (c p identifier : Nat) (cmis : Bool) (vendor part : List Byte) (serial firmware power : Nat) (apps : List (Nat × Nat × Nat)) (up dp : Nat)
    (s s1 s2 : State), c < 48 → (s.module c).state = 1 → (s.module c).step = 3 → s.portOfCage c = some p →
    s1 = s.onModule c (fun m => { m with
      state := 2, step := 4, since := s.now, faultCause := 0,
      id := some { identifier := identifier, cmis := cmis, vendor := vendor, part := part, serial := serial, firmware := firmware,
                   power := power, apps := apps, pwrUpMs := up, dpInitMs := dp } }) →
    s2 = (if s.book.ledger.any (fun r => r.type == 4 && r.body == moduleSeen c serial) then s1 else s1.ledgerWrite 4 (moduleSeen c serial)) →
    exec (.moduleLowPower c identifier cmis vendor part serial firmware power apps up dp) s = .next
      (if cmis = false then s2.moduleFault c mfNotCmis
       else if (s.cageEntry c).maxPower < power then (s2.onModule c (fun m => { m with state := 5 })).moduleFault c mfPowerClass
       else s2.settleModule p)) ∧
  (∀ (c : Nat) (s : State), c < 48 → (s.module c).state = 3 → (s.module c).step = 6 →
    exec (.modulePowerUp c) s = .next (s.onModule c (fun m => { m with step := 7, since := s.now }))) ∧
  (∀ (c p : Nat) (s : State), c < 48 → (s.module c).state = 3 → (s.module c).step = 7 → s.portOfCage c = some p →
    ((s.onModule c (fun m => { m with state := 4, step := 8, since := s.now })).postModule p Ev.moduleReady p
      (leBytes 1 p ++ leBytes 1 c ++ zeros 2)).portAdmitted p = true →
    exec (.moduleReady c) s = .next (forEach (lportsOf p) (fun l s => if (s.lport l).oper = 0 then s.trainLport l else s)
      ((s.onModule c (fun m => { m with state := 4, step := 8, since := s.now })).postModule p Ev.moduleReady p
        (leBytes 1 p ++ leBytes 1 c ++ zeros 2)))) ∧
  (∀ (c n : Nat) (s : State), c < 48 → moduleLimit (s.module c) = some n → (s.module c).since + n ≤ s.now →
    exec (.moduleTimeout c) s = .next ((s.onModule c (fun m => { m with state := 5, lpmHigh := true, appSel := [] })).moduleFault c mfTimeout)) ∧
  (∀ (c : Nat) (alarm : Bool) (s : State), c < 48 → ((s.module c).state = 2 ∨ (s.module c).state = 3 ∨ (s.module c).state = 4) →
    exec (.moduleInterrupt c true alarm) s = .next (((s.downCage c).onModule c (fun m => { m with
      state := 5, lpmHigh := true, appSel := [] })).moduleFault c mfModuleState)) ∧
  (∀ (c serial : Nat) (temp : Int) (f a : Bool) (i : ModuleId) (s : State), c < 48 → 2 ≤ (s.module c).state → (s.module c).id = some i →
    i.serial = serial →
    exec (.modulePoll c true serial temp f a) s = .next ((s.onModule c (fun m => { m with temp := temp })).moduleFlags c f a).checkZones) ∧
  (∀ (c serial : Nat) (temp : Int) (f a : Bool) (s : State), c < 48 → 2 ≤ (s.module c).state →
    exec (.modulePoll c false serial temp f a) s = .next (((s.downCage c).onModule c (fun m => { m with
      state := 5, rstLow := true, appSel := [] })).moduleFault c mfNoResponse)) ∧
  (∀ (c : Nat) (s : State), c < 48 → (s.module c).state ≠ 0 → 2 ≤ s.cmd.mode → exec (.moduleRemoved c) s = .next (s.removeModule c)) ∧
  (∀ (bus : Nat) (s : State), bus < 8 →
    exec (.mgmtBusRecover bus) s = .next (s.onSurr (fun u => { u with busRecover := SMap.upd 0 bus (fun v => v + 1) u.busRecover })))

/-- MODULE.STATUS of a port returns its record, of 0xFF those of every port of the stage; MODULE.READ returns the bytes the module answers; MODULE.WRITE to
page 03h or 80h and above writes them; MODULE.RESET of a seated module drives its reset low and begins bring-up again. -/
def Obligations.ModuleCommandsAct : Prop :=
  Completes opModuleStatus .moduleStatus
    (fun m s => m.plen = 4 ∧ m.u8 0 ≤ 47 ∧ m.zero 1 3 = true ∧ s.ownsPort (s.stageOf m) (m.u8 0) = true)
    (fun m s => doneWith (moduleStatusRecord s (m.u8 0)) s) ∧
  Completes opModuleStatus .moduleStatus (fun m _ => m.plen = 4 ∧ m.u8 0 = 0xFF ∧ m.zero 1 3 = true)
    (fun m s => doneWith ((portsOf (s.stagePorts (s.stageOf m))).map (fun p => moduleStatusRecord s p)).flatten s) ∧
  (∀ bs : List Byte, Completes opModuleRead .moduleRead
    (fun m s => m.plen = 8 ∧ m.u8 0 ≤ 47 ∧ 1 ≤ m.u8 4 ∧ m.u8 4 ≤ 128 ∧ m.u8 3 + m.u8 4 ≤ 256 ∧ m.zero 5 3 = true ∧ (m.async && s.atLimit m) = false ∧
      s.ownsPort (s.stageOf m) (m.u8 0) = true ∧ s.reachable (m.u8 0) = true ∧ m.ext = some bs)
    (fun m s => doneWith ((bs ++ zeros 128).take (m.u8 4)) s)) ∧
  (∀ c : Nat, Completes opModuleWrite .moduleWrite
    (fun m s => m.plen = 8 + m.u8 4 ∧ m.u8 0 ≤ 47 ∧ 1 ≤ m.u8 4 ∧ m.u8 4 ≤ 128 ∧ m.u8 3 + m.u8 4 ≤ 256 ∧ m.zero 5 3 = true ∧ (m.async && s.atLimit m) = false ∧
      s.ownsPort (s.stageOf m) (m.u8 0) = true ∧ (m.u8 2 = 3 ∨ 128 ≤ m.u8 2) ∧ 128 ≤ m.u8 3 ∧ s.reachable (m.u8 0) = true ∧ m.ext.isSome = true ∧
      s.cageOf (m.u8 0) = some c)
    (fun m s => done (s.onModule c (fun x => { x with
      pages := (range 0 (m.u8 4)).foldl (fun a i =>
        SMap.put 0 (m.u8 1 * 65536 + m.u8 2 * 256 + m.u8 3 + i) (BitVec.ofNat 8 (m.u8 (8 + i))) a) x.pages })))) ∧
  (∀ c : Nat, Completes opModuleReset .moduleReset
    (fun m s => m.plen = 4 ∧ m.u8 0 ≤ 47 ∧ m.zero 1 3 = true ∧ (m.async && s.atLimit m) = false ∧ s.ownsPort (s.stageOf m) (m.u8 0) = true ∧
      s.cageOf (m.u8 0) = some c ∧ (s.module c).state ≠ 0 ∧ (s.portOfCage c).isSome = true)
    (fun _ s => done ((s.downCage c).onModule c (fun _ => { Module.absent with state := 1, step := 2, since := s.now, limit := tkMs 1 }))))

/-- A chunk of PARSE.LOAD is kept, the final one handed to validation; a complete image that is valid and fits is written and staged, and one that is
not is rejected with its status and first failing node. PARSE.DISCARD withdraws the staged graph. PARSE.READ returns a chunk of the image of a live or
staged version, PARSE.STATUS a record of each. A damaged node word is rewritten, and its stage told. -/
def Obligations.ParseGroupActs : Prop :=
  LoadCompletes opParseLoad .parseLoad 1
    (fun s k => (s.stage k).state ≠ 3 ∧ s.committing k = false ∧ (s.graphs k).full = false) ∧
  (∀ (k : Nat) (img : List Byte) (s : State), k ≤ 4 → s.firstChecking k 1 = some img → graphBad img = none →
    ((s.popChecking k 1).onGraphs k (fun b => { b with next := none })).graphFits k (graphOf img).nodes.length = true →
    exec (.graphStaged k true) s = .next (((s.popChecking k 1).onGraphs k (fun b => { b with next := none })).stageGraph k img)) ∧
  (∀ (k st node : Nat) (img : List Byte) (written : Bool) (s : State), k ≤ 4 → s.firstChecking k 1 = some img → graphBad img = some (st, node) →
    exec (.graphStaged k written) s = .next ((s.popChecking k 1).rejectGraph k st node)) ∧
  Completes opParseDiscard .parseDiscard
    (fun m s => m.plen = 0 ∧ (s.stage (s.stageOf m)).state ≠ 3 ∧ s.committing (s.stageOf m) = false)
    (fun m s => done (s.onGraphs (s.stageOf m) (fun b => { b with next := none }))) ∧
  (∀ g : Graph, Completes opParseRead .parseRead
    (fun m s => m.plen = 8 ∧ m.zero 1 3 = true ∧ (m.u8 0 ≤ 13 ∨ m.u8 0 = 15) ∧ bindOf s (s.stageOf m) (m.u8 0) (s.graphs (s.stageOf m)) = some g ∧
      m.u32 4 < g.image.length)
    (fun m s => doneWith (imageChunk g.image (m.u32 4)) s)) ∧
  Completes opParseStatus .parseStatus (fun m _ => m.plen = 0)
    (fun m s => doneWith (leBytes 1 (servings s (s.stageOf m) (s.graphs (s.stageOf m))).length ++ zeros 1 ++
      leBytes 2 (((s.stageTiles (s.stageOf m)).map s.nodesFree).foldl min 1024) ++
      ((servings s (s.stageOf m) (s.graphs (s.stageOf m))).map (fun e => graphRecord e.1 e.2)).flatten) s) ∧
  (∀ (t w : Nat) (s s1 : State), t < 8 → w < 1024 → s.tab.nodeBad.contains (t * 1024 + w) = true →
    s1 = s.onTab (fun a => { a with
      nodeBad := a.nodeBad.filter (fun x => x != t * 1024 + w), nodeTile := SMap.erase (t * 1024 + w) a.nodeTile }) →
    exec (.graphNodeRepair t w) s = .next ((s.nodeOwner t w).elim s1
      (fun o => s1.post o.1 Ev.graphNodeRepair Lv.tile t (leBytes 1 t ++ zeros 1 ++ leBytes 2 o.2))))

/-- PATTERN.LOAD, PATTERN.DISCARD, PATTERN.READ and PATTERN.STATUS as for graphs; a set image that fails its checks is rejected with its status.
PATTERN.BOUNDS sets FLOOR and CAP and retunes the dies; a throttle reading moves the die's step, notes its temperature and pins at a bound; a withdrawn
engine returns. -/
def Obligations.PatternGroupActs : Prop :=
  LoadCompletes opPatternLoad .patternLoad 2
    (fun s k => (s.stage k).state ≠ 3 ∧ s.committing k = false ∧ (s.sets k).full = false) ∧
  (∀ (k : Nat) (img : List Byte) (s : State), k ≤ 4 → s.firstChecking k 2 = some img → patternBad img = none →
    (s.stageTiles k).any (fun t => decide
      (((s.popChecking k 2).onSets k (fun b => { b with next := none })).statesFree t < (patSetOf img).states)) = false →
    exec (.patternStaged k true) s = .next (((s.popChecking k 2).onSets k (fun b => { b with next := none })).stageSet k img)) ∧
  (∀ (k st : Nat) (img : List Byte) (written : Bool) (s : State), k ≤ 4 → s.firstChecking k 2 = some img → patternBad img = some st →
    exec (.patternStaged k written) s = .next ((s.popChecking k 2).rejectSet k st)) ∧
  Completes opPatternDiscard .patternDiscard
    (fun m s => m.plen = 0 ∧ (s.stage (s.stageOf m)).state ≠ 3 ∧ s.committing (s.stageOf m) = false)
    (fun m s => done (s.onSets (s.stageOf m) (fun b => { b with next := none }))) ∧
  (∀ x : PatSet, Completes opPatternRead .patternRead
    (fun m s => m.plen = 8 ∧ m.zero 1 3 = true ∧ (m.u8 0 ≤ 13 ∨ m.u8 0 = 15) ∧ bindOf s (s.stageOf m) (m.u8 0) (s.sets (s.stageOf m)) = some x ∧
      m.u32 4 < x.image.length)
    (fun m s => doneWith (imageChunk x.image (m.u32 4)) s)) ∧
  Completes opPatternStatus .patternStatus (fun m _ => m.plen = 0)
    (fun m s => doneWith (leBytes 1 (servings s (s.stageOf m) (s.sets (s.stageOf m))).length ++ zeros 3 ++
      leBytes 4 (((s.stageTiles (s.stageOf m)).map s.statesFree).foldl min 65536) ++
      ((range 0 8).map (fun t => if (s.stageTiles (s.stageOf m)).contains t then leBytes 1 (s.stepOf (dieOfTile t)) ++ leBytes 1 (s.engines t)
        else zeros 2)).flatten ++
      ((servings s (s.stageOf m) (s.sets (s.stageOf m))).map (fun e => setRecord e.1 e.2)).flatten) s) ∧
  Completes opPatternBounds .patternBounds
    (fun m _ => m.plen = 4 ∧ m.u8 0 ≤ 3 ∧ m.u8 1 ≤ m.u8 0 ∧ m.zero 2 2 = true)
    (fun m s => done ((s.onTab (fun a => { a with floor := m.u8 0, cap := m.u8 1 })).retune 0)) ∧
  (∀ (die : Nat) (tj : Int) (s : State), die < 2 →
    exec (.throttleReading die tj) s = .next ((((s.onTab (fun a => { a with
      tempStep := SMap.put 0 die (stepAfter (s.tempStepOf die) tj) a.tempStep })).onPower
        (fun p => { p with tj := SMap.insert die tj p.tj })).retuneDie 0 die).pinThrottle die)) ∧
  (∀ (t e : Nat) (s : State), t < 8 → e < 4 → s.tab.engBad.contains (t * 4 + e) = true →
    exec (.patternRepair t e) s = .next ((s.onTab (fun a => { a with engBad := a.engBad.filter (fun x => x != t * 4 + e) })).postAll
      ((s.onTab (fun a => { a with engBad := a.engBad.filter (fun x => x != t * 4 + e) })).scanMailboxes (dieOfTile t)) Ev.patternRepair Lv.tile t
      (leBytes 1 t ++ leBytes 1 e ++ zeros 2)))

/-- PATTERN.QUERY keeps its bytes in a buffer and queues a survey in a tile of the stage (ACCEPTED); SURVEY_JOB runs a waiting job in a tile with
engines, counts its strides and, for a query, posts SURVEY_RESULT; at SURVEY_WAIT a punt's or capture's waiting job is stopped INCOMPLETE.
PATTERN.STEP returns the matches of a job of the stage from an index on. -/
def Obligations.SurveysAct : Prop :=
  (∀ (key : Nat) (x : State), Completes opPatternQuery .patternQuery
    (fun m s => 16 ≤ m.plen ∧ m.plen ≤ 16368 ∧ m.u8 0 ≤ 7 ∧ m.zero 1 15 = true ∧ (s.stageTiles (s.stageOf m)).contains (m.u8 0) = true ∧
      s.atLimit m = false ∧ s.allocBuffer (64 + s.mbOf m) (s.stageOf m) (m.payload.drop 16).length = some (key, x))
    (fun m s => accept ((x.retainBuffer key (m.payload.drop 16)).addSurvey (m.u8 0) (s.stageOf m) (s.ver (s.stageOf m)).cur
      (handleOf key (((x.buffer key).map (fun b => b.gen)).getD 0)) (some (s.mbOf m, m.tag)) (m.payload.drop 16)))) ∧
  (∀ (h : Nat) (j : Survey) (s : State), SMap.find h s.tab.surveys = some j → j.done = false → s.engines j.tile ≠ 0 →
    (allMatches j.auto j.data).length ≤ 8 →
    exec (.surveyJob h) s = .next ((((s.endSurvey j (surveyRecord j false)).bumpN j.tile j.stage 0xA9
      (if j.auto.isEmpty then 0 else surveyStrides j)).bump j.tile j.stage 0xAA).surveyResult j St.done (surveyRecord j false))) ∧
  (∀ (h : Nat) (j : Survey) (s : State), SMap.find h s.tab.surveys = some j → j.done = false → j.query = none →
    j.startedAt + tkUs (s.setting 0x0014 j.stage) ≤ s.now →
    exec (.surveyWaitExpiry h) s = .next ((s.endSurvey j (surveyRecord j true)).bump j.tile j.stage 0xAC)) ∧
  (∀ (j : Survey) (b : Buffer), Completes opPatternStep .patternStep
    (fun m s => m.plen = 8 ∧ SMap.find (m.u32 0) s.tab.surveys = some j ∧ j.stage = s.stageOf m ∧
      s.buffer (keyOfHandle (m.u32 0)) = some b ∧ b.gen = genOfHandle (m.u32 0) ∧ b.retained = true)
    (fun m s => doneWith (leBytes 1 (flagNat (decide (((allMatches j.auto j.data).drop (m.u32 4)).length ≤ 256))) ++ zeros 1 ++
      leBytes 2 (min ((allMatches j.auto j.data).drop (m.u32 4)).length 256) ++
      ((((allMatches j.auto j.data).drop (m.u32 4)).take 256).map matchBytes).flatten) s))

/-- EDIT.LOAD keeps its chunks; a valid image is written to the inactive bank, an invalid one rejected with its first failing word; EDIT.SWAP binds the
inactive bank to the next version; EDIT.READ returns words of a live version's bank, EDIT.STATUS the banks; EDIT.REGION gives a stage its range; a
damaged microword is rewritten, and the owner and its stage told. -/
def Obligations.EditGroupActs : Prop :=
  LoadCompletes opEditLoad .editLoad 3
    (fun s k => (s.stage k).state ≠ 3 ∧ s.noInactive k = false ∧ s.committing k = false) ∧
  (∀ (k bank : Nat) (img : List Byte) (s : State), k ≤ 4 → s.firstChecking k 3 = some img → editBad (s.edit k) img = none →
    (s.edit k).inactive (s.hasRetiring k) = some bank →
    exec (.editStaged k true) s = .next ((s.popChecking k 3).stageEdit k bank img)) ∧
  (∀ (k st w : Nat) (img : List Byte) (written : Bool) (s : State), k ≤ 4 → s.firstChecking k 3 = some img →
    editBad (s.edit k) img = some (st, w) →
    exec (.editStaged k written) s = .next ((s.popChecking k 3).rejectEdit k st w)) ∧
  Completes opEditSwap .editSwap
    (fun m s => m.plen = 0 ∧ (s.stage (s.stageOf m)).state ≠ 3 ∧ s.noInactive (s.stageOf m) = false ∧ s.committing (s.stageOf m) = false)
    (fun m s => done ((s.onEdit (s.stageOf m) (fun e => { e with swap := true })).setBatch (s.stageOf m))) ∧
  Completes opEditRead .editRead
    (fun m s => m.plen = 8 ∧ m.zero 1 1 = true ∧ m.zero 6 2 = true ∧ m.u8 0 ≤ 13 ∧ 1 ≤ m.u16 4 ∧ m.u16 4 ≤ 1022 ∧
      (m.u16 2 + m.u16 4 ≤ 6144 ∨ ((s.edit (s.stageOf m)).base ≤ m.u16 2 ∧
        m.u16 2 + m.u16 4 ≤ (s.edit (s.stageOf m)).base + (s.edit (s.stageOf m)).count)) ∧
      ((s.ver (s.stageOf m)).cur = m.u8 0 ∨ (s.ver (s.stageOf m)).retiring = some (m.u8 0)))
    (fun m s => doneWith ((range (m.u16 2) (m.u16 4)).map (fun a =>
      leBytes 16 (s.uwordAt ((s.edit (s.stageOf m)).bankOf (s.isOld (s.stageOf m) (m.u8 0))) a))).flatten s) ∧
  (∀ r : Nat, Completes opEditStatus .editStatus (fun m s => m.plen = 0 ∧ (s.ver (s.stageOf m)).retiring = some r)
    (fun m s => doneWith (leBytes 1 (s.ver (s.stageOf m)).cur ++ leBytes 1 (s.edit (s.stageOf m)).curBank ++ leBytes 1 r ++
      leBytes 1 ((s.edit (s.stageOf m)).bankOf true) ++ leBytes 1 (flagNat (s.edit (s.stageOf m)).swap) ++ zeros 1 ++
      leBytes 2 (s.edit (s.stageOf m)).base ++ leBytes 2 (s.edit (s.stageOf m)).count ++
      ((s.edit (s.stageOf m)).bankA.label ++ leBytes 4 (s.edit (s.stageOf m)).bankA.crc) ++
      ((s.edit (s.stageOf m)).bankB.label ++ leBytes 4 (s.edit (s.stageOf m)).bankB.crc)) s)) ∧
  Completes opEditStatus .editStatus (fun m s => m.plen = 0 ∧ (s.ver (s.stageOf m)).retiring = none)
    (fun m s => doneWith (leBytes 1 (s.ver (s.stageOf m)).cur ++ leBytes 1 (s.edit (s.stageOf m)).curBank ++ leBytes 1 0xE ++
      leBytes 1 0xFF ++ leBytes 1 (flagNat (s.edit (s.stageOf m)).swap) ++ zeros 1 ++
      leBytes 2 (s.edit (s.stageOf m)).base ++ leBytes 2 (s.edit (s.stageOf m)).count ++
      ((s.edit (s.stageOf m)).bankA.label ++ leBytes 4 (s.edit (s.stageOf m)).bankA.crc) ++
      ((s.edit (s.stageOf m)).bankB.label ++ leBytes 4 (s.edit (s.stageOf m)).bankB.crc)) s) ∧
  Completes opEditRegion .editRegion
    (fun m s => m.plen = 8 ∧ m.u8 0 ≤ 4 ∧ s.stageLive (m.u8 0) = true ∧ m.zero 1 1 = true ∧ m.zero 6 2 = true ∧ m.u16 2 % 64 = 0 ∧
      m.u16 4 % 64 = 0 ∧ 6144 ≤ m.u16 2 ∧ m.u16 2 + m.u16 4 ≤ 8192 ∧
      s.liveStages.any (fun j => j != m.u8 0 && decide (0 < m.u16 4) && decide (0 < (s.edit j).count) &&
        decide (m.u16 2 < (s.edit j).base + (s.edit j).count) && decide ((s.edit j).base < m.u16 2 + m.u16 4)) = false ∧
      ((range (s.edit (m.u8 0)).base (s.edit (m.u8 0)).count).filter (fun a => decide (a < m.u16 2) || decide (m.u16 2 + m.u16 4 ≤ a))).any
        (fun a => s.uwordAt 0 a != 0 || s.uwordAt 1 a != 0) = false)
    (fun m s => done (s.onEdit (m.u8 0) (fun e => { e with base := m.u16 2, count := m.u16 4 }))) ∧
  (∀ (t bank w : Nat) (s : State), t < 8 → bank < 2 → w < 8192 → s.tab.ucodeBad.contains ((t * 2 + bank) * 8192 + w) = true →
    exec (.editRepair t bank w) s = .next ((s.onTab (fun a => { a with
      ucodeBad := a.ucodeBad.filter (fun x => x != (t * 2 + bank) * 8192 + w) })).postAll
        (0 :: (if w < 6144 then [] else ((s.uwordStage w).filter (fun k => k != 0)).toList)) Ev.editRepair Lv.tile t
        (leBytes 1 t ++ leBytes 1 bank ++ leBytes 2 w)))

/-- TABLE.CREATE with paddocks free in every tile of the stage is ACCEPTED with the new instance staged, and INSTANCE_READY completes it.
TABLE.PROFILE stores its payload in the next version's bank, TABLE.DOMAIN its records. The prefix and entry commands stage every record or none,
and are held while a version is retiring. -/
def Obligations.TableStagingActs : Prop :=
  Completes opTableCreate .tableCreate
    (fun m s => m.plen = 16 ∧ paddocksOk (m.u8 0) (m.u8 2) = true ∧ m.u8 1 = 0 ∧ m.zero 3 1 = true ∧ m.zero 12 4 = true ∧ s.atLimit m = false ∧
      StagingOpen s (s.stageOf m) ∧ (s.stageTiles (s.stageOf m)).any (fun t => decide (s.padsFree (s.stageOf m) t < m.u8 2)) = false ∧
      (s.insts (s.stageOf m) (m.u8 0)).next = none)
    (fun m s => accept ((s.onInsts (s.stageOf m) (m.u8 0) (fun b => { b with
      next := some (s.newInst (s.stageOf m) (m.u8 0) false (m.u8 2) (m.u32 4) (m.u32 8)) })).setBatch (s.stageOf m))) ∧
  (∀ (k kind : Nat) (i : Inst) (s : State), k ≤ 4 → kind < 16 → (s.insts k kind).next = some i → i.ready = false →
    exec (.instanceReady k kind) s = .next ((((s.zeroInst i).fillInst k i).onInsts k kind (fun b => { b with
      next := b.next.map (fun x => { x with ready := true }) })).finishFor k
        (fun o => o.opcode == 0x0701 && fieldLE o.payload 0 1 == kind) Ev.instanceReady Lv.device k St.done
        (leBytes 1 kind ++ leBytes 1 i.p ++ zeros 2))) ∧
  Completes opTableProfile .tableProfile
    (fun m s => m.plen = 920 ∧ profileBad m s (s.stageOf m) = false ∧ BankOpen s (s.stageOf m))
    (fun m s => done (s.stageCfg (s.stageOf m) (fun c => { c with profile := m.payload }))) ∧
  Completes opTableDomain .tableDomain
    (fun m s => m.plen = 4 + 4 * m.u16 0 + 8 * m.u8 2 ∧ m.u16 0 ≤ 4096 ∧ m.u8 2 ≤ 32 ∧ m.zero 3 1 = true ∧
      domainBad m s (s.stageOf m) = none ∧ BankOpen s (s.stageOf m))
    (fun m s => done (s.stageCfg (s.stageOf m) (applyDomain m))) ∧
  Completes opTablePfxAdd .tablePfxAdd
    (fun m s => 28 ≤ m.plen ∧ m.plen ≤ 512 * 28 ∧ m.plen % 28 = 0 ∧ (m.records 0 28).isEmpty = false ∧ (m.records 0 28).length ≤ 512 ∧
      firstBad (pfxBad (s.nextCfg (s.stageOf m)) true) (m.records 0 28) 0 = none ∧ BankOpen s (s.stageOf m))
    (fun m s => stagedAnswer (stagePfx (s.stageOf m) true) (m.records 0 28) s) ∧
  Completes opTablePfxDelete .tablePfxDelete
    (fun m s => 28 ≤ m.plen ∧ m.plen ≤ 512 * 28 ∧ m.plen % 28 = 0 ∧ (m.records 0 28).isEmpty = false ∧ (m.records 0 28).length ≤ 512 ∧
      firstBad (pfxBad (s.nextCfg (s.stageOf m)) false) (m.records 0 28) 0 = none ∧ BankOpen s (s.stageOf m))
    (fun m s => stagedAnswer (stagePfx (s.stageOf m) false) (m.records 0 28) s) ∧
  (∀ rs : List EntRec, Completes opTableEntryWrite .tableEntryWrite
    (fun m s => entRecs m.payload 513 0 = some rs ∧ rs ≠ [] ∧ rs.length ≤ 512 ∧ firstBad (entBad s (s.stageOf m) false) rs 0 = none ∧
      firstBad (entForeign s (s.stageOf m)) rs 0 = none ∧ BankOpen s (s.stageOf m))
    (fun m s => stagedAnswer (stageEntry (s.stageOf m)) rs s)) ∧
  (∀ rs : List EntRec, Completes opTableEntryDelete .tableEntryDelete
    (fun m s => entRecs m.payload 513 0 = some rs ∧ rs ≠ [] ∧ rs.length ≤ 512 ∧ firstBad (entBad s (s.stageOf m) true) rs 0 = none ∧
      firstBad (entForeign s (s.stageOf m)) rs 0 = none ∧ BankOpen s (s.stageOf m))
    (fun m s => stagedAnswer (unstageEntry (s.stageOf m)) rs s))

/-- TABLE.READ by key returns the records of the key that a tile of the stage holds, by walk the next records; TABLE.FLUSH_LEARNED of HOW 0
removes every learned entry of the stage and returns their number; TABLE.ABORT discards the staged batch, and is held while a version is retiring;
TABLE.VSTATUS returns the stage's version record. -/
def Obligations.TableReadsAndAborts : Prop :=
  Completes opTableRead .tableRead
    (fun m s => m.plen = 40 ∧ (1 ≤ m.u8 0 ∧ m.u8 0 ≤ 5 ∨ 9 ≤ m.u8 0 ∧ m.u8 0 ≤ 12) ∧ m.u8 1 ≤ 7 ∧ m.u8 2 = 0 ∧ m.u8 3 ≤ 15 ∧ m.zero 10 2 = true ∧
      m.u32 4 = 0 ∧ m.u16 8 = 0 ∧ readKeyOk (m.u8 0) m = true ∧ (s.stageTiles (s.stageOf m)).contains (m.u8 1) = true ∧
      (s.readView (s.stageOf m) (m.u8 0) (m.u8 3)).live = true ∧
      s.readByKey (s.stageOf m) (m.u8 0) (m.u8 1) (m.u8 3) m (s.readView (s.stageOf m) (m.u8 0) (m.u8 3)) ≠ [])
    (fun m s => doneWith (readAnswer 0xFFFFFFFF 0
      (s.readByKey (s.stageOf m) (m.u8 0) (m.u8 1) (m.u8 3) m (s.readView (s.stageOf m) (m.u8 0) (m.u8 3)))) s) ∧
  (∀ i : Inst, Completes opTableRead .tableRead
    (fun m s => m.plen = 40 ∧ (1 ≤ m.u8 0 ∧ m.u8 0 ≤ 5 ∨ 9 ≤ m.u8 0 ∧ m.u8 0 ≤ 12) ∧ m.u8 1 ≤ 7 ∧ m.u8 2 = 1 ∧ m.u8 3 ≤ 15 ∧ m.zero 10 2 = true ∧
      1 ≤ m.u16 8 ∧ m.u16 8 ≤ 256 ∧ m.zero 12 28 = true ∧ (s.stageTiles (s.stageOf m)).contains (m.u8 1) = true ∧
      (s.readView (s.stageOf m) (m.u8 0) (m.u8 3)).live = true ∧ (s.readView (s.stageOf m) (m.u8 0) (m.u8 3)).inst = some i)
    (fun m s => doneWith ((s.walkMoved (s.stageOf m) (m.u8 0) (m.u8 1) (m.u32 4)).2.walkAnswer (s.stageOf m) (m.u8 0) (m.u8 1) (m.u32 4) (m.u16 8) i
      (s.readView (s.stageOf m) (m.u8 0) (m.u8 3)).parity (s.walkMoved (s.stageOf m) (m.u8 0) (m.u8 1) (m.u32 4)).1)
      (s.walkMoved (s.stageOf m) (m.u8 0) (m.u8 1) (m.u32 4)).2)) ∧
  Completes opTableFlushLearned .tableFlushLearned
    (fun m s => m.plen = 8 ∧ m.u8 0 = 0 ∧ m.zero 1 1 = true ∧ m.u16 4 ≤ 4095 ∧ m.zero 6 2 = true ∧ (m.async && s.atLimit m) = false)
    (fun m s => doneWith (leBytes 8 (s.flushLearned (s.stageOf m) 0 (m.u16 2) (m.u16 4 % 4096)).1)
      (s.flushLearned (s.stageOf m) 0 (m.u16 2) (m.u16 4 % 4096)).2) ∧
  Completes opTableAbort .tableAbort (fun m s => m.plen = 0 ∧ BankOpen s (s.stageOf m)) (fun m s => done (s.abortBatch (s.stageOf m))) ∧
  Completes opTableAbort .tableAbort (fun m s => m.plen = 0 ∧ StagingOpen s (s.stageOf m) ∧ s.hasRetiring (s.stageOf m) = true)
    (fun m s => hold (s.holdCommand 0x070C (s.stageOf m) 1 m)) ∧
  Completes opTableVstatus .tableVstatus (fun m _ => m.plen = 0) (fun m s => doneWith (versionRecord s (s.stageOf m)) s)

/-- RULE.BLOCK gives an empty block to a stage; RULE.LAYOUT, RULE.RANGE, RULE.PRESELECT and RULE.DEFAULT write the next version's bank; RULE.ADD
inserts a rule of a new id where the block has room, RULE.DELETE clears the next-version bit of the rule of the id, RULE.READ returns the entries of
its positions. A block whose used hole is made good is RESPACED. -/
def Obligations.RuleGroupActs : Prop :=
  Completes opRuleBlock .ruleBlock
    (fun m s => m.plen = 8 ∧ m.u8 0 ≤ 31 ∧ m.u8 1 ≤ 4 ∧ s.stageLive (m.u8 1) = true ∧ m.u8 2 ≤ 15 ∧ 2 ≤ m.u8 3 ∧ m.u8 3 ≤ 6 ∧ m.zero 4 4 = true ∧
      (s.block (m.u8 0)).rules = [] ∧ (s.banksInUse (s.block (m.u8 0)).stage).any (fun c => c.presel.any (fun e =>
        e.2.getD 2 63 == m.u8 0 || e.2.getD 3 63 == m.u8 0)) = false)
    (fun m s => done ((s.cleanBlock (m.u8 0)).onBlock (m.u8 0) (fun _ =>
      { stage := m.u8 1, layout := m.u8 2, holeLog := m.u8 3, rules := [], exhausted := false }))) ∧
  Completes opRuleLayout .ruleLayout
    (fun m s => m.plen = 16 ∧ m.u8 0 ≤ 15 ∧ ((range 1 15).map m.u8).all laneSourceOk = true ∧ BankOpen s (s.stageOf m))
    (fun m s => done (s.stageCfg (s.stageOf m) (fun c => { c with layouts := SMap.insert (m.u8 0) ((range 1 15).map m.u8) c.layouts }))) ∧
  Completes opRuleRange .ruleRange
    (fun m s => m.plen = 8 ∧ m.u8 0 ≤ 63 ∧ rangeSourceOk (m.u8 1) = true ∧ m.u8 2 ≤ 16 ∧ m.u8 3 ≤ 1 ∧
      s.othersHold (s.stageOf m) (fun b => SMap.has (m.u8 0) b.ranges) = false ∧ BankOpen s (s.stageOf m))
    (fun m s => done (s.stageCfg (s.stageOf m) (fun x => { x with
      ranges := SMap.insert (m.u8 0) [m.u8 1, m.u8 2, m.u16 4, m.u16 6, m.u8 3] x.ranges }))) ∧
  (∀ v w : Nat, Completes opRulePreselect .rulePreselect
    (fun m s => m.plen = 28 ∧ m.u8 0 ≤ 63 ∧ m.u8 3 ≤ 1 ∧ [m.u8 1, m.u8 2].any (fun b => decide (31 < b) && b != 0x3F) = false ∧
      v = beNat (sliceB m.payload 4 12) ∧ w = beNat (sliceB m.payload 16 12) ∧ v &&& w = v ∧ bitsOf v 0 5 = 0 ∧ bitsOf w 0 5 = 0 ∧
      s.othersHold (s.stageOf m) (fun b => SMap.has (m.u8 0) b.presel) = false ∧
      [m.u8 1, m.u8 2].any (fun b => b != 0x3F && (s.block b).stage != s.stageOf m) = false ∧ BankOpen s (s.stageOf m))
    (fun m s => done (s.stageCfg (s.stageOf m) (fun x => { x with
      presel := if m.u8 3 = 1 then SMap.insert (m.u8 0) [v, w, m.u8 1, m.u8 2] x.presel else SMap.erase (m.u8 0) x.presel })))) ∧
  Completes opRuleDefault .ruleDefault
    (fun m s => m.plen = 32 ∧ defaultOk (fieldLE m.payload 0 16) = true ∧ defaultOk (fieldLE m.payload 16 16) = true ∧ BankOpen s (s.stageOf m))
    (fun m s => done (s.stageCfg (s.stageOf m) (fun x => { x with
      dflt := fieldLE m.payload 0 16, dfltPx := fieldLE m.payload 16 16 }))) ∧
  (∀ x : Block, Completes opRuleAdd .ruleAdd
    (fun m s => m.plen = 148 ∧ m.u8 0 ≤ 31 ∧ m.zero 1 3 = true ∧
      (s.ruleOf (s.stageOf m) m).value &&& (s.ruleOf (s.stageOf m) m).mask = (s.ruleOf (s.stageOf m) m).value ∧
      actionOk (s.ruleOf (s.stageOf m) m).action = true ∧ (s.block (m.u8 0)).stage = s.stageOf m ∧
      (actPolEn (s.ruleOf (s.stageOf m) m).action = true → s.ownsPolicer (s.stageOf m) (actPolicer (s.ruleOf (s.stageOf m) m).action) = true) ∧
      BankOpen s (s.stageOf m) ∧ s.findRule (s.stageOf m) (s.ruleOf (s.stageOf m) m).ruleId (s.nextMask (s.stageOf m)) = none ∧
      (s.block (m.u8 0)).insertRule (s.ruleOf (s.stageOf m) m) = some x)
    (fun m s => done (((((s.onBlock (m.u8 0) (fun _ => x)).cleanBlock (m.u8 0)).onTab (fun t => { t with
      arrivals := t.arrivals + 1 })).setBatch (s.stageOf m)).checkHoles (m.u8 0)))) ∧
  (∀ (b p : Nat) (r : Rule), Completes opRuleDelete .ruleDelete
    (fun m s => m.plen = 4 ∧ BankOpen s (s.stageOf m) ∧ s.findRule (s.stageOf m) (m.u32 0) (s.nextMask (s.stageOf m)) = some (b, p, r))
    (fun m s => done (s.dropRule (s.stageOf m) b p r))) ∧
  Completes opRuleRead .ruleRead
    (fun m s => m.plen = 8 ∧ m.u8 0 ≤ 31 ∧ m.zero 1 3 = true ∧ 1 ≤ m.u16 6 ∧ m.u16 6 ≤ 100 ∧ m.u16 4 + m.u16 6 ≤ 1024 ∧
      (s.block (m.u8 0)).stage = s.stageOf m)
    (fun m s => doneWith (leBytes 4 ((s.block (m.u8 0)).rules.filter (fun e =>
        decide (m.u16 4 ≤ e.1) && decide (e.1 < m.u16 4 + m.u16 6))).length ++
      (((s.block (m.u8 0)).rules.filter (fun e => decide (m.u16 4 ≤ e.1) && decide (e.1 < m.u16 4 + m.u16 6))).map (fun e =>
        ruleRecord e.1 e.2)).flatten) s) ∧
  (∀ (b : Nat) (s : State), b < 32 → (s.block b).rules.length ≤ (s.block b).capacity → (s.block b).holeUsed = true →
    exec (.respaced b) s = .next (((s.onBlock b (fun x => x.respaced)).cleanBlock b).post (s.block b).stage Ev.respaced Lv.device
      (s.block b).stage (leBytes 1 b ++ zeros 3)))

/-- TABLE.COMMIT of an idle stage is ACCEPTED with the version that will serve and its flip time; arming waits for the batch and sets the time; at the
time the stage flips and COMMIT_DONE is posted; the retiring version drains to zero, settles and is retired, and the held writes proceed.
TABLE.COMMIT_CANCEL withdraws a commit armed for more than 2 µs ahead. The sweep compares a live stage with its backing store. -/
def Obligations.CommitsAct : Prop :=
  Completes opTableCommit .tableCommit
    (fun m s => m.plen = 16 ∧ m.zero 6 2 = true ∧ m.u32 8 < 1000000000 ∧ m.u8 12 ≤ 1 ∧ m.zero 13 3 = true ∧
      (commitAsap m = true ∨ commitTime m ≤ s.netLinear + 60000000000) ∧ s.atLimit m = false ∧ (s.stage (s.stageOf m)).state ≠ 3 ∧
      (s.ver (s.stageOf m)).state = 0)
    (fun m s => {
      state := s.onVer (s.stageOf m) (fun v => { v with
        state := 1, flipTime := commitTime m, asap := commitAsap m, willLate := false, mb := s.mbOf m }),
      status := St.accepted, payload := leBytes 1 (nextVersion (s.ver (s.stageOf m)).cur), held := false }) ∧
  (∀ (k : Nat) (s : State), k ≤ 4 → (s.ver k).state = 1 → s.batchReady k = true →
    exec (.commitArming k false) s = .next (s.onVer k (fun v => { v with
      state := 2, willLate := decide ((s.ver k).flipTime < s.netLinear + 2000) && !v.asap,
      flipTime := (if v.asap || decide ((s.ver k).flipTime < s.netLinear + 2000) then s.netLinear + 2000 else v.flipTime) }))) ∧
  (∀ (k : Nat) (s : State), k ≤ 4 → (s.ver k).state = 1 → s.batchReady k = true →
    exec (.commitArming k true) s = .next ((s.onVer k (fun v => { v with state := 0 })).finish (s.ver k).mb 0x070A Ev.commitFailed Lv.device k
      St.hwFault (leBytes 2 St.hwFault ++ zeros 2))) ∧
  (∀ (k : Nat) (s : State), k ≤ 4 → (s.ver k).state = 2 → (s.ver k).flipTime ≤ s.netLinear →
    exec (.versionFlip k) s = .next ((s.flip k).finish (s.ver k).mb 0x070A Ev.commitDone Lv.device k St.done
      (commitDonePayload (nextVersion (s.ver k).cur) (s.ver k).willLate s.time.sec s.time.ns))) ∧
  Completes opTableCommitCancel .tableCommitCancel
    (fun m s => m.plen = 0 ∧ (s.stage (s.stageOf m)).state ≠ 3 ∧
      ((s.ver (s.stageOf m)).state = 1 ∨ (s.ver (s.stageOf m)).state = 2 ∧ s.netLinear + 2000 < (s.ver (s.stageOf m)).flipTime))
    (fun m s => done (s.cancelCommit (s.stageOf m) 1)) ∧
  (∀ (k r : Nat) (s : State), k ≤ 4 → (s.ver k).state = 3 → (s.ver k).retiring = some r → s.drained k r = true →
    exec (.drainComplete k) s = .next (s.beginSettle k (s.ver k).expired)) ∧
  (∀ (k r : Nat) (s : State), k ≤ 4 → (s.ver k).state = 4 → (s.ver k).retiring = some r →
    exec (.versionRetired k) s = .next (((s.retire k).post k Ev.versionRetired Lv.device k
      (leBytes 1 r ++ zeros 3 ++ leBytes 4 ((s.retire k).ver k).drainNs ++ leBytes 4 ((s.retire k).ver k).settleNs)).releaseHeld k)) ∧
  (∀ (k : Nat) (s : State), k ≤ 4 → s.stageLive k = true → exec (.sweepPass k) s = .next (s.sweepStage k))

/-- A provision whose frame's verdict is known is judged in every instance of the stage; new static stations lose their learned entries; a second with
more firm moves than MOVE_LIMIT raises MOVE_STORM once; a firm learned entry loses HIT at a visit, or is removed where it had none; a scrub corrects,
removes or poisons; a poisoned word is repaired, and one whose rewrite fails twice withdraws its paddock. -/
def Obligations.TileTableEventsAct : Prop :=
  (∀ (t : Nat) (p : Prov) (s : State), t < 8 → s.tab.provs.find? (fun p => p.tile == t && p.verdict.isSome) = some p →
    exec (.provisionVerdict t) s = .next ((s.insts p.stage 1).all.foldl (fun s i => s.judgeProvIn i p (p.verdict.getD false))
      (s.onTab (fun a => { a with provs := a.provs.erase p })))) ∧
  (∀ (k : Nat) (s : State), k ≤ 4 →
    exec (.staticLearnedRemoval k) s = .next ((((s.stageTiles k).map (fun t => (s.learnedWords t k (s.insts k 1).all).filter (fun e =>
      (s.tab.staticNew.filter (fun x => x.1 == k)).any (fun x => x.2.1 == bitsOf e.2 108 12 && x.2.2 == bitsOf e.2 60 48)))).flatten.foldl
        (fun s e => s.putWord e.1 0) s).onTab (fun a => { a with staticNew := a.staticNew.filter (fun x => x.1 != k) }))) ∧
  (∀ (t k n : Nat) (s : State), t < 8 → k ≤ 4 → SMap.get (0, 0) (t * 5 + k) s.tab.moveRate = (s.now / tkS 1, n) → s.setting 0x0011 k < n →
    SMap.find (512 + (t * 5 + k)) s.tab.onsets = none →
    exec (.moveStorm t k) s = .next ((s.onTab (fun a => { a with onsets := SMap.insert (512 + (t * 5 + k)) s.now a.onsets })).post k Ev.moveStorm
      Lv.tile t (leBytes 1 t ++ zeros 3 ++ leBytes 4 n))) ∧
  (∀ (t pad line word : Nat) (hit : Bool) (s : State), placeOk t pad line word = true →
    s.tab.insts.any (fun e => e.1 % 16 == 1 && e.2.all.any (fun i => (SMap.get [] t i.pads).contains pad)) = true →
    entVmask 1 (s.word (wordKey t pad line word)) ≠ 0 → entLearned 1 (s.word (wordKey t pad line word)) = true →
    l2Prov (s.word (wordKey t pad line word)) = false →
    exec (.ageingVisit t pad line word hit) s = .next (
      if l2Hit (s.word (wordKey t pad line word)) then s.putWord (wordKey t pad line word) (setBit (s.word (wordKey t pad line word)) 121 hit)
      else if hit then (s.putWord (wordKey t pad line word) (setBit (s.word (wordKey t pad line word)) 121 true)).bump t
        (entStage 1 (s.word (wordKey t pad line word))) 0x3A
      else (s.putWord (wordKey t pad line word) 0).bump t (entStage 1 (s.word (wordKey t pad line word))) 0x39)) ∧
  (∀ (t pad line word k kind addr w : Nat) (s : State), placeOk t pad line word = true → k = (s.padStage t pad).getD 0 →
    kind = ((s.padInst t pad).map (fun x => x.2.kind)).getD 0 → addr = (pad * 8192 + line) * 4 + word → w = wordKey t pad line word →
    exec (.paddockScrub t pad line word 0) s = .next s ∧
    exec (.paddockScrub t pad line word 1) s = .next ((s.bump t k 0x31).report (Report.of Fc.sramCe Lv.tile t k (4 * 1024 + t) 4 addr 0)) ∧
    exec (.paddockScrub t pad line word 2) s = .next (
      if kind = 1 ∧ entVmask 1 (s.word w) ≠ 0 ∧ entLearned 1 (s.word w) then
        (s.putWord w 0).report (Report.of Fc.learnedUe Lv.tile t k (4 * 1024 + t) 4 addr kind)
      else ((s.onTab (fun a => { a with poison := if a.poison.contains w then a.poison else a.poison ++ [w] }))).report
        (Report.of Fc.tableUe Lv.tile t k (4 * 1024 + t) 4 addr kind))) ∧
  (∀ (t pad line word w : Nat) (s : State), placeOk t pad line word = true → w = wordKey t pad line word → s.tab.poison.contains w = true →
    exec (.poisonRepair t pad line word true) s = .next (s.repairWord t pad line word) ∧
    exec (.poisonRepair t pad line word false) s = .next (
      if SMap.get 0 w s.tab.tries = 0 then s.onTab (fun a => { a with tries := SMap.insert w 1 a.tries })
      else (s.onTab (fun a => { a with
          tries := SMap.erase w a.tries,
          withdrawn := if a.withdrawn.contains (t * 96 + pad) then a.withdrawn else a.withdrawn ++ [t * 96 + pad] })).post
        ((s.padStage t pad).getD 0) Ev.tableRepairFail Lv.tile t (leBytes 1 t ++ leBytes 1 pad ++ leBytes 2 line)))

/-- A frame of a link that is up, neither a pause nor a hello: too short, it is counted 6; too long, 7; otherwise it is taken. A tile's sources place
waiting packets in its pipes in their rotation. An XOFF is refreshed at half its quanta while its condition holds, and XON is sent once when it has
cleared. A pause stops a class for its quanta; it expires; a class paused for PAUSE_WD enters watchdog discard. -/
def Obligations.ArrivalsAndPausesAct : Prop :=
  (∀ (l : Nat) (w : List Byte) (e full high : Bool) (s : State), l < 384 → (s.lport l).linkUp = true → (s.lport l).peer = false → isPause w = false →
    exec (.frameReceive l w e full high) s = .next (if w.length < 64 then s.stat l 6
      else if cfgMaxFrame (s.lport l).conf < w.length then s.stat l 7
      else s.takeFrame l w w none (e || !fcsGood w) full high)) ∧
  (∀ (t held : Nat) (s : State), t < 8 →
    exec (.pipePlacement t held) s = .next ((forEach ((range 0 50).map (fun j => (s.rotStart t + j) % 50))
      (fun src s => s.placeSource t held src 16) s).settleFifo t)) ∧
  (∀ (l c at_ : Nat) (s : State), l < 384 → c ≤ 8 → SMap.find (xoffKey l c) s.sw.xoff = some at_ → s.xoffHolds l c = true →
    at_ + s.quantaTicks l (s.setting 0x38 l) / 2 ≤ s.now →
    exec (.xoffRefresh l c) s = .next ((s.stat l (if c = 8 then 25 else 40 + c)).onSw (fun w => { w with
      xoff := SMap.insert (xoffKey l c) s.now w.xoff }))) ∧
  (∀ (l c : Nat) (s : State), l < 384 → c < 8 → SMap.has (xoffKey l c) s.sw.xoff = true → s.xoffHolds l c = false →
    exec (.xonSend l c) s = .next (s.onSw (fun w => { w with xoff := SMap.erase (xoffKey l c) w.xoff }))) ∧
  (∀ (l q : Nat) (s : State), l < 384 → (s.lport l).linkUp = true → cfgFc (s.lport l).conf = 1 →
    exec (.pauseFrameReceive l false 0 [q]) s = .next (forEach (range 0 8) (fun c s => s.pauseClass l c (q % 65536)) (s.stat l 8))) ∧
  (∀ (l c : Nat) (p : Pause) (s : State), l < 384 → c < 8 → s.pauseOf l c = some p → p.until_ ≤ s.now →
    exec (.pauseExpiry l c) s = .next (s.endPause l c)) ∧
  (∀ (l c : Nat) (p : Pause) (s : State), l < 384 → c < 8 → s.pauseOf l c = some p → p.watchdog = false → p.since + tkMs (s.eg l).pauseWd ≤ s.now →
    exec (.pauseWatchdog l c) s = .next ((forEach (s.pktsWhere (fun q => q.ctx.exit == l && q.ctx.tc == c && !q.mcast)) (fun id s => s.watchdogPkt id)
      (s.setPause l c { p with watchdog := true })).post (s.portStage (l / 8)) Ev.pauseWatchdog Lv.port l (watchdogPayload l c 1)))

/-- A placed packet takes its stage's version and walks its graph (without one: exception 0xF7); a wait for a paddock port delays it; a parsed packet is
looked up; a queued scan at the front of its tile's queue runs, one that is late falls back; a looked-up packet is matched and its action applied. -/
def Obligations.PipeLookupsAct : Prop :=
  (∀ (id ue : Nat) (q : Pkt) (s : State), s.pkt id = some q → q.phase = .placed → q.direct = false → s.graphFor (s.versioned q) = none →
    exec (.parseWalk id 0 ue) s = .next (s.parsed id (s.versioned q) (Walk.start.raise 0xF7))) ∧
  (∀ (id ue : Nat) (q : Pkt) (g : Graph) (s : State), s.pkt id = some q → q.phase = .placed → q.direct = false → s.graphFor (s.versioned q) = some g →
    (s.walkGraph (s.versioned q) g ue).res.pxCode ≠ 0xF6 →
    exec (.parseWalk id 0 ue) s = .next (s.parsed id (s.versioned q) (s.walkGraph (s.versioned q) g ue))) ∧
  (∀ (id n : Nat) (p : Pkt) (s : State), s.pkt id = some p → (p.phase = .parsed ∨ p.phase = .lookedUp ∨ p.phase = .matched) →
    exec (.paddockRead id n) s = .next ((s.bumpN p.tile p.ctx.stage 0x30 n).delayPkt id n)) ∧
  (∀ (id : Nat) (room : Bool) (q : Pkt) (s : State), s.pkt id = some q → q.phase = .parsed → q.direct = false →
    exec (.classifyAndLookUp id room) s = .next (s.lookUpPkt id room q)) ∧
  (∀ (t id start engine : Nat) (p : Pkt) (s : State), t < 8 → s.pkt id = some p → s.scanStarts t id start p = true →
    exec (.patternScan t id start engine 0) s = .next (if start ≤ 34 then (s.runScan t id p).specIssue id else s.runScan t id p)) ∧
  (∀ (id : Nat) (p : Pkt) (s : State), s.pkt id = some p → p.phase = .lookedUp → p.scan.st = 1 → 34 < p.scan.latest →
    exec (.scanFallback id) s = .next (s.scanMissed id
      (if s.stepOf (dieOfTile p.tile) = 3 then 3 else if s.stepOf (dieOfTile p.tile) = 0 then 1 else 2) p)) ∧
  (∀ (id wait : Nat) (p : Pkt) (s : State), s.pkt id = some p → p.phase = .lookedUp → p.scan.st ≠ 1 →
    exec (.orderedMatchSearch id wait) s = .next (if p.direct then s.onPkt id (fun q => { q with phase := .matched, fin := q.ctx })
      else s.matchAndAct id wait p))

/-- A speculative request that may be granted commits its lport and is charged 256 bytes, another is deferred; a matched packet is confirmed or
cancelled with its copies made; a cancel arrives and gives back what its grant took; a tail's verdict reaches the frame and its copies; a
source's packets are released in sequence, and a gap waited for 256 PCLK is closed. -/
def Obligations.PipeEndsAct : Prop :=
  (∀ (id : Nat) (p : Pkt) (s : State), s.pkt id = some p → p.spec = 1 → s.mayGrant id p = true →
    exec (.specGrant id) s = .next ((((s.onEg p.ctx.exit (fun e => { e with
      frame := some id, busyUntil := s.startAt p.ctx.exit 47 + wireUnits (s.wireBytes p.ctx.exit p.ctx.len) (s.exitGbps p.ctx.exit) })).onQueue
        p.ctx.exit p.ctx.tc (fun q => { q with dc := q.dc - 256, rot := p.tile })).bump p.tile p.ctx.stage 0x06).onPkt id (fun q => { q with
          spec := 2, busyBefore := (s.eg p.ctx.exit).busyUntil, rotBefore := (s.queue p.ctx.exit p.ctx.tc).rot,
          passed := s.othersWait p.ctx.exit p.ctx.tc }))) ∧
  (∀ (id : Nat) (p : Pkt) (s : State), s.pkt id = some p → p.spec = 1 → s.mayGrant id p = false →
    exec (.specGrant id) s = .next ((s.bump p.tile p.ctx.stage 0x07).onPkt id (fun q => { q with spec := 3 }))) ∧
  (∀ (id : Nat) (sel : Bool) (p : Pkt) (s : State), s.pkt id = some p → p.phase = .matched → p.spec ≠ 1 → p.fin.exit < 392 →
    p.verdict.isSome = true → p.knownBad 45 = false →
    exec (.confirm id sel) s = .next ((s.makeCopies id p sel).settle id p p.lk.drop)) ∧
  (∀ (x : Nat) (r : GrantBack) (s : State), x < 384 → s.sw.returns.find? (fun r => r.exit == x) = some r →
    exec (.specReturn x) s = .next ((s.onSw (fun w => { w with returns := w.returns.erase r })).takeBack r)) ∧
  (∀ (id : Nat) (p : Pkt) (s : State), s.pkt id = some p → p.awaitsTail = true →
    exec (.tailVerdict id) s = .next (forEach (s.pktsWhere (fun q => q.origin == id + 1 && q.awaitsTail)) (fun j s => s.tailOf j) (s.tailOf id))) ∧
  (∀ (t src : Nat) (s : State), t < 8 → src < 50 →
    exec (.reorderRelease t src) s = .next ((s.releaseRun t src 4096).releaseLate t src)) ∧
  (∀ (t src id : Nat) (p : Pkt) (s : State), t < 8 → src < 50 → ((s.releaseRun t src 4096).releaseLate t src).pkt id = some p →
    (((s.releaseRun t src 4096).releaseLate t src).pktsWhere (fun p => p.tile == t && p.src == src && p.phase == .done)).contains id = true →
    p.heldAt + 256 * pclkTicks ((s.releaseRun t src 4096).releaseLate t src) ≤ ((s.releaseRun t src 4096).releaseLate t src).now →
    exec (.lateRelease t src) s = .next ((((s.releaseRun t src 4096).releaseLate t src).closeGap t src 4096).releaseRun t src 4096))

/-- An idle exit grants the head of the queue it chooses. A granted frame's next cell is launched, or refused where its exit is another stage's; a
launched cell arrives. A tile takes the multicast frame whose turn it is while its hold has room. The oldest far frame of a VOQ is read back while
reserve and VOQ have room. An lport that is down is flushed; flushed cells are freed; a scrub's corrected cell is counted. -/
def Obligations.CrossbarActs : Prop :=
  (∀ (x wait c i id : Nat) (p : Pkt) (s s1 s2 : State), x < 384 → (s.eg x).frame = none → (s.lport x).linkUp = true →
    s1 = forEach (range 0 8) (fun c s => s.dropTooLong x c 64) s → s1.chooseQueue x = some (c, s2) → s2.queueHead x c = some (i, id) →
    s2.pkt id = some p → exec (.egressGrant x wait true) s = .next (s2.grantHead x c i id p wait)) ∧
  (∀ (id cell : Nat) (p : Pkt) (s : State), s.pkt id = some p → s.mayLaunch id p = true →
    exec (.cellLaunch id 0 cell) s = .next (
      if p.launched = 0 ∧ p.ctx.exit < 384 ∧ s.portStage (p.ctx.exit / 8) ≠ p.ctx.stage then s.stageRefuse id p else s.launchCell id p)) ∧
  (∀ (id : Nat) (p : Pkt) (s : State), s.pkt id = some p → p.arrived < p.launched → p.cut = false →
    exec (.cellArrival id) s = .next (s.onPkt id (fun q => { q with
      arrived := q.arrived + 1, phase := (if q.phase == .granted then .crossed else q.phase) }))) ∧
  (∀ (k wait c i id : Nat) (p : Pkt) (s : State), k < 8 →
    (range 0 8).reverse.findSome? (fun c => (s.mcHead k c).map (fun h => (c, h))) = some (c, i, id) → s.pkt id = some p →
    s.holdUsed k + p.cells ≤ 8192 → dieOfTile p.tile = dieOfTile k →
    exec (.multicastReplication k wait) s = .next (((s.bumpN k p.ctx.stage 0xD0 0).onSw (fun w => { w with
      mcRot := SMap.put 39 (k * 8 + c) i w.mcRot })).takeMulticast k id p)) ∧
  (∀ (key id : Nat) (p : Pkt) (s : State),
    (s.voq key).find? s.farAt = some id → s.pkt id = some p →
    s.spillReadable p.ctx.stage (spillBytes p.ctx.len) = true → s.reentryUsed p.tile + p.cells ≤ 4096 → s.voqReentry key + p.cells ≤ 64 →
    p.verdict.isSome = true → p.damaged = false →
    exec (.reentryRead key none) s = .next (((s.spillRead p.ctx.stage (spillBytes p.ctx.len)).onPkt id (fun q => { q with
      phase := .queued, reentered := true })).settleSpill p.ctx.stage key)) ∧
  (∀ (l : Nat) (s : State), l < 384 → (s.lport l).linkUp = false → exec (.lportFlush l) s = .next (s.flushLport l)) ∧
  (∀ (t k : Nat) (s : State), t < 8 → k ≤ 4 → exec (.flushCellsFreed t k) s = .next (s.onSw (fun w => { w with
    flushing := w.flushing.filter (fun f => !(f.1 == t && f.2.1 == k)) }))) ∧
  (∀ (t cell : Nat) (s : State), t < 8 → cell < 262144 → exec (.foldScrub t cell 0) s = .next s ∧
    exec (.foldScrub t cell 1) s = .next ((s.bump t 0 0xE4).report (Report.of Fc.sramCe Lv.tile t 0 (4 * 1024 + t) 4 cell 0)) ∧
    exec (.foldScrub t cell 2) s = .next (s.quarantine t cell 0 4))

/-- A packet whose first cell is in staging is assigned to the next free dresser, in the order of its exit; its program runs, and ends with the window
to send or with an exception; the oldest edited frame of an exit is handed off; a frame whose last byte has left is sent, counted and forgotten. -/
def Obligations.DressersAct : Prop :=
  (∀ (id wait d : Nat) (p : Pkt) (s : State), s.pkt id = some p → s.nextDresser p.egress = some d → p.phase = .crossed → 0 < p.arrived → p.cut = false →
    exec (.dresserAssign id wait) s = .next (((((s.bumpN p.egress p.ctx.stage 0xB8 wait).onSw (fun w => { w with
      lastDresser := SMap.put 95 p.egress d w.lastDresser })).arr 8 p.egress d
        (4 + (s.edit p.ctx.stage).bankOf (s.isOld p.ctx.stage p.ctx.ver)) 1).onEg p.ctx.exit (fun g => { g with
          outOrder := g.outOrder ++ [id] })).onPkt id (fun q => { q with phase := .dresser, dresser := d }))) ∧
  (∀ (id wait corr ue : Nat) (p : Pkt) (r : Dr) (s : State), s.pkt id = some p → p.phase = .dresser → p.exc = 0 → s.runProgram p ue = (r, .fin) →
    r.cycles ≤ 12 →
    exec (.editProgram id wait corr ue) s = .next ((s.countRun p wait corr r.cycles).onPkt id (fun q => { q with
      phase := .edited, out := r.win, cycles := r.cycles }))) ∧
  (∀ (id wait corr code sub : Nat) (p : Pkt) (r : Dr) (s : State), s.pkt id = some p → p.phase = .dresser → p.exc = 0 →
    s.runProgram p 0 = (r, .exc code sub) →
    exec (.editProgram id wait corr 0) s = .next ((s.countRun p wait corr r.cycles).editException id p r.cycles code sub)) ∧
  (∀ (id : Nat) (p : Pkt) (s : State), s.pkt id = some p → p.phase = .edited → (s.eg p.ctx.exit).outOrder.head? = some id →
    (p.ctx.exit < 384 ∨ p.arrived = p.cells) → exec (.handOff id) s = .next (s.handOff id p)) ∧
  (∀ (id : Nat) (room : Bool) (p : Pkt) (s : State), s.pkt id = some p → p.leaves = true →
    exec (.transmitFrame id room) s = .next (s.sendFrame id p room))

/-- QUEUE.POLICER writes its records in every tile, QUEUE.POLICER_READ returns one with its counters, QUEUE.POLICER_RANGE gives a stage its policers,
QUEUE.PRECOLOUR its colour map; QUEUE.SERVICE and QUEUE.LPORT write their records, QUEUE.STATUS returns the state of an lport's queues. A policer's
damaged word is refilled and reported; a refill period that has passed refills an lport's shapers. -/
def Obligations.QueueGroupActs : Prop :=
  Completes opQueuePolicer .queuePolicer
    (fun m s => m.plen ≠ 0 ∧ m.plen % 36 = 0 ∧ (m.records 0 36).all (fun r => decide (polIndex r ≤ 8191) && zeroAt r 2 2 && policerOk (polWord r) &&
      s.ownsPolicer (s.stageOf m) (polIndex r)) = true)
    (fun m s => done ((m.records 0 36).foldl (fun s r => s.writePolicer (polIndex r) (polWord r)) s)) ∧
  Completes opQueuePolicerRead .queuePolicerRead
    (fun m s => m.plen = 4 ∧ m.u16 0 ≤ 8191 ∧ m.zero 2 2 = true ∧ s.ownsPolicer (s.stageOf m) (m.u16 0) = true)
    (fun m s => doneWith (leBytes 32 (s.policerRec (m.u16 0)) ++
      ((range 0 8).map (fun i => leBytes 8 (sumOver (s.stageTiles (s.stageOf m)) (fun t => ((s.bucket t (m.u16 0)).counts[i]?).getD 0)))).flatten ++
      ((s.stageTiles (s.stageOf m)).map (fun t => leBytes 8 (unsignedOf (s.bucket t (m.u16 0)).c 64) ++
        leBytes 8 (unsignedOf (s.bucket t (m.u16 0)).e 64))).flatten) s) ∧
  Completes opQueuePolicerRange .queuePolicerRange
    (fun m s => m.plen = 8 ∧ m.u8 0 ≤ 4 ∧ s.stageLive (m.u8 0) = true ∧ m.zero 1 1 = true ∧ m.zero 6 2 = true ∧ m.u16 2 % 64 = 0 ∧ m.u16 4 % 64 = 0 ∧
      m.u16 2 + m.u16 4 ≤ 8192 ∧
      ((range (s.policersOf (m.u8 0)).1 (s.policersOf (m.u8 0)).2).filter (fun p => decide (p < m.u16 2) || decide (m.u16 2 + m.u16 4 ≤ p))).any
        (fun p => s.policerNamed (m.u8 0) p) = false ∧
      s.liveStages.any (fun j => j != m.u8 0 && decide (m.u16 2 < (s.policersOf j).1 + (s.policersOf j).2) &&
        decide ((s.policersOf j).1 < m.u16 2 + m.u16 4)) = false)
    (fun m s => done (s.onSw (fun w => { w with polRange := SMap.put (0, 0) (m.u8 0) (m.u16 2, m.u16 4) w.polRange }))) ∧
  Completes opQueuePrecolour .queuePrecolour
    (fun m _ => m.plen = 68 ∧ (m.u8 0 = 0 ∨ m.u8 0 = 1 ∧ 1 ≤ m.u8 3 ∧ m.u8 3 ≤ 6) ∧ m.u8 1 ≤ 63 ∧ m.u8 2 ≤ 31 ∧
      ((m.payload.drop 4).map (fun b => b.toNat)).all (fun v => decide (v ≤ 2)) = true)
    (fun m s => done (s.onSw (fun w => { w with
      colours := SMap.insert (s.stageOf m) ([m.u8 0, m.u8 1, m.u8 2, m.u8 3] ++ (m.payload.drop 4).map (fun b => b.toNat)) w.colours }))) ∧
  (∀ (t pol k : Nat) (s : State), t < 8 → pol < 8192 → s.liveStages.find? (fun k => s.ownsPolicer k pol) = some k →
    exec (.policerRepair t pol) s = .next (((s.onBucket t pol (fun b => b.full (s.policerRec pol) s.localNs)).report
      (Report.of Fc.policerUe Lv.tile t k (1 * 1024 + 16 * t) 0 pol 0)).post k Ev.policerRepair Lv.tile t
        (leBytes 1 t ++ zeros 1 ++ leBytes 2 pol))) ∧
  Completes opQueueService .queueService
    (fun m s => m.plen ≠ 0 ∧ m.plen % 16 = 0 ∧ ((m.records 0 16).map leNat).all (fun r => decide (srvLport r ≤ 383) && bitsOf r 98 16 != 0 &&
      bitsOf r 0 47 == 0 && shaperOk (bitsOf r 71 26) (bitsOf r 47 24) (s.eg (srvLport r)).refillExp && s.ownsLport (s.stageOf m) (srvLport r)) = true)
    (fun m s => done (((m.records 0 16).map leNat).foldl (fun s r => s.writeService r) s)) ∧
  Completes opQueueLport .queueLport
    (fun m s => m.plen ≠ 0 ∧ m.plen % 16 = 0 ∧ ((m.records 0 16).map leNat).all (fun r => decide (srvLport r ≤ 383) && decide (bitsOf r 65 3 ≤ 5) &&
      bitsOf r 0 56 == 0 && shaperOk (bitsOf r 92 26) (bitsOf r 68 24) (bitsOf r 65 3) && s.ownsLport (s.stageOf m) (srvLport r)) = true)
    (fun m s => done (((m.records 0 16).map leNat).foldl (fun s r => s.writeQlport r) s)) ∧
  (∀ (l : Nat) (s : State), l < 384 → (s.eg l).refilledAt + refillPeriod (s.eg l).effExp ≤ s.localNs →
    exec (.shaperRefill l) s = .next (s.refillShapers l)) ∧
  Completes opQueueStatus .queueStatus
    (fun m s => m.plen = 4 ∧ m.u16 0 ≤ 383 ∧ m.zero 2 2 = true ∧ s.ownsLport (s.stageOf m) (m.u16 0) = true)
    (fun m s => doneWith (((range 0 8).map (fun q => queueStatusBytes s (m.u16 0) q)).flatten ++ (s.eg (m.u16 0)).shaper.bytes ++
      leBytes 1 (flagNat (s.eg (m.u16 0)).shaper.effEn) ++ leBytes 1 (s.eg (m.u16 0)).effExp ++ leBytes 1 (flagNat (s.eg (m.u16 0)).lineBytes) ++
      leBytes 1 (s.eg (m.u16 0)).gbPad ++ leBytes 1 (s.eg (m.u16 0)).gates ++ leBytes 1 (flagNat (s.eg (m.u16 0)).pending.isSome) ++
      leBytes 2 ((s.eg (m.u16 0)).sheet.position s.netU).1 ++ leBytes 4 ((s.eg (m.u16 0)).sheet.position s.netU).2 ++ zeros 4 ++
      leBytes 6 ((((s.eg (m.u16 0)).pending.map (fun p => p.2)).getD 0) / 1000000000) ++ zeros 2 ++
      leBytes 4 ((((s.eg (m.u16 0)).pending.map (fun p => p.2)).getD 0) % 1000000000) ++
      ((range 0 8).map (fun c => leBytes 4 (((s.eg (m.u16 0)).sheet.longest c).getD 0xFFFFFFFF))).flatten ++ (s.eg (m.u16 0)).sheet.bytes ++
      (((s.eg (m.u16 0)).pending.map (fun p => p.1.bytes)).getD [])) s)

/-- QUEUE.CUESHEET makes its sheet pending for its switch time; the gates follow the operational sheet; at the time the sheets are switched. A retiring
version that still holds packets after 100 µs expires. BUFFER.CLASS and BUFFER.LPORT write their records where the reservations still fit;
BUFFER.SESSION keeps its sessions; BUFFER.STATUS returns a tile's occupancy. -/
def Obligations.SheetsAndBuffersAct : Prop :=
  Completes opQueueCuesheet .queueCuesheet
    (fun m s => 32 ≤ m.plen ∧ m.plen = 32 + 4 * m.u16 2 ∧ m.u16 0 ≤ 383 ∧ m.u16 2 ≤ 256 ∧ m.zero 10 2 = true ∧ m.zero 26 2 = true ∧
      m.u32 12 < 1000000000 ∧ m.u32 28 < 1000000000 ∧ 1000 ≤ m.u32 16 ∧ m.u32 16 ≤ 1000000000 ∧
      (sheetOf m).entries.all (fun e => decide (16 ≤ e.2)) = true ∧ s.ownsLport (s.stageOf m) (m.u16 0) = true ∧
      ((s.eg (m.u16 0)).pending.map (fun p => decide (s.netLinear + 2000 < p.2))).getD true = true)
    (fun m s => done (s.onEg (m.u16 0) (fun e => { e with
      pending := some (sheetOf m, e.sheet.switchTime (max (Msg.timeAt m 20 28) (s.netLinear + 2000))) }))) ∧
  (∀ (l : Nat) (s : State), l < 384 → exec (.gateChange l) s = .next (s.setGates l)) ∧
  (∀ (l : Nat) (p : CueSheet × Nat) (s : State), l < 384 → (s.eg l).pending = some p → p.2 ≤ s.netLinear →
    exec (.cuesheetSwitch l) s = .next (s.switchSheet l)) ∧
  (∀ (k r : Nat) (s : State), k ≤ 4 → (s.ver k).retiring = some r → (s.ver k).state = 3 → (s.ver k).expired = false →
    (s.ver k).flippedAt + tkUs 100 ≤ s.now → s.drained k r = false → exec (.drainExpired k) s = .next (s.expireVersion k r)) ∧
  (∀ x : State, Completes opBufferClass .bufferClass
    (fun m s => m.plen ≠ 0 ∧ m.plen % 16 = 0 ∧ ((m.records 0 16).map leNat).all classOk = true ∧
      x = ((m.records 0 16).map leNat).foldl (fun t r => t.writeClass (s.stageOf m) r) s ∧ x.overReserved (s.stageOf m) = false)
    (fun m s => done (forEach (x.sw.spilling.filter (fun key => x.voqStage key == s.stageOf m))
      (fun key t => t.settleSpill (s.stageOf m) key) x))) ∧
  Completes opBufferLport .bufferLport
    (fun m s => m.plen ≠ 0 ∧ m.plen % 8 = 0 ∧ ((m.records 0 8).map leNat).all (fun r => decide (bufLport r ≤ 383) && bitsOf r 11 10 != 0 &&
      decide (bitsOf r 11 10 ≤ 1000) && bitsOf r 0 11 == 0 && s.ownsLport (s.stageOf m) (bufLport r)) = true ∧
      (((m.records 0 8).map leNat).foldl (fun s r => s.writeBufLport r) s).overReserved (s.stageOf m) = false)
    (fun m s => done (((m.records 0 8).map leNat).foldl (fun s r => s.writeBufLport r) s)) ∧
  Completes opBufferSession .bufferSession
    (fun m s => m.plen ≠ 0 ∧ m.plen % 16 = 0 ∧ ((m.records 0 16).map leNat).all sessOk = true ∧
      ((m.records 0 16).map leNat).any (fun r => decide (sessDest r < 384) && !s.ownsLport (s.stageOf m) (sessDest r)) = false)
    (fun m s => done (s.onSw (fun w => { w with
      sessions := ((m.records 0 16).map leNat).foldl (fun l r => SMap.insert (s.stageOf m * 32 + bitsOf r 123 5) r l) w.sessions }))) ∧
  (∀ voqs : List Nat, Completes opBufferStatus .bufferStatus
    (fun m s => m.plen = 4 ∧ m.u8 0 ≤ 7 ∧ m.zero 1 3 = true ∧ (s.stageTiles (s.stageOf m)).contains (m.u8 0) = true ∧
      s.voqsAbove (s.stageOf m) (m.u8 0) = voqs ∧ s.headPairs (s.stageOf m) (m.u8 0) = [])
    (fun m s => doneWith (leBytes 4 (s.foldQuota (s.stageOf m) (m.u8 0)) ++ leBytes 4 (s.reservedCells (s.stageOf m) (m.u8 0)) ++
      leBytes 4 (s.foldQuota (s.stageOf m) (m.u8 0) - s.reservedCells (s.stageOf m) (m.u8 0)) ++ leBytes 4 (s.sharedFree (s.stageOf m) (m.u8 0)) ++
      leBytes 4 (s.flushingCells (s.stageOf m) (m.u8 0)) ++ leBytes 4 4096 ++ leBytes 4 (s.reentryUsed (m.u8 0)) ++ leBytes 4 8192 ++
      leBytes 4 (s.holdUsed (m.u8 0)) ++ leBytes 4 (s.cellsOut (m.u8 0)) ++ leBytes 8 (s.farBytes (s.stageOf m) (m.u8 0)) ++
      leBytes 4 voqs.length ++ leBytes 4 0 ++
      (voqs.map (fun key => leBytes 2 (key / 40 % 408) ++ leBytes 1 (key / 5 % 8) ++ leBytes 1 (flagNat (s.sw.spilling.contains key)) ++
        leBytes 4 (s.voqCells key))).flatten) s))

/-- An alert replays and is counted, the fourth in a row makes a reset due; a channel reset that is due ends, or loses the channel; a scrub's good and
corrected reads are counted, an uncorrectable word of BACKING is rebuilt, one of SPILL damages its frame; a channel is trained and its zeroing
ends; an oscillator read steps the eye every RETRAIN_EVERY; a speed step that runs ends, and a queued one begins; a rank's refresh rate is read and
posted; a module's temperature is noted, and one that becomes hot steps the speed down; an idle rank enters self-refresh in RETAIN, and what is not retained is lost. -/
def Obligations.MemoryEventsAct : Prop :=
  (∀ (c sub : Nat) (s : State), c < 8 → sub < 2 → s.channelRuns c = true →
    exec (.dramAlert c sub false) s = .next (((s.onChannel c (fun x => { x with replays := SMap.insert sub 1 x.replays })).bump 8 0
      (memEvt (2 * c + sub) 2)).report (Report.of Fc.dramReplay Lv.device 0 0 (11 * 1024 + 2 * c + sub) 1 0 0))) ∧
  (∀ (c sub : Nat) (s : State), c < 8 → sub < 2 → s.channelRuns c = true → SMap.get 0 sub (s.mem.channel c).replays = 3 →
    exec (.dramAlert c sub true) s = .next (s.onChannel c (fun x => { x with replays := SMap.erase sub x.replays, resetDue := true }))) ∧
  (∀ (c : Nat) (ok : Bool) (s s1 : State), c < 8 → s.channelRuns c = true → (s.mem.channel c).resetDue = true → s.mem.step = none →
    s1 = (((s.onChannel c (fun x => { x with replays := [], resetDue := false })).bumpChannel c 3).report
      (Report.of Fc.memChannelReset Lv.device 0 0 (11 * 1024 + 2 * c) 1 0 c)).post 0 Ev.memChannelReset Lv.device 0
        (leBytes 1 c ++ leBytes 1 (flagNat (!ok)) ++ zeros 2) →
    exec (.memChannelReset c ok) s = .next (if ok then s1 else s1.loseChannel c)) ∧
  (∀ (c sub region a b rank device row : Nat) (copy : Bool) (s : State), c < 8 → sub < 2 → region < 5 → s.channelRuns c = true →
    exec (.patrolScrub c sub 0 region a b rank device row copy) s = .next (s.bump 8 0 (memEvt (2 * c + sub) 5)) ∧
    exec (.patrolScrub c sub 1 region a b rank device row copy) s = .next ((((s.bump 8 0 (memEvt (2 * c + sub) 5)).bump 8 0
      (memEvt (2 * c + sub) 0)).report (Report.of Fc.dramCe Lv.device 0 0 (11 * 1024 + (2 * c + sub)) 4 0 0)).countRow c rank device row) ∧
    exec (.patrolScrub c sub 2 0 a b rank device row copy) s = .next ((s.bump 8 0 (memEvt (2 * c + sub) 5)).dramUe Fc.dramUe (2 * c + sub) 0 4) ∧
    exec (.patrolScrub c sub 2 1 a b rank device row copy) s = .next (((s.bump 8 0 (memEvt (2 * c + sub) 5)).dramUe Fc.backingUe (2 * c + sub)
      (a / 2 ^ 200 / 16) 4).rebuildBacking a copy) ∧
    exec (.patrolScrub c sub 2 2 a b rank device row copy) s = .next (((s.bump 8 0 (memEvt (2 * c + sub) 5)).dramUe Fc.dramUe (2 * c + sub) 0 4).onPkt a
      (fun p => if p.phase == .far then { p with damaged := true } else p))) ∧
  (∀ (c : Nat) (d : Dimm) (ok : Bool) (s : State), c < 8 → (s.mem.channel c).state = 0 → s.cmd.mode = Md.load → s.mem.failed.contains c = false →
    exec (.channelTraining c (some d) ok) s = .next (s.trainChannel c d ok)) ∧
  (∀ (c : Nat) (s : State), c < 8 → (s.mem.channel c).state = 2 →
    exec (.channelZeroingDone c) s = .next (s.onChannel c (fun x => { x with state := 3 }))) ∧
  (∀ (c rank : Nat) (drift : Bool) (d : Dimm) (s : State), c < 8 → s.channelRuns c = true → (s.mem.channel c).dimm = some d → rank < d.ranks →
    exec (.dqsOscillatorRead c rank drift) s = .next (s.onChannel c (fun x => { x with
      refreshes := SMap.put 0 rank (if SMap.get 0 rank x.refreshes + 1 < s.mem.retrainEvery then SMap.get 0 rank x.refreshes + 1 else 0) x.refreshes,
      resetDue := x.resetDue || drift }))) ∧
  (∀ (target c since : Nat) (s : State), s.mem.step = some (target, c, since) → s.mem.queued = none →
    exec .memSpeedStep s = .next (s.endSpeedStep target c)) ∧
  (∀ (target c since : Nat) (q : Nat × Nat) (s : State), s.mem.step = some (target, c, since) → s.mem.queued = some q →
    exec .memSpeedStep s = .next ((s.endSpeedStep target c).speedStep q.1 (q.2 % 16) (q.2 / 16))) ∧
  (∀ (c hot : Nat) (d : Dimm) (s s2 : State), c < 8 → s.channelRuns c = true → (s.mem.channel c).dimm = some d →
    s2 = forEach ((range 0 d.ranks).filter (fun r => (s.mem.channel c).hot.testBit r != (hot % 2 ^ d.ranks).testBit r)) (fun r t =>
      t.post 0 Ev.memRefreshRate Lv.device 0 (leBytes 1 c ++ leBytes 1 r ++ leBytes 1 (if (hot % 2 ^ d.ranks).testBit r then 2 else 1) ++ zeros 1))
      (s.onChannel c (fun x => { x with hot := hot % 2 ^ d.ranks })) →
    exec (.mr4Read c hot) s = .next (s2.rebalance s2.mem.deliverable)) ∧
  (∀ (c rank : Nat) (d : Dimm) (s : State), c < 8 → rank < d.ranks → s.retain = true → s.channelRuns c = true → (s.mem.channel c).dimm = some d →
    s.pktsWhere (fun p => p.phase == .far) = [] → s.book.captures = [] →
    exec (.retainSelfRefresh c rank) s = .next (((s.onChannel c (fun x => { x with
      selfRefresh := setBit x.selfRefresh rank true })).loseFlow).loseCapture)) ∧
  (∀ (c : Nat) (temp : Int) (s : State), c < 8 → s.channelRuns c = true → temp < 95 →
    exec (.dimmTemperatureRead c temp) s = .next (s.onChannel c (fun x => { x with temp := temp }))) ∧
  (∀ (c : Nat) (temp : Int) (s : State), c < 8 → s.channelRuns c = true → 95 ≤ temp → (s.mem.channel c).temp < 95 → s.retain = false →
    s.mem.step = none → s.mem.speed < s.mem.speedFloor →
    exec (.dimmTemperatureRead c temp) s = .next ((s.onChannel c (fun x => { x with temp := temp })).speedStep (s.mem.speed + 1) 3 6))

/-- MEM.CONFIG within its ranges stores speeds, efficiencies and limits and rebalances the shares; MEM.REGION gives the regions their sizes; MEM.SHARE
a stage its space and bandwidth; MEM.SPEED begins a step (ACCEPTED); MEM.REPAIR of a row the DRAM repairs forgets its errors; MEM.STATUS returns the
device's memory to the owner and a side stage's shares to it. -/
def Obligations.MemGroupActs : Prop :=
  Completes opMemConfig .memConfig
    (fun m s => m.plen = 12 ∧ 3 ≤ m.u8 0 ∧ m.u8 0 ≤ m.u8 1 ∧ m.u8 1 ≤ 6 ∧ 3 ≤ m.u8 2 ∧ m.u8 2 ≤ 6 ∧ m.u8 3 ≤ 1 ∧ s.mem.bestDivider ≤ m.u8 0 ∧
      50 ≤ m.u8 4 ∧ m.u8 4 ≤ 78 ∧ 50 ≤ m.u8 5 ∧ m.u8 5 ≤ 72 ∧ m.zero 6 2 = true ∧ 16 ≤ m.u16 8 ∧ m.u16 8 ≤ 4096 ∧ 1 ≤ m.u16 10 ∧ m.u16 10 ≤ 1024 ∧
      ((m.u8 0 != s.mem.runDivider || m.u8 1 != s.mem.leanDivider || m.u8 2 != s.mem.speedFloor || m.u8 3 != s.mem.leanMem) &&
        s.cmd.mode != Md.house) = false ∧
      (m.u8 0 != s.mem.runDivider && decide (10 * { s.mem with
        runSpeed := m.u8 0, leanSpeed := m.u8 1, speedFloor := m.u8 2, leanMem := m.u8 3, eff1 := m.u8 4, eff2 := m.u8 5,
        retrainEvery := m.u16 8, rowCeLimit := m.u16 10 }.deliverableAt (m.u8 0) < s.mem.reserved)) = false)
    (fun m s => done ((s.settleShares.onMem (fun y => { s.mem with
        runSpeed := m.u8 0, leanSpeed := m.u8 1, speedFloor := m.u8 2, leanMem := m.u8 3, eff1 := m.u8 4, eff2 := m.u8 5,
        retrainEvery := m.u16 8, rowCeLimit := m.u16 10, shares := y.shares })).rebalance
      (s.settleShares.onMem (fun y => { s.mem with
        runSpeed := m.u8 0, leanSpeed := m.u8 1, speedFloor := m.u8 2, leanMem := m.u8 3, eff1 := m.u8 4, eff2 := m.u8 5,
        retrainEvery := m.u16 8, rowCeLimit := m.u16 10, shares := y.shares })).mem.deliverable)) ∧
  (∀ x y z : State, Completes opMemRegion .memRegion
    (fun m s => m.plen = 16 ∧ 64 ≤ m.u32 0 ∧ m.u32 0 ≤ 256 ∧ m.u32 0 % 8 = 0 ∧ m.u32 4 ≤ 1024 ∧ m.u32 8 ≤ 512 ∧ m.u32 12 ≤ 256 ∧
      (8 + m.u32 0 + m.u32 4 + m.u32 8 + m.u32 12) * 1024 ≤ s.mem.usableMiB ∧
      s.mem.spaceOf 2 ≤ m.u32 4 ∧ s.mem.spaceOf 3 ≤ m.u32 8 ∧ s.mem.spaceOf 4 ≤ m.u32 12 ∧
      x = s.onMem (fun n => { n with backing := m.u32 0, spill := m.u32 4, flow := m.u32 8, capture := m.u32 12 }) ∧
      y = (if m.u32 0 != s.mem.backing || decide (m.u32 4 < s.mem.spill) then x.loseFar else x) ∧
      z = (if m.u32 0 + m.u32 4 != s.mem.backing + s.mem.spill || decide (m.u32 8 < s.mem.flow) then y.loseFlow else y))
    (fun m s => done (if m.u32 0 + m.u32 4 + m.u32 8 != s.mem.backing + s.mem.spill + s.mem.flow || decide (m.u32 12 < s.mem.capture)
      then z.loseCapture else z))) ∧
  Completes opMemShare .memShare
    (fun m s => m.plen = 12 ∧ m.u8 0 ≤ 4 ∧ s.stageLive (m.u8 0) = true ∧ 2 ≤ m.u8 1 ∧ m.u8 1 ≤ 4 ∧ m.zero 2 2 = true ∧
      s.mem.spaceOf (m.u8 1) - (s.mem.share (m.u8 0) (m.u8 1)).space + m.u32 4 ≤ s.mem.regionGiB (m.u8 1) ∧
      m.u32 8 ≤ (s.mem.share (m.u8 0) (m.u8 1)).bw)
    (fun m s => done (s.settleShares.onShare (m.u8 0) (m.u8 1) (fun y => { y with space := m.u32 4, bw := m.u32 8 }))) ∧
  Completes opMemSpeed .memSpeed
    (fun m s => m.plen = 4 ∧ 3 ≤ m.u8 0 ∧ m.u8 0 ≤ 6 ∧ s.mem.bestDivider ≤ m.u8 0 ∧ m.zero 1 3 = true ∧ s.atLimit m = false ∧ s.power.lean = false)
    (fun m s => accept (s.speedStep (m.u8 0) 0 0)) ∧
  (∀ d : Dimm, Completes opMemRepair .memRepair
    (fun m s => m.plen = 8 ∧ m.u8 0 ≤ 7 ∧ m.u8 2 ≤ 19 ∧ m.u8 3 ≤ 1 ∧ (m.async && s.atLimit m) = false ∧ s.channelRuns (m.u8 0) = true ∧
      (s.mem.channel (m.u8 0)).dimm = some d ∧ m.u8 1 < d.ranks ∧ m.ext = some [0])
    (fun m s => done (s.onMem (fun x => { x with
      rows := SMap.erase (rowKey (m.u8 0) (m.u8 1) (m.u8 2) (m.u32 4)) x.rows,
      repaired := if x.repaired.contains (rowKey (m.u8 0) (m.u8 1) (m.u8 2) (m.u32 4)) then x.repaired
        else x.repaired ++ [rowKey (m.u8 0) (m.u8 1) (m.u8 2) (m.u32 4)] })))) ∧
  Completes opMemStatus .memStatus (fun m s => m.plen = 0 ∧ s.stageOf m ≠ 0)
    (fun m s => doneWith (leBytes 2 s.mem.deliverable ++ leBytes 1 s.mem.speed ++ zeros 1 ++ leBytes 4 s.mem.scale ++
      ([2, 3, 4].map (fun r => s.shareRec (s.stageOf m) r)).flatten) s) ∧
  Completes opMemStatus .memStatus (fun m s => m.plen = 0 ∧ s.stageOf m = 0)
    (fun _ s => doneWith (leBytes 2 s.mem.deliverable ++ leBytes 1 s.mem.speed ++ zeros 1 ++ leBytes 4 s.mem.scale ++ leBytes 4 8 ++
      leBytes 4 s.mem.backing ++ leBytes 4 s.mem.spill ++ leBytes 4 s.mem.flow ++ leBytes 4 s.mem.capture ++
      ((range 0 8).map (fun c => (s.mem.channel c).bytes (s.mismatchOf (2000 + c)))).flatten ++
      (s.liveStages.map (fun j => ([2, 3, 4].map (fun r => s.shareRec j r)).flatten)).flatten) s)

/-- The oldest fetched INJECT entry of a pair becomes a packet of its tile; its completion is written when its fate is known. A punt whose survey has
ended is written to its host buffer, a captured frame kept by its session; else the head of the lane is granted to the next ready pair or session.
A flow session whose turn it is samples the head. -/
def Obligations.HostFramesAct : Prop :=
  (∀ (p key : Nat) (it : Item) (frame : List Byte) (cqOk : Bool) (s s1 : State), p < 64 → (s.ring p).kind = 0 → (s.ring p).state = 1 →
    (s.ring p).firstIn .waiting = some it → s.injectDenied (s.ring p).stage it.entry = false →
    s.allocBuffer p (s.ring p).stage (fieldLE it.entry 8 2) = some (key, s1) →
    exec (.injectItem p frame true cqOk) s = .next ((((s1.setItem p it { it with buffer := some key }).setItem p { it with buffer := some key }
      { it with buffer := some key, phase := .inTile }).moved p (fieldLE it.entry 8 2)).addPkt
        (injectPkt p (s.ring p).stage (s.netLinear % 2 ^ 24) it.entry frame))) ∧
  (∀ (p : Nat) (it : Item) (frame : List Byte) (dmaOk cqOk : Bool) (s : State), p < 64 → (s.ring p).kind = 0 → (s.ring p).state = 1 →
    (s.ring p).firstIn .waiting = some it → s.injectDenied (s.ring p).stage it.entry = true →
    exec (.injectItem p frame dmaOk cqOk) s = .next (s.completeItem p it (Comp.of Rc.stageDenied) cqOk)) ∧
  (∀ (p f : Nat) (it : Item) (rest : List Item) (cqOk : Bool) (s : State), p < 64 → (s.ring p).kind = 0 → (s.ring p).state ≠ 3 →
    (s.ring p).items = it :: rest → it.phase = .fated f →
    exec (.injectCompletion p cqOk) s = .next (s.completeItem p it { Comp.of Rc.ok with b3 := f } cqOk)) ∧
  (∀ (k q t c err cell j key : Nat) (it : Item) (dmaOk cqOk : Bool) (s : State), k < 5 → q < 8 → t < 8 → c < 8 → s.puntDue k q = some (j, it, key) →
    exec (.puntWrite k q t c err cell dmaOk cqOk) s = .next (s.writePunt j it key dmaOk cqOk)) ∧
  (∀ (k q t c err cell : Nat) (w : Nat × Nat) (dmaOk cqOk : Bool) (s : State), k < 5 → q < 8 → t < 8 → c < 8 → s.puntDue k q = none →
    s.captureDue k q = some w →
    exec (.puntWrite k q t c err cell dmaOk cqOk) s = .next ((s.keepCapture w.1 k (w.2 % 4)).onHost (fun h => { h with
      capWait := h.capWait.erase w }))) ∧
  (∀ (k q t c cell id d key : Nat) (p : Pkt) (dmaOk cqOk : Bool) (s s1 : State), k < 5 → q < 8 → t < 8 → c < 8 → s.puntDue k q = none →
    s.captureDue k q = none → s.hostHead k q t c = some (id, p) → s.nextDest k q = some d → d < 64 →
    s.allocBuffer d k (s.puntBytes p) = some (key, s1) →
    exec (.puntWrite k q t c 0 cell dmaOk cqOk) s = .next (s1.grantPunt k q d id p 0 cell key dmaOk cqOk)) ∧
  (∀ (k q t c cell id d : Nat) (p : Pkt) (s : State), k < 5 → q < 8 → t < 8 → c < 8 → s.hostHead k q t c = some (id, p) → s.nextDest k q = some d →
    68 ≤ d →
    exec (.flowSample k q t c 0 cell) s = .next ((((s.readCell p 0 cell).leaveLane id p).onHost (fun h => { h with
      puntRot := SMap.insert (k * 8 + q) d h.puntRot })).sampleFlow k (d - 68) p.ctx.inLport p.ctx.len (p.frame.take (p.ctx.len - 4))))

/-- Under PPS_TOD an edge is taken by the servo, but while LOCKED one more than 1 ms off is counted and rejected; with no edge for 1.1 s, or no
adjustment for HOST_TIMEOUT under HOST, the unit holds. A ZDA sentence 10–900 ms after an edge names its second; while LOCKED the calendar is written;
the last clock of a slew applies its remainder; 1PPS_OUT rises at the second and falls after PPS_WIDTH. -/
def Obligations.TimeEventsAct : Prop :=
  (∀ (off f : Int) (s : State), s.time.source = 2 → (s.time.state ≠ 2 ∨ off.natAbs ≤ 1000000) →
    exec (.ppsEdge off f) s = .next (s.servoEdge off f)) ∧
  (∀ (off f : Int) (s : State), s.time.source = 2 → s.time.state = 2 → 1000000 < off.natAbs → s.time.rejectRun < 2 →
    exec (.ppsEdge off f) s = .next ((s.onTime (fun t => { t with rejects := t.rejects + 1, rejectRun := t.rejectRun + 1 })).bump 8 0 0xCE)) ∧
  (∀ (e : Nat) (s : State), s.time.lastEdge = some e → s.time.source = 2 → (s.time.state = 1 ∨ s.time.state = 2) → e + tkMs 1100 ≤ s.now →
    exec .ppsLost s = .next (((s.onTime (fun t => { t with freq := meanFreq t.servoFreqs })).post 0 Ev.ppsLost Lv.device 0 []).timeState 3)) ∧
  (∀ s : State, s.time.source = 1 → s.time.state = 2 → s.time.lastAdjust + tkS s.time.hostTimeout ≤ s.now →
    exec .hostTimeout s = .next (s.timeState 3)) ∧
  (∀ (utc e : Nat) (s : State), s.time.lastEdge = some e → e + tkMs 10 ≤ s.now → s.now ≤ e + tkMs 900 →
    exec (.todSentence utc true) s = .next (s.onTime (fun t => { t with tod := some ((utc : Int) + t.utcOffset).toNat }))) ∧
  (∀ s : State, s.time.state = 2 → exec .calendarWrite s = .next (s.onTime (fun t => { t with calendar := t.sec, calTick := s.now }))) ∧
  (∀ s : State, s.time.slew ≠ 0 → s.time.slewLast = true →
    exec .slewEnd s = .next (s.onTime (fun t => { (t.setFine (t.fine + t.slew)) with slew := 0 }))) ∧
  (∀ s : State, s.time.ppsHigh = none → s.time.ppsDriven = true → s.time.ns = 0 →
    exec .ppsOutPulse s = .next (s.onTime (fun t => { t with ppsHigh := some (s.now + tkMs t.ppsWidth) }))) ∧
  (∀ (e : Nat) (s : State), s.time.ppsHigh = some e → e ≤ s.now → exec .ppsOutPulse s = .next (s.onTime (fun t => { t with ppsHigh := none })))

/-- TIME.STATUS returns its record; TIME.CONFIG within the ranges selects the source and stores the settings; TIME.SET steps the time, or waits for the
next edge under PPS_TOD; TIME.ADJUST sets the frequency, starts a slew or steps; TIME.PORT configures an lport's timestamping and reads its ring. -/
def Obligations.TimeGroupActs : Prop :=
  Completes opTimeStatus .timeStatus (fun m _ => m.plen = 0) (fun _ s => doneWith (timeStatusRecord s) s) ∧
  (∀ x : State, Completes opTimeConfig .timeConfig
    (fun m s => m.plen = 20 ∧ m.u8 0 ≤ 2 ∧ m.u8 1 ≤ 2 ∧ 1 ≤ m.u16 2 ∧ m.u16 2 ≤ 500 ∧ 100 ≤ m.u32 4 ∧ m.u32 4 ≤ 1000000000 ∧ 1 ≤ m.u16 8 ∧
      m.u16 8 ≤ 60 ∧ 1000 ≤ m.u32 12 ∧ m.u32 12 ≤ 500000000 ∧ 4800 ≤ m.u32 16 ∧ m.u32 16 ≤ 115200 ∧
      x = s.onTime (fun t => { t.select (m.u8 0) with
        ppsOut := m.u8 1, ppsWidth := m.u16 2, stepThreshold := m.u32 4, hostTimeout := m.u16 8, utcOffset := m.int 10 2,
        freqBound := m.u32 12, todBaud := m.u32 16 }))
    (fun _ s => done (if x.time.state = s.time.state then x else x.raiseIrq 90))) ∧
  Completes opTimeSet .timeSet (fun m s => m.plen = 12 ∧ m.zero 6 2 = true ∧ m.u32 8 ≤ 999999999 ∧ s.time.source ≠ 2)
    (fun m s => done (s.stepTime (((m.u48 0 * 1000000000 + m.u32 8) * 2 ^ 40 : Nat) : Int) 0)) ∧
  Completes opTimeSet .timeSet (fun m s => m.plen = 12 ∧ m.zero 6 2 = true ∧ m.u32 8 = 0 ∧ s.time.source = 2)
    (fun m s => done (s.onTime (fun t => { t with setSeconds := some (m.u48 0) }))) ∧
  Completes opTimeAdjust .timeAdjustFreq
    (fun m s => m.plen = 16 ∧ m.u8 0 = 0 ∧ m.zero 1 3 = true ∧ -freqLimit ≤ m.int 4 4 ∧ m.int 4 4 ≤ freqLimit ∧ s.time.source ≠ 2)
    (fun m s => done (s.onTime (fun t => { t with freq := m.int 4 4 })).adjusted) ∧
  Completes opTimeAdjust .timeAdjustSlew (fun m s => m.plen = 16 ∧ m.u8 0 = 1 ∧ m.zero 1 3 = true ∧ s.time.source ≠ 2)
    (fun m s => done (s.onTime (fun t => { t with slew := m.int 8 8 * 2 ^ 40 })).adjusted) ∧
  Completes opTimeAdjust .timeAdjustStep (fun m s => m.plen = 16 ∧ m.u8 0 = 2 ∧ m.zero 1 3 = true ∧ s.time.source ≠ 2)
    (fun m s => done (s.stepTime (s.time.fine + m.int 8 8 * 2 ^ 40) 1).adjusted) ∧
  Completes opTimePort .timePortConfig
    (fun m s => m.plen = 8 ∧ m.u16 0 ≤ 383 ∧ m.u8 2 = 0 ∧ m.u8 3 ≤ 3 ∧ s.ownsLport (s.stageOf m) (m.u16 0) = true)
    (fun m s => done (s.onPtp (m.u16 0) (fun p => { p with
      enabled := bitOf (m.u8 3) 0, oneStep := bitOf (m.u8 3) 1, rxDelay := m.int 4 2, txDelay := m.int 6 2 }))) ∧
  Completes opTimePort .timePortRead
    (fun m s => m.plen = 8 ∧ m.u16 0 ≤ 383 ∧ m.u8 2 = 1 ∧ m.u8 3 = 0 ∧ s.ownsLport (s.stageOf m) (m.u16 0) = true)
    (fun m s => doneWith (leBytes 4 (s.ptpPort (m.u16 0)).rxNext ++
      leBytes 1 (flagNat (decide ((s.ptpPort (m.u16 0)).rx.length < subMod (s.ptpPort (m.u16 0)).rxNext (m.u32 4) (2 ^ 32)) &&
        decide (subMod (s.ptpPort (m.u16 0)).rxNext (m.u32 4) (2 ^ 32) ≤ 2 ^ 31))) ++ zeros 3 ++
      (((s.ptpPort (m.u16 0)).rx.filter (fun e => decide (subMod (s.ptpPort (m.u16 0)).rxNext e.serial (2 ^ 32) ≤
        subMod (s.ptpPort (m.u16 0)).rxNext (m.u32 4) (2 ^ 32)))).map TsEntry.bytes).flatten) s)

/-- VIN below AON loses everything but the ledger; below UVLO, and above OVP, the device goes to DARK; between them the band follows. IIN at LIMIT takes
the first untaken step, IIN low for 1 s releases the last. A rail moves one step of 5 mV within its window and pins at its bound. A temperature reading
acts on TWARN, THERM_N and TLEAN; 115 °C trips; a cool device leaves DARK. RESET_N low for 1 µs resets. -/
def Obligations.PowerEventsAct : Prop :=
  (∀ (vin : Nat) (s : State), vin < 2900 → exec (.vinBand vin) s = .next s.vinRemoved) ∧
  (∀ (vin : Nat) (s : State), 2900 ≤ vin → vin < 4400 →
    exec (.vinBand vin) s = .next (((s.onPower (fun p => { p with vinMv := vin, aonUp := p.aonUp || decide (3000 < vin) })).hwDark .uvlo 2 true).onPower
      (fun p => { p with uvloOk := false, pwrGood := false }))) ∧
  (∀ (vin : Nat) (s : State), 20500 < vin →
    exec (.vinBand vin) s = .next (((s.onPower (fun p => { p with vinMv := vin, aonUp := p.aonUp || decide (3000 < vin) })).hwDark .ovp 2 false).onPower
      (fun p => { p with ovp := true }))) ∧
  (∀ (vin : Nat) (s : State), 4400 ≤ vin → vin ≤ 20500 → 2 ≤ s.cmd.mode →
    exec (.vinBand vin) s = .next (((s.vinInRange vin).postBands s.power.band (bandAfter s.power.band vin) vin).recompute)) ∧
  (∀ (iin : Nat) (s : State), 10 * s.power.limit ≤ iin → s.power.clAt + clWait s.power.clStep ≤ s.now →
    exec (.currentLimitStep iin) s = .next (s.takeLimitStep iin)) ∧
  (∀ (iin : Nat) (s : State), s.power.clStep ≠ 0 → iin ≤ 9 * s.power.limit → s.power.clLow + tkS 1 ≤ s.now →
    exec (.currentLimitRelease iin) s = .next (s.releaseLimitStep iin)) ∧
  (∀ (die : Nat) (s : State), die < 11 → (s.avsOf die).mv + 5 ≤ (s.avsOf die).hi →
    exec (.avsStep die true) s = .next (s.onPower (fun p => { p with
      avs := SMap.put Avs.reset die { s.avsOf die with mv := (s.avsOf die).mv + 5 } p.avs }))) ∧
  (∀ (die : Nat) (s : State), die < 11 → (s.avsOf die).mv < (s.avsOf die).lo + 5 → loopEpisodeNew (s.avsOf die).pinned s.now = true →
    exec (.avsStep die false) s = .next ((s.onPower (fun p => { p with
      avs := SMap.put Avs.reset die { s.avsOf die with mv := (s.avsOf die).lo, pinned := some s.now } p.avs })).post 0 Ev.loopAtLimit Lv.die die
        (loopPayload 0 die 0))) ∧
  (∀ s : State, exec .clockingChange s = .next s.finishClocking) ∧
  (∀ (die : Nat) (tj : Int) (s s1 s2 : State), die < 11 → s1 = s.onPower (fun p => { p with tj := SMap.insert die tj p.tj }) →
    s2 = s1.onPower (fun p => { p with tripBelow := if p.allBelow 900 then some (p.tripBelow.getD s.now) else none }) →
    exec (.temperatureReading die tj) s = .next (((if s.cmd.mode ≤ 1 then s2 else s2.warnDie die tj).thermPin tj).tleanRule tj)) ∧
  (∀ (die : Nat) (s : State), die < 11 → s.cmd.mode ≠ Md.dark →
    exec (.thermalTrip die) s = .next ((s.onPower (fun p => { p with trips := s.trips24 ++ [s.now], tripBelow := none })).hwDark .trip 3 true)) ∧
  (∀ (t : Nat) (s : State), s.cmd.mode = Md.dark → s.cmd.dark = DarkCause.trip → s.power.uvloOk = true → s.power.ovp = false → s.trips24.length < 3 →
    s.power.tripBelow = some t → t + tkS 60 ≤ s.now → exec .thermalDarkExit s = .next s.leaveDark) ∧
  (∀ (ns : Nat) (taken : Bool) (s : State), 1000 ≤ ns → s.cmd.mode ≠ Md.dark →
    exec (.resetN ns taken) s = .next (((s.resetToLoad 7 0xFE []).onCmd (fun c => { c with resume := none })).onPower (fun p => { p with
      pwrGood := false })))

/-- POWER.STATUS returns the record; POWER.LIMIT, POWER.PRECEDENCE and POWER.BOUNDS within their ranges store their values and recompute the budget.
IDENTITY.CHAIN returns the certificates, IDENTITY.QUOTE the measurement list with its signature; IDENTITY.OWNER_ENROL fills an empty key slot;
IDENTITY.ROLLBACK_COMMIT raises each counter to the SVN of the running image. -/
def Obligations.PowerAndIdentityGroupsAct : Prop :=
  Completes opPowerStatus .powerStatus (fun m _ => m.plen = 0) (fun m s => doneWith (powerStatusRecord s (s.stageOf m)) s) ∧
  Completes opPowerLimit .powerLimit (fun m _ => m.plen = 4 ∧ 200 ≤ m.u16 0 ∧ m.u16 0 ≤ 1300 ∧ m.u16 2 ≤ 200)
    (fun m s => done ((s.onPower (fun p => { p with limit := m.u16 0, reserve := m.u16 2 })).recompute)) ∧
  (∀ ps : List Nat, Completes opPowerPrecedence .powerPrecedence
    (fun m _ => 4 ≤ m.plen ∧ m.plen = 4 + m.u8 0 ∧ m.u8 0 ≤ 48 ∧ m.zero 1 3 = true ∧ (m.payload.drop 4).map (fun b => b.toNat) = ps ∧
      ps.all (fun p => decide (p ≤ 47)) = true ∧ ps.Nodup)
    (fun _ s => done ((s.onPower (fun p => { p with precedence := ps })).recompute))) ∧
  Completes opPowerBounds .powerBounds
    (fun m s => m.plen = 6 ∧ m.u8 0 ≤ 10 ∧ 70 ≤ m.u8 1 ∧ m.u8 1 ≤ 110 ∧ m.u16 2 ≤ m.u16 4 ∧ (s.avsOf (m.u8 0)).fuseLo ≤ m.u16 2 ∧
      m.u16 4 ≤ (s.avsOf (m.u8 0)).fuseHi)
    (fun m s => done ((s.onPower (fun p => { p with
      twarn := m.u8 1, avs := SMap.put Avs.reset (m.u8 0) { s.avsOf (m.u8 0) with lo := m.u16 2, hi := m.u16 4 } p.avs })).recompute)) ∧
  Completes opIdentityChain .identityChain (fun m _ => m.plen = 0) (fun _ s => doneWith Config.certificateChain s) ∧
  Completes opIdentityQuote .identityQuote (fun m _ => 32 ≤ m.plen ∧ m.plen ≤ 64)
    (fun m s => doneWith (measurementList s.ctl ++ Config.quoteSignature (m.payload ++ measurementList s.ctl)) s) ∧
  Completes opIdentityOwnerEnrol .identityOwnerEnrol (fun m s => m.plen = 48 ∧ s.ctl.ownerKeys.length < 2)
    (fun m s => done ((s.onCtl (fun c => { c with ownerKeys := c.ownerKeys ++ [leNat m.payload] })).ledgerWrite 3
      (firmwareRecord s.ctl.ownerKeys.length 0 0 0))) ∧
  Completes opIdentityRollbackCommit .identityRollbackCommit (fun m s => m.plen = 0 ∧ s.ctl.rootSvn ≠ 64 ∧ s.ctl.serviceSvn ≠ 64)
    (fun _ s => done (((s.onCtl (fun c => { c with
      rootSvn := max s.ctl.rootSvn (imageSvn s.ctl.root), serviceSvn := max s.ctl.serviceSvn (imageSvn s.ctl.service) })).ledgerWrite 3
        (firmwareRecord 0 (imageVersion s.ctl.service) (max s.ctl.serviceSvn (imageSvn s.ctl.service)) 0)).post 0 Ev.rollbackAdvanced Lv.device 0
          (leBytes 1 (max s.ctl.rootSvn (imageSvn s.ctl.root)) ++ leBytes 1 (max s.ctl.serviceSvn (imageSvn s.ctl.service)) ++ zeros 2)))

/-- A checker's report is recorded; entries whose windows have ended escalate; a SEQ written in time stops its entry's window; a repair updates the
record; stalled pipes and dressers report. At the end of the quiet period the device returns to the intended mode and RECOVERIES counts; a FAULT_N
pulse ends with the pin released or held; every 1 ms intended and observed states are compared. -/
def Obligations.FaultEventsAct : Prop :=
  (∀ (c level unit stage master access address detail : Nat) (s : State), (Fc.severity c).isSome = true →
    exec (.faultReport c level unit stage master access address detail) s =
      .next (s.report (Report.of c level unit stage master access address detail))) ∧
  (∀ s : State, exec .faultWindowExpiry s = .next ((s.fault.opened.filter (fun e => match e.windowEnd with
    | some w => decide (w ≤ s.now)
    | none => false)).foldl (fun x e => x.escalate e) s)) ∧
  (∀ (seq w : Nat) (e : OpenFault) (s : State), s.fault.opened.find? (fun e => e.record.seq == seq) = some e → Fc.noAck e.record.cls = false →
    e.windowEnd = some w → s.now + 660 < w → exec (.fltAck seq) s = .next (s.onFault (fun f => f.ack seq))) ∧
  (∀ (c level unit : Nat) (ok : Bool) (r : FaultRec) (s : State), s.recordFor c level unit = some r →
    exec (.faultRepaired c level unit ok) s = .next (s.repairDone r ok)) ∧
  (∀ (t p k : Nat) (s : State), t < 8 → p < 16 →
    exec (.pipeStall t p k) s = .next (s.report (Report.of Fc.pipeStall Lv.tile t k (0x01 * 1024 + 16 * t + p) 8 p 0))) ∧
  (∀ (t d k : Nat) (s : State), t < 8 → d < 96 →
    exec (.dresserStall t d k) s = .next (s.report (Report.of Fc.dresserStall Lv.tile t k (0x02 * 1024 + 96 * t + d) 8 d 0))) ∧
  (∀ (e : Nat) (s : State), s.fault.quietEnd = some e → e ≤ s.now → s.cmd.mode = Md.safe → s.cmd.commandedSafe = false → s.fault.standing = [] →
    exec .quietPeriodEnd s = .next ((s.onCmd (fun c => { c with recoveries := (c.recoveries + 1) % 2 ^ 32 })).moveMode s.intendedMode 5 0)) ∧
  (∀ (e : Nat) (s : State), s.fault.pulseEnd = some e → e ≤ s.now → s.fault.pinMode = 0 →
    ∃ t, exec .faultNPulseEnd s = .next t ∧ t.fault.pulseEnd = none ∧ t.fault.pinAsserted = false ∧ t.fault.pinHeld = false) ∧
  (∀ s : State, 2 ≤ s.cmd.mode → s.cmd.mode ≠ Md.interval → s.ctl.noService = false → s.fault.comparedAt + tkMs 1 ≤ s.now →
    exec .stateComparison s = .next ((s.onFault (fun f => { f with comparedAt := s.now })).compareAll))

/-- FAULT.STATUS returns the record as the stage sees it; FAULT.ACK of ACK acknowledges a SEQ; FAULT.CONFIG stores severities, interrupts and its
trailer; FAULT.PIN asserts or releases the pin. TEST.INJECT and INJ_ARM arm an idle injector with a configuration a checker accepts, INJ_DISARM
disarms it and says so; each access that an armed injector corrupts is counted down. -/
def Obligations.FaultGroupActs : Prop :=
  Completes opFaultStatus .faultStatus (fun m _ => m.plen = 0) (fun m s => doneWith (faultStatusRecord s (s.stageOf m)) s) ∧
  Completes opFaultAck .faultAck
    (fun m s => m.plen = 4 ∧ m.u8 2 = 1 ∧ m.zero 3 1 = true ∧ (ackBySeq s (s.stageOf m) (m.u16 0)).1 = St.done)
    (fun m s => done (ackBySeq s (s.stageOf m) (m.u16 0)).2) ∧
  Completes opFaultConfig .faultConfig
    (fun m _ => 8 ≤ m.plen ∧ (m.plen - 8) % 4 = 0 ∧ (recordsOf m.payload 0 4 ((m.plen - 8) / 4)).all faultCfgOk = true ∧
      10 ≤ m.u32 (m.plen - 8) ∧ m.u32 (m.plen - 8) ≤ 3600 ∧ m.u8 (m.plen - 8 + 4) ≤ 1 ∧ m.u8 (m.plen - 8 + 5) ≤ 1 ∧ m.u8 (m.plen - 8 + 6) ≤ 1 ∧
      m.zero (m.plen - 8 + 7) 1 = true)
    (fun m s => done (s.onFault (fun f => { ((recordsOf m.payload 0 4 ((m.plen - 8) / 4)).foldl FaultSt.configure f) with
      quietPeriod := m.u32 (m.plen - 8), pinOnQ := m.u8 (m.plen - 8 + 4) == 1, pinMode := m.u8 (m.plen - 8 + 5),
      captureCe := m.u8 (m.plen - 8 + 6) == 1 }))) ∧
  Completes opFaultPin .faultPin (fun m _ => m.plen = 4 ∧ m.u8 0 ≤ 1 ∧ m.zero 1 3 = true)
    (fun m s => done (s.onFault (fun f => f.pinCommand (m.u8 0)))) ∧
  Completes opTestInject .testInject
    (fun m s => m.plen = 16 ∧ m.u8 0 ≤ 15 ∧ injectorOk m.payload = true ∧ (s.injector (m.u8 0)).state ≠ 1)
    (fun m s => done (s.putInjector (m.u8 0) { cfg := m.payload, state := 1, remaining := m.u8 3 })) ∧
  (∀ (i : Nat) (s : State), i < 16 → s.cmd.mode = Md.rehearsal → (s.injector i).state ≠ 1 → injectorOk (s.injector i).cfg = true →
    exec (.injArm i) s = .next (s.putInjector i { s.injector i with state := 1, remaining := fieldLE (s.injector i).cfg 3 1 })) ∧
  (∀ (i : Nat) (s : State), i < 16 → s.cmd.mode = Md.rehearsal → (s.injector i).state ≠ 1 → injectorOk (s.injector i).cfg = false →
    exec (.injArm i) s = .next ((s.putInjector i { s.injector i with state := 3, remaining := 0 }).raiseIrq 95)) ∧
  (∀ (i : Nat) (s : State), i < 16 → s.cmd.mode = Md.rehearsal → (s.injector i).state = 1 →
    exec (.injDisarm i) s = .next ((s.putInjector i { s.injector i with state := 0, remaining := 0 }).post 0 Ev.testDone Lv.device i
      (testDonePayload 0 1 i))) ∧
  (∀ (i w level unit stage master access address n : Nat) (s : State), i < 16 → (Fc.severity w).isSome = true → (s.injector i).state = 1 →
    fieldLE (s.injector i).cfg 1 1 = 0x42 → (s.injector i).remaining = n + 2 →
    exec (.injectorConsumed i w level unit stage master access address) s =
      .next (s.putInjector i { s.injector i with state := 1, remaining := n + 1 }))

/-- COUNTER.READ returns the counters of an instance summed over the stage's tiles with their lost marks, and zeroes them when told to;
COUNTER.SNAPSHOT asks for a snapshot and is answered when it is taken; COUNTER.EVENTS, COUNTER.SLOTS and COUNTER.LPORT return live or snapshot values. -/
def Obligations.CounterGroupActs : Prop :=
  (∀ i : Inst, Completes opCounterRead .counterRead
    (fun m s => m.plen = 8 ∧ 1 ≤ m.u16 4 ∧ m.u16 4 ≤ 1000 ∧ m.u8 6 = 0 ∧ m.zero 7 1 = true ∧
      s.instOf (s.stageOf m) 13 (s.ver (s.stageOf m)).cur = some i ∧ m.u32 0 + m.u16 4 ≤ i.capacity)
    (fun m s => doneWith (leBytes 4 (m.u32 0) ++ leBytes 2 (m.u16 4) ++
      leBytes 2 (flagNat (((range (m.u32 0) (m.u16 4)).map (fun c =>
        (s.stageTiles (s.stageOf m)).any (fun t => s.ctrLostIn i (s.stageOf m) t c))).any (fun b => b))) ++
      ((range (m.u32 0) (m.u16 4)).map (fun c =>
        leBytes 8 (sumOver (s.stageTiles (s.stageOf m)) (fun t => (s.counterIn i t c).1)) ++
        leBytes 8 (sumOver (s.stageTiles (s.stageOf m)) (fun t => (s.counterIn i t c).2)))).flatten ++
      leBytes ((m.u16 4 + 7) / 8) (packBits ((range (m.u32 0) (m.u16 4)).map (fun c =>
        (s.stageTiles (s.stageOf m)).any (fun t => s.ctrLostIn i (s.stageOf m) t c))))) s)) ∧
  Completes opCounterSnapshot .counterSnapshot (fun m _ => m.plen = 0)
    (fun m s => hold (s.requestSnapshot [{ mb := s.mbOf m, urgent := laneUrgent m.lane, ring := laneRing m.lane, tag := m.tag, seq := m.seq }])) ∧
  Completes opCounterEvents .counterEvents
    (fun m s => m.plen = 8 ∧ m.u8 0 = 0 ∧ m.u8 1 ≤ 8 ∧ m.u8 2 = 0 ∧ m.zero 3 1 = true ∧ 1 ≤ m.u16 6 ∧ m.u16 6 ≤ 2040 ∧ s.stageOf m = 0)
    (fun m s => doneWith (leBytes 4 0 ++ zeros 4 ++ leBytes 8 s.localNs ++
      ((range (m.u16 4) (m.u16 6)).map (fun e => leBytes 8 (eventValue s.count.events (m.u8 1) 0 e))).flatten) s) ∧
  Completes opCounterSlots .counterSlots (fun m _ => m.plen = 4 ∧ m.u8 0 = 0 ∧ m.zero 1 3 = true)
    (fun _ s => doneWith (leBytes 4 0 ++ zeros 4 ++ leBytes 8 s.localNs ++
      ((range 0 8).map (fun t => ((range 0x18 8).map (fun e => leBytes 8 (eventValue s.count.events t 0 e))).flatten)).flatten) s) ∧
  Completes opCounterLport .counterLport
    (fun m s => m.plen = 4 ∧ m.u16 0 ≤ 383 ∧ m.u8 2 = 1 ∧ m.zero 3 1 = true ∧ s.ownsLport (s.stageOf m) (m.u16 0) = true)
    (fun m s => doneWith (leBytes 8 s.localNs ++ ((range 0 48).map (fun i => leBytes 8 (SMap.get 0 (m.u16 0 * 64 + i) s.port.stats))).flatten)
      (s.onPort (fun p => { p with stats := SMap.keep (fun key _ => key / 64 != m.u16 0) p.stats })))

/-- A snapshot's edge is fixed 1 µs ahead; at the edge every counter is copied into the bank that no pin holds, with the next SNAP_ID and the local count;
2 µs later the bank is the newest, every live stage is told and the commands that asked are answered. Reading PMC_SNAP_ID pins the newest bank for
10 ms. -/
def Obligations.SnapshotsAct : Prop :=
  (∀ (v : Nat) (s : State), bitOf v 0 = true → s.count.snapAt = none →
    ∃ t, exec (.pmcSnap v) s = .next t ∧ t.count.snapAt = some (s.now + tkUs 1) ∧ t.count.snapWaiters = []) ∧
  (∀ (d : Nat) (s : State), s.count.snapAt = some d → d ≤ s.now → s.count.copyEnd = none → s.count.bankFor s.now = 0 →
    ∃ t, exec .snapshotEdge s = .next t ∧
      t.count.bank0 = { id := s.count.nextId, time := s.localNs, events := s.count.events, stats := s.port.stats } ∧
      t.count.bank1 = s.count.bank1 ∧ t.count.copyEnd = some (s.now + tkUs 2) ∧ t.count.nextId = s.count.nextId + 1 ∧ t.count.snapAt = none) ∧
  (∀ (d : Nat) (s : State), s.count.copyEnd = some d → d ≤ s.now →
    exec .snapshotTaken s = .next (s.count.copyWaiters.foldl
      (fun x w => respond 0x1302 w.msg (doneWith (s.count.bank s.count.copyBank).idTime x))
      (((s.onCount (fun c => { c with newest := some c.copyBank, copyEnd := none, copyWaiters := [] })).postAll
        (s.onCount (fun c => { c with newest := some c.copyBank, copyEnd := none, copyWaiters := [] })).liveStages Ev.snapshotTaken Lv.device 0
          (s.count.bank s.count.copyBank).idTime).raiseIrq 91))) ∧
  (∀ (b : Nat) (s : State), s.count.newest = some b →
    exec .pmcSnapIdRead s = .next (s.onCount (fun c => { c with pin := some (b, s.now + tkMs 10), pinned := b, pinUsed := true }))) ∧
  (∀ (b e : Nat) (s : State), s.count.pin = some (b, e) → e ≤ s.now →
    exec .snapshotPinLapse s = .next (s.onCount (fun c => { c with pin := none })))

/-- A read of an open register returns it; the lowest DWORD of a longer value latches the others; a clearing read clears its counter. A whole DWORD
written reaches its register, a mailbox area takes the bytes enabled. The key arms DEV_RESET for 1 ms; armed, GO resets where MB0 cannot serve it,
and is a LOCKED_WRITE otherwise. Three DWORDs of a word in S0's range are held, and the fourth writes the whole word, or is refused. -/
def Obligations.RegistersAct : Prop :=
  (∀ (addr : Nat) (s : State), s.blockOpen (addr / 4 * 4) = true → latchedAt (addr / 4 * 4) = none →
    exec (.viewLatchRead addr) s = .next (s.returns (s.regAt (addr / 4 * 4)))) ∧
  (∀ (addr : Nat) (s : State), s.blockOpen (addr / 4 * 4) = false → exec (.viewLatchRead addr) s = .next (s.returns 0)) ∧
  (∀ (l i : Nat) (s : State), l < 384 → i < 48 → s.blockOpen (0x800000 + l * 0x200 + i * 8) = true →
    exec (.statisticsClearingRead l i) s = .next (s.hostRead (0x800000 + l * 0x200 + i * 8))) ∧
  (∀ s : State, 2 ≤ s.cmd.mode → exec .ucsWordsRead s = .next ((s.hostRead 0xA08004).onCount (fun c => { c with ucsWords := 0 }))) ∧
  (∀ (a v : Nat) (s : State), a % 4 = 0 → v < 2 ^ 32 → s.blockOpen a = true → (a < 0x100000 ∨ 0x200000 ≤ a) →
    exec (.registerWrite a v 15) s = .next (s.writeReg a v)) ∧
  (∀ s : State, 1 ≤ s.cmd.mode → exec (.devResetKey 0x54455352) s = .next (s.onCount (fun c => { c with resetArmed := some (s.now + tkMs 1) }))) ∧
  (∀ (e : Nat) (s : State), s.count.resetArmed = some e → e ≤ s.now →
    exec .devResetDisarm s = .next (s.onCount (fun c => { c with resetArmed := none }))) ∧
  (∀ (v e : Nat) (s : State), bitOf v 31 = true → s.count.resetArmed = some e → s.now < e → s.cmd.mode = Md.load →
    exec (.devReset v) s = .next (s.resetToLoad 7 0xFD [])) ∧
  (∀ (v : Nat) (s : State), bitOf v 31 = true → s.count.resetArmed = none → 1 ≤ s.cmd.mode → exec (.devReset v) s = .next (s.lockedWrite 0x24)) ∧
  (∀ (w k v be : Nat) (s : State), 6144 ≤ w → w < 8192 → k < 3 → 2 ≤ s.cmd.mode → (s.edit 0).owns w = true →
    exec (.ucsDwordLoad w k v be) s = .next (s.onCount (fun c => { c with
      ucsHold := setAt c.ucsHold k (some (w, mergeBytes ((c.held k w).getD 0) v be)) }))) ∧
  (∀ (w v be cause : Nat) (s : State), 6144 ≤ w → w < 8192 → 2 ≤ s.cmd.mode → s.ucsRefusal w = some cause →
    exec (.ucsWordWrite w v be) s = .next (s.ucsRefuse cause w)) ∧
  (∀ (w v be : Nat) (s : State), 6144 ≤ w → w < 8192 → 2 ≤ s.cmd.mode → s.ucsRefusal w = none →
    ∃ t, exec (.ucsWordWrite w v be) s = .next t ∧ t.count.ucsHold = [none, none, none] ∧ t.count.ucsWords = (s.count.ucsWords + 1) % 2 ^ 32)

/-- DIAG_READ takes the word its target names while the window permits it; DIAG_WRITE puts DATA there, counts it and tells the stage; at completion BUSY
clears, a word read stands in DATA and source 93 is raised. A cycle of TCK moves the controller by TMS and shifts by its state; TRST_N resets it. -/
def Obligations.DiagAndTapAct : Prop :=
  (∀ s : State, s.diagFree = true → s.diagStatusOf (diagTargetOf s.count.diagTarget) = St.done →
    exec .diagRead s = .next (s.onCount (fun c => { c with
      diagBusy := some St.done, diagRead := some (s.diagRead (diagTargetOf s.count.diagTarget)) }))) ∧
  (∀ (st : Nat) (s : State), s.diagFree = true → s.diagStatusOf (diagTargetOf s.count.diagTarget) = st → st ≠ St.done →
    exec .diagRead s = .next (s.onCount (fun c => { c with diagBusy := some st, diagRead := none }))) ∧
  (∀ s : State, s.diagFree = true → s.diagStatusOf (diagTargetOf s.count.diagTarget) = St.done →
    exec (.diagWrite false) s = .next ((((s.onCount (fun c => { c with diagBusy := some St.done, diagRead := none })).diagPut
      (diagTargetOf s.count.diagTarget) s.count.diagWord).bump (diagTargetOf s.count.diagTarget).tile 0 0x8C).post 0 Ev.diagWritten Lv.tile
        (diagTargetOf s.count.diagTarget).tile (leBytes 1 (diagTargetOf s.count.diagTarget).tile ++ zeros 3 ++ leBytes 4 s.count.diagTarget))) ∧
  (∀ (st w : Nat) (s : State), s.count.diagBusy = some st → s.count.diagRead = some w →
    exec .diagComplete s = .next ((s.onCount (fun c => { c with
      diagBusy := none, diagStatus := st, diagRead := none, diagData := (range 0 4).map (fun k => bitsOf w (32 * k) 32) })).raiseIrq 93)) ∧
  (∀ (tms tdi low : Bool) (pins : List Bool) (s : State),
    exec (.testAccessPort true tms tdi low pins) s = .next (s.onCount (fun c => { c with tapState := 0, tapInst := 0, tapDrives := false }))) ∧
  (∀ (tms tdi low : Bool) (pins : List Bool) (s : State), s.cmd.mode ≠ Md.rehearsal →
    exec (.testAccessPort false tms tdi low pins) s = .next (s.onCount (fun c => c.tck tms tdi low pins)))

/-- An open lane's next visible message is taken and judged; a response goes into its free area, with its interrupt; an event record is written where
there is room, the count of those dropped first, and without room the oldest that completes no command is dropped. A doorbell in order publishes its
message and expects the next SEQ, one out of order is rejected; writing 1 frees a response area; the holdoff's end fires a vector. -/
def Obligations.MailboxesAct : Prop :=
  (∀ (r : Nat) (x : InMsg) (rest : List InMsg) (ext : Option (List Byte)) (s : State), r < 8 → s.laneOpen (.mailbox r) = true →
    (s.mb r).intake = x :: rest → x.visibleAt ≤ s.now →
    exec (.commandTake (.mailbox r) ext) s = .next ((s.onMb r (fun b => { b with intake := rest })).judgeTaken
      { bytes := x.bytes, len := x.len, seq := x.seq } (.mailbox r) ext)) ∧
  (∀ (r : Nat) (x : Rsp) (rest : List Rsp) (s : State), r < 8 → (s.mb r).responses = x :: rest → (s.mb r).rspValid = false →
    exec (.responseDelivery r false) s = .next ((((((s.onHost (fun h => { h with
        areas := Memory.writeN h.areas (mbBase r + 0x4000) (x.bytes false) })).onMb r (fun b => { b with
        responses := rest, rspSeq := x.seq, rspLen := 16 + x.payload.length, rspValid := true })).raiseIrq (64 + r)).startResetClock r x)).noteDelivered
          r false x)) ∧
  (∀ (r : Nat) (x : Rsp) (rest : List Rsp) (s : State), r < 8 → (s.mb r).uresponses = x :: rest → (s.mb r).urspValid = false →
    exec (.responseDelivery r true) s = .next ((((((s.onHost (fun h => { h with
        areas := Memory.writeN h.areas (mbBase r + 0x11000) (x.bytes true) })).onMb r (fun b => { b with
        uresponses := rest, urspSeq := x.seq, urspLen := 16 + x.payload.length, urspValid := true, urgBusy := false })).raiseIrq
          (72 + r)).startResetClock r x)).noteDelivered r true x)) ∧
  (∀ (r : Nat) (e : EvRec) (rest : List EvRec) (s : State), r < 8 → (s.mb r).evtFull = false → (s.mb r).dropped = 0 → (s.mb r).posted = e :: rest →
    exec (.eventPost r) s = .next ((s.writeEvent r e).onMb r (fun b => { b with posted := rest }))) ∧
  (∀ (r : Nat) (s : State), r < 8 → (s.mb r).evtFull = false → 0 < (s.mb r).dropped →
    exec (.eventPost r) s = .next ((s.writeEvent r (lostRecord s (s.mb r).dropped)).onMb r (fun b => { b with dropped := 0 }))) ∧
  (∀ (r : Nat) (e : EvRec) (s : State), r < 8 → (s.mb r).evtFull = true → (s.mb r).posted.find? (fun x => !x.completion) = some e →
    exec (.eventPost r) s = .next ((s.onMb r (fun b => { b with posted := b.posted.erase e, dropped := b.dropped + 1 })).bump 8 0 (0xB0 + r))) ∧
  (∀ (r seq len copy : Nat) (s : State), r < 8 → seq < 65536 → len < 65536 → doorbellRefusal (s.mb r) seq len = none →
    exec (.mbDoorbell r (seq * 65536 + len) copy) s = .next (s.onMb r (fun b => { b with
      intake := b.intake ++ [s.copyMessage r 0 seq len copy], any := false, nextSeq := (seq + 1) % 65536,
      cmdBusyUntil := s.now + min copy (tkUs 1) }))) ∧
  (∀ (r seq len copy c : Nat) (s : State), r < 8 → seq < 65536 → len < 65536 → doorbellRefusal (s.mb r) seq len = some c →
    exec (.mbDoorbell r (seq * 65536 + len) copy) s = .next (s.rejectDoorbell r c)) ∧
  (∀ (r seq len copy : Nat) (s : State), r < 8 → seq < 65536 → len < 65536 → udoorbellRefusal (s.mb r) seq len = none →
    exec (.mbUdoorbell r (seq * 65536 + len) copy) s = .next (s.onMb r (fun b => { b with
      urgIntake := some (s.copyMessage r 0x10000 seq len copy), urgBusy := true, uany := false, nextUseq := (seq + 1) % 65536,
      ucmdBusyUntil := s.now + min copy (tkUs 1) }))) ∧
  (∀ (r value : Nat) (s : State), r < 8 →
    exec (.rspValidWrite r) s = .next (s.onMb r (fun b => { b with rspValid := false })) ∧
    exec (.urspValidWrite r) s = .next (s.onMb r (fun b => { b with urspValid := false })) ∧
    exec (.mbEvtConsWrite r value) s = .next (s.onMb r (fun b => { b with evtCons := value % 512 }))) ∧
  (∀ (v t : Nat) (s : State), v < 64 → (SMap.get IrqVec.reset v s.host.vecs).firstAt = some t →
    t + tkUs (SMap.get IrqVec.reset v s.host.vecs).holdoff ≤ s.now →
    exec (.irqHoldoffExpiry v) s = .next (s.onHost (fun h => { h with
      vecs := SMap.put IrqVec.reset v (SMap.get IrqVec.reset v s.host.vecs).fire h.vecs })))

/-- With a good PEC the offset is set, and a block of 1–32 bytes is written or read at it and advances it; with a wrong one nothing happens. PERST_N,
an FLR and the link's loss reset the host path; once the link is up again MB0 is told and the reset is recorded. -/
def Obligations.SmbusAndHostResetsAct : Prop :=
  (∀ (offset copy n : Nat) (data : List Byte) (s : State), 1 ≤ data.length → data.length ≤ 32 → 1 ≤ n → n ≤ 32 →
    exec (.smbusSetOffset offset true) s = .next (s.onHost (fun h => { h with smbOffset := offset % 131072 })) ∧
    exec (.smbusBlockWrite data true copy) s = .next ((s.writeMbBytes 5 s.host.smbOffset data copy).onHost (fun h => { h with
      smbOffset := (h.smbOffset + data.length) % 131072 })) ∧
    exec (.smbusBlockRead n true) s = .next (s.onHost (fun h => { h with
      smbRead := (range 0 n).map (fun i => s.readMbByte 5 ((s.host.smbOffset + i) % 131072)), smbOffset := (s.host.smbOffset + n) % 131072 }))) ∧
  (∀ (offset copy n : Nat) (data : List Byte) (s : State),
    exec (.smbusSetOffset offset false) s = .next s ∧ exec (.smbusBlockWrite data false copy) s = .next s ∧
    exec (.smbusBlockRead n false) s = .next s) ∧
  (∀ s : State, exec .smbusTimeout s = .next (s.onHost (fun h => { h with smbHeld := false }))) ∧
  (∀ s : State, exec (.perstN true) s = .next ((s.hostPathReset true).onHost (fun h => { h with perstLow := true })) ∧
    exec (.perstN false) s = .next (s.onHost (fun h => { h with perstLow := false }))) ∧
  (∀ s : State, exec .functionLevelReset s = .next (s.hostPathReset true) ∧ exec .hostLinkLoss s = .next (s.hostPathReset false)) ∧
  (∀ s : State, s.host.perstLow = false → s.host.linkUp = false → s.host.resetUnreported = true →
    exec .hostLinkReset s = .next (((s.onHost (fun h => { h with linkUp := true, resetUnreported := false })).post 0 Ev.hostLinkReset Lv.device 0
      []).report (Report.of Fc.hostLinkReset Lv.device 0 7 0 0 0 0)))

/-- ENABLE on an assigned ring of a legal size zeroes the indices and the ring runs, where the mode does not hold its kind; cleared, fetching stops, and
a ring in ERROR is OFF. A flush samples SQ_PROD and completes the unstarted entries; it ends when all are fetched and nothing is outstanding. A poll
that is due fetches what is published and can be completed. A WORK ring's oldest item starts, and its answer is written. A bulk transfer fills the
oldest posted buffer. The sheepdog visits every allocated buffer. -/
def Obligations.RingEventsAct : Prop :=
  (∀ (p : Nat) (s : State), p < 64 → (s.ring p).enable = false → (s.ring p).assigned = true → 6 ≤ (s.ring p).logSize → (s.ring p).logSize ≤ 16 →
    2 ≤ s.cmd.mode → ringHeldIn s s.cmd.mode (s.ring p).kind = false →
    exec (.ringEnable p) s = .next (s.onRing p (fun _ => { s.ring p with
      sqProd := 0, sqCons := 0, cqProd := 0, cqCons := 0, enable := true, state := 1, errCause := 0, flushDone := false,
      nextPoll := s.now + pollTicks (s.ring p).poll }))) ∧
  (∀ (p : Nat) (s : State), p < 64 → (s.ring p).enable = false → (s.ring p).assigned = false → 2 ≤ s.cmd.mode →
    exec (.ringEnable p) s = .next (s.onRing p (fun _ => { s.ring p with
      sqProd := 0, sqCons := 0, cqProd := 0, cqCons := 0, state := 3, errCause := 3 }))) ∧
  (∀ (p : Nat) (s : State), p < 64 →
    exec (.ringDisable p) s = .next (s.onRing p (fun g =>
      if g.state = 3 then { g with enable := false, state := 0, errCause := 0 } else { g with enable := false }.settle))) ∧
  (∀ (p : Nat) (cqOk : Bool) (s : State), p < 64 → (s.ring p).flush = none → (s.ring p).enable = true → (s.ring p).state ≠ 3 →
    (s.ring p).items.filter (fun i => i.unstarted) = [] →
    exec (.ringFlush p cqOk) s = .next (s.onRing p (fun g => { g with flush := some (g.sqProd % g.size), state := 2, flushDone := false }))) ∧
  (∀ (p P : Nat) (entries : List (List Byte)) (fetchOk cqOk : Bool) (s : State), p < 64 → (s.ring p).flush = some P →
    (s.ring p).published P = 0 → (s.ring p).sqCons = P % (s.ring p).size → (s.ring p).items = [] →
    exec (.flushDone p entries fetchOk cqOk) s = .next ((s.onRing p (fun g => ({ g with
      flush := none, flushDone := true, state := (if ringHeldIn s s.cmd.mode g.kind then 4 else 1) }).settle)).raiseIrq p)) ∧
  (∀ (p : Nat) (entries : List (List Byte)) (cqOk : Bool) (s : State), p < 64 → (s.ring p).enable = true → (s.ring p).state = 1 →
    (s.ring p).nextPoll ≤ s.now → 0 < min ((s.ring p).published (s.ring p).sqProd) (s.ring p).freeCq →
    exec (.ringPoll p entries true cqOk) s = .next ((s.onRing p (fun g => { g with nextPoll := s.now + pollTicks g.poll })).fetchN p entries
      (min ((s.ring p).published (s.ring p).sqProd) (s.ring p).freeCq) cqOk) ∧
    exec (.ringPoll p entries false cqOk) s = .next ((s.onRing p (fun g => { g with nextPoll := s.now + pollTicks g.poll })).ringError p 1)) ∧
  (∀ (p : Nat) (it : Item) (bytes : List Byte) (dmaOk cqOk : Bool) (s : State), p < 64 → (s.ring p).kind = 2 → (s.ring p).state = 1 →
    (s.ring p).answer = none → (s.ring p).firstIn .held = none → (s.ring p).fetchedWork = none → (s.ring p).firstIn .waiting = some it →
    exec (.workItem p bytes dmaOk cqOk) s = .next (s.startWork p it bytes dmaOk cqOk)) ∧
  (∀ (p : Nat) (r : Rsp) (it : Item) (bytes : List Byte) (dmaOk cqOk : Bool) (s : State), p < 64 → (s.ring p).kind = 2 → (s.ring p).state = 1 →
    (s.ring p).answer = some r → (s.ring p).firstIn .held = some it →
    exec (.workItem p bytes dmaOk cqOk) s = .next (s.endWork p it r dmaOk cqOk)) ∧
  (∀ (p : Nat) (d : DumpJob) (it : Item) (cqOk : Bool) (s : State), p < 64 → (s.ring p).kind = 3 → (s.ring p).state = 1 →
    s.host.dumps.find? (fun d => d.pair == p) = some d → (s.ring p).firstIn .waiting = some it →
    s.allocBuffer p (s.ring p).stage (fieldLE it.entry 8 4) = none →
    exec (.dumpFill p true cqOk) s = .next (s.completeItem p it (Comp.of Rc.noPool) cqOk)) ∧
  (∀ (p : Nat) (d : DumpJob) (it : Item) (key : Nat) (cqOk : Bool) (s s1 : State), p < 64 → (s.ring p).kind = 3 → (s.ring p).state = 1 →
    s.host.dumps.find? (fun d => d.pair == p) = some d → (s.ring p).firstIn .waiting = some it →
    s.allocBuffer p (s.ring p).stage (fieldLE it.entry 8 4) = some (key, s1) → fieldLE it.entry 8 4 < d.left.length →
    exec (.dumpFill p true cqOk) s = .next (((((s1.setItem p it { it with buffer := some key }).hostWrite (fieldLE it.entry 0 8)
      (d.left.take (fieldLE it.entry 8 4))).moved p (fieldLE it.entry 8 4)).onHost (fun h => { h with
        dumps := h.dumps.map (fun (x : DumpJob) =>
          if x = d then { d with left := d.left.drop (fieldLE it.entry 8 4), fragment := d.fragment + 1 } else x) })).completeItem p
            { it with buffer := some key } { code := Rc.ok, b3 := 0, w4 := fieldLE it.entry 8 4, w8 := d.tag, w12 := d.fragment } cqOk)) ∧
  (∀ (cqOk : Bool) (s : State),
    exec (.sheepdogVisit cqOk) s = .next (forEach (s.host.pools.buffers.map (fun e => e.1)) (fun k s => s.visitBuffer cqOk k) s))

/-- RING.ASSIGN gives an OFF pair its stage, kind and host queue; RING.POOLS sets the buffer counts within 48 MiB; RING.QUOTA a side stage's quota out
of S0's; RING.CAP an owner's cap and ages; RING.RELEASE frees a retained buffer whose GEN matches; RING.STATUS returns what is the sender's. -/
def Obligations.RingGroupActs : Prop :=
  Completes opRingAssign .ringAssign
    (fun m s => m.plen = 4 ∧ m.u8 0 ≤ 63 ∧ m.u8 1 ≤ 4 ∧ s.stageLive (m.u8 1) = true ∧ m.u8 2 ≤ 3 ∧ m.u8 3 ≤ 7 ∧ (m.u8 2 = 1 ∨ m.u8 3 = 0) ∧
      ((range 0 64).filter (fun j => j != m.u8 0 && (s.ring j).assigned && (s.ring j).kind == 1 && (s.ring j).stage == m.u8 1 &&
        (s.ring j).hostq == m.u8 3)).length < 8 ∧
      (s.ring (m.u8 0)).state = 0 ∧ (s.ring (m.u8 0)).enable = false)
    (fun m s => done (s.onRing (m.u8 0) (fun g => { g with stage := m.u8 1, kind := m.u8 2, hostq := m.u8 3, assigned := true }))) ∧
  Completes opRingPools .ringPools
    (fun m _ => m.plen = 16 ∧ m.u32 0 ≤ 16384 ∧ m.u32 4 ≤ 16384 ∧ m.u32 8 ≤ 16384 ∧ m.u32 12 ≤ 16384 ∧
      poolsBytes [m.u32 0, m.u32 4, m.u32 8, m.u32 12] ≤ 48 * 1048576)
    (fun m s => done (s.onPools (fun p => { p with counts := [m.u32 0, m.u32 4, m.u32 8, m.u32 12] }))) ∧
  Completes opRingQuota .ringQuota
    (fun m s => m.plen = 8 ∧ 1 ≤ m.u8 0 ∧ m.u8 0 ≤ 4 ∧ m.zero 1 3 = true ∧ s.stageLive (m.u8 0) = true ∧
      (s.host.pools.quotas.filter (fun e => e.1 != m.u8 0)).foldl (fun a e => a + e.2) 0 + m.u32 4 ≤ 48 * 1024 ∧
      s.host.pools.stageBytes (m.u8 0) ≤ 1024 * m.u32 4 ∧
      s.host.pools.stageBytes 0 ≤
        (48 * 1024 - (s.host.pools.quotas.filter (fun e => e.1 != m.u8 0)).foldl (fun a e => a + e.2) 0 - m.u32 4) * 1024)
    (fun m s => done (s.onPools (fun p => { p with quotas := SMap.put 0 (m.u8 0) (m.u32 4) p.quotas }))) ∧
  Completes opRingCap .ringCap
    (fun m s => m.plen = 16 ∧ m.u16 0 ≤ 72 ∧ m.zero 2 2 = true ∧ m.u32 4 ≤ 49152 ∧ 10 ≤ m.u32 8 ∧ m.u32 8 ≤ 600000 ∧ m.u32 8 ≤ m.u32 12 ∧
      m.u32 12 ≤ 3600000 ∧ s.ownsOwner (s.stageOf m) (m.u16 0) = true)
    (fun m s => done (s.onPools (fun p => { p with
      limits := SMap.insert (m.u16 0) { capKiB := m.u32 4, ageWarn := m.u32 8, ageReclaim := m.u32 12 } p.limits }))) ∧
  (∀ b : Buffer, Completes opRingRelease .ringRelease
    (fun m s => m.plen = 4 ∧ s.buffer (keyOfHandle (m.u32 0)) = some b ∧ b.gen = genOfHandle (m.u32 0) ∧ b.stage = s.stageOf m ∧ b.retained = true)
    (fun m s => done (s.freeBuffer (keyOfHandle (m.u32 0))))) ∧
  Completes opRingStatus .ringStatusCmd (fun m _ => m.plen = 0) (fun m s => doneWith (ringStatusPayload (s.stageOf m) s) s)

/-- A call takes a frame of the cache, or moves one to the spill area; a return gives it back; a fault in a handler frame is counted, recorded and the
thread restarted; a wake that finds the thread halted stays latched; a service thread's write to the root is recorded and the thread restarted.
START_UP in LOAD reaches HOUSE with both images, and without root firmware stays in LOAD with BOOT_FAIL; a start after a trip records the trip first. -/
def Obligations.ThreadsAct : Prop :=
  (∀ (i : Nat) (s : State), i < 128 → (s.thread i).halted = false → (s.thread i).cached < 4 →
    exec (.frameSpill i) s = .next (s.onThread i (fun _ => { s.thread i with cached := (s.thread i).cached + 1 }))) ∧
  (∀ (i : Nat) (s : State), i < 128 → (s.thread i).halted = false → (s.thread i).cached = 4 → (s.thread i).spilled < 32 →
    exec (.frameSpill i) s = .next (s.onThread i (fun _ => { s.thread i with spilled := (s.thread i).spilled + 1 }))) ∧
  (∀ (i : Nat) (s : State), i < 128 → (s.thread i).halted = false → 1 < (s.thread i).cached →
    exec (.frameFill i) s = .next (s.onThread i (fun _ => { s.thread i with cached := (s.thread i).cached - 1 }))) ∧
  (∀ (i : Nat) (s : State), i < 128 → (s.thread i).halted = false → s.servedBy i = none →
    exec (.frameFault i true) s = .next ((((s.onThread i (fun t => { t with faults := t.faults + 1 })).bump 8 0 (0x06 + i / 64)).report
      (Report.of Fc.frameFault Lv.die 2 7 (6 * 1024 + i) 6 0 0)).restartThread i Fc.frameFault)) ∧
  (∀ (i reason : Nat) (s : State), i < 128 → (s.thread i).halted = true →
    exec (.threadWake i reason false) s = .next (s.onThread i (fun _ => { s.thread i with halted := true, wakes := (s.thread i).wakes ++ [reason] }))) ∧
  (∀ (i address : Nat) (s : State), i < 128 → i % 16 ≠ 0 →
    exec (.rootWrite i address true) s = .next ((s.report (Report.of Fc.rootWrite Lv.die 2 7 (6 * 1024 + i) 1 address 0)).restartThread i
      Fc.rootWrite)) ∧
  (∀ (b : BootInput) (root service : Nat × Image) (s s0 : State), s.cmd.mode = Md.load → s.ctl.bootFail = false → s.fault.fatalLive = false →
    s0 = (if s.cmd.prevMode = Md.dark ∧ s.cmd.dark = DarkCause.trip then s.ledgerWrite 5 (leBytes 1 3 ++ leBytes 1 0xFF) else s) →
    (pickRoot (s0.slots b).ctl b).chosen = some root →
    (pickService ((s0.slots b).recordPick 0 (pickRoot (s0.slots b).ctl b)).ctl b).chosen = some service →
    exec (.startUp b) s = .next ((((s0.slots b).recordPick 0 (pickRoot (s0.slots b).ctl b)).recordPick 2
      (pickService ((s0.slots b).recordPick 0 (pickRoot (s0.slots b).ctl b)).ctl b)).bootHouse b root service)) ∧
  (∀ (b : BootInput) (s s0 : State), s.cmd.mode = Md.load → s.ctl.bootFail = false → s.fault.fatalLive = false →
    s0 = (if s.cmd.prevMode = Md.dark ∧ s.cmd.dark = DarkCause.trip then s.ledgerWrite 5 (leBytes 1 3 ++ leBytes 1 0xFF) else s) →
    (pickRoot (s0.slots b).ctl b).chosen = none →
    exec (.startUp b) s = .next (((s0.slots b).recordPick 0 (pickRoot (s0.slots b).ctl b)).bootFailed 1))

/-- The lead seals the next generation while the understudy keeps up; the understudy adopts one whose check passes and frees the journal, or rejects it.
A beat of the lead resets the misses, one of the other complex is counted; the third miss, or a yield, loses the lead, and a ready understudy takes over.
A reset complex that passes its self-test is READY, else ABSENT. With no complex serving, the attempt whose root firmware starts becomes lead. -/
def Obligations.TakeoverActs : Prop :=
  (∀ s : State, s.ctl.noService = false → s.ctl.sealed + 1 ≤ s.ctl.adopted + 2 →
    exec .generationSeal s = .next (s.onCtl (fun c => { c with sealed := c.sealed + 1, sealValid := true }))) ∧
  (∀ s : State, s.ctl.understudy = 0 → s.ctl.sealValid = true → s.ctl.noService = false →
    exec (.generationAdopt true) s = .next (s.onCtl (fun c => ({ c with adopted := c.sealed, sealValid := false }).freeJournal c.sealed)) ∧
    exec (.generationAdopt false) s = .next ((s.onCtl (fun c => { c with
      genReject := setAt c.genReject (1 - c.lead) (c.genReject.getD (1 - c.lead) 0 + 1), sealValid := false })).bump 8 0 (1 - s.ctl.lead))) ∧
  (∀ s : State, s.ctl.lead < 2 → s.ctl.noService = false →
    exec (.heartbeatWrite s.ctl.lead) s = .next (s.onCtl (fun c => { c with missCount := 0, lastBeat := s.localNs }))) ∧
  (∀ (x : Nat) (s : State), x < 2 → x ≠ s.ctl.lead →
    exec (.heartbeatWrite x) s = .next ((s.onCtl (fun c => { c with
      lateBeat := setAt c.lateBeat x (c.lateBeat.getD x 0 + 1) })).bump 8 0 (0x04 + x))) ∧
  (∀ s : State, s.ctl.noService = false → 2 ≤ s.cmd.mode → s.ctl.lastBeat + 100000 * (s.ctl.missCount + 1) ≤ s.localNs →
    exec .heartbeatMiss s = .next (if s.ctl.missCount + 1 < 3 then s.onCtl (fun c => { c with missCount := c.missCount + 1 }) else s.loseLead)) ∧
  (∀ s : State, 2 ≤ s.cmd.mode → s.ctl.noService = false → s.ctl.understudy = 0 → s.ctl.sealValid = false →
    exec .leadYield s = .next s.flipLead.takeUp) ∧
  (∀ s : State, 2 ≤ s.cmd.mode → s.ctl.noService = false → s.ctl.understudy = 0 → s.ctl.sealValid = true →
    exec .leadYield s = .next (s.onCtl (fun c => ({ c with adopted := c.sealed }).freeJournal c.sealed)).flipLead.takeUp) ∧
  (∀ s : State, 2 ≤ s.cmd.mode → s.ctl.noService = false → s.ctl.understudy ≠ 0 → exec .leadYield s = .next s.controlLostNow) ∧
  (∀ s : State, s.ctl.understudy = 1 → s.ctl.noService = false →
    exec (.understudyReady true) s = .next ((s.onCtl (fun c => ({ c with
      understudy := 0, adopted := c.sealed, sealValid := false }).freeJournal c.sealed)).post 0 Ev.understudyReady Lv.die 2 []) ∧
    exec (.understudyReady false) s = .next ((s.onCtl (fun c => { c with understudy := 2 })).post 0 Ev.understudyAbsent Lv.die 2
      (leBytes 1 0 ++ leBytes 1 (1 - s.ctl.lead) ++ zeros 2))) ∧
  (∀ s : State, s.ctl.noService = true → s.ctl.attempts = 0 → s.ctl.attemptAt ≤ s.now →
    exec (.controlRecoveryAttempt true) s = .next (((s.onCtl (fun c => { c with
      lead := 1 - s.ctl.lead, noService := false, attempts := 0, understudy := 1, missCount := 0, lastBeat := s.localNs,
      sealValid := false })).controlBack).takeUp) ∧
    exec (.controlRecoveryAttempt false) s = .next (s.onCtl (fun c => { c with attempts := c.attempts + 1, attemptAt := s.now })))

/-- The oldest event waiting is written as a JOURNAL record; SNAP_INTERVAL writes each stage's SNAPSHOT; an armed session whose trigger occurs takes the
frames after it; the capture ends, is written, and the session rearms or is idle; a flow that idled out is exported; a drive is added, read and
removed with its extents. -/
def Obligations.RecordEventsAct : Prop :=
  (∀ (e : Nat × List Byte) (rest : List (Nat × List Byte)) (s s1 : State), s.book.toJournal = e :: rest → s.writeRecord e.1 1 0 e.2 = some s1 →
    exec .journalRecordWrite s = .next (s1.onBook (fun b => { b with toJournal := rest }))) ∧
  (∀ s : State, s.book.snapInterval ≠ 0 → s.book.lastSnap + tkS s.book.snapInterval ≤ s.now →
    exec .snapIntervalRecord s = .next (forEach s.liveStages
      (fun k s => (s.writeRecord k 2 0 (snapshotBody s k)).getD (s.loseRecord k 2 0xC1)) (s.onBook (fun b => { b with lastSnap := s.now })))) ∧
  (∀ (k j code : Nat) (s : State), k < 5 → j < 4 → (s.capSession k j).configured = true → (s.capSession k j).triggers.contains code = true → code ≠ 0 →
    exec (.captureTriggered k j code) s = .next (s.triggerCapture k j 1)) ∧
  (∀ (k j : Nat) (s : State), k < 5 → j < 4 → (s.capSession k j).state = 2 → (s.capSession k j).post ≤ framesBytes (s.capSession k j).after →
    exec (.capturePostEnd k j) s = .next (s.onCapture k j (fun c => { c with state := 3, truncated := s.shareSuspended 4 k }))) ∧
  (∀ (k j : Nat) (s s1 : State), k < 5 → j < 4 → (s.capSession k j).state = 3 →
    s.writeRecord k 3 (flagNat (s.capSession k j).damaged + 2 * flagNat (s.capSession k j).truncated)
      (captureBody ((s.capSession k j).before ++ (s.capSession k j).after)) = some s1 →
    exec (.captureDone k j none) s = .next ((s1.onCapture k j (fun c => { c with
      state := (if c.rearm then 1 else 0), before := [], after := [], truncated := false, damaged := false })).post k Ev.captureDone Lv.device j
        (leBytes 1 j ++ zeros 3 ++ leBytes 4 (s.capSession k j).before.length ++ leBytes 4 (s.capSession k j).after.length ++
          leBytes 4 (s.bookRing k 3).next ++ leBytes 2 (flagNat (s.capSession k j).damaged + 2 * flagNat (s.capSession k j).truncated) ++
          zeros 2))) ∧
  (∀ (k j i : Nat) (e : FlowEntry) (s : State), k < 5 → j < 2 → (s.flowSession k j).entries[i]? = some e →
    e.lastT + 1000000000 * (s.flowSession k j).idle ≤ s.netLinear →
    exec (.flowExport k j i none) s = .next (s.exportFlow k j e 0)) ∧
  (∀ (i label pct extents serial : Nat) (critical : Bool) (s s1 : State), i < 4 →
    s1 = s.onBook (fun b => { b with
      drives := SMap.insert i { present := true, label := label, pct := pct, critical := critical, quiesced := false, extents := extents,
                                serial := serial } b.drives }) →
    exec (.driveAdded i label pct extents serial critical) s = .next
      ((if s.book.ledger.any (fun r => r.type == 4 && r.body.take 11 == (identitySeen 2 i serial 0).take 11) then s1
        else s1.ledgerWrite 4 (identitySeen 2 i serial 0)).post 0 Ev.driveAdded Lv.device i (leBytes 1 i ++ leBytes 1 label ++ zeros 2))) ∧
  (∀ (i : Nat) (s : State), i < 4 → (SMap.get Drive.none i s.book.drives).present = true →
    exec (.driveRemoved i) s = .next (((s.onBook (fun b => { b with
      drives := SMap.erase i b.drives, rings := SMap.mapD BookRing.reset (fun _ g => g.loseDrive i) b.rings })).ledgerWrite 4
        (identitySeen 2 i (SMap.get Drive.none i s.book.drives).serial 0)).post 0 Ev.driveRemoved Lv.device i (leBytes 1 i ++ zeros 3))) ∧
  (∀ (i pct : Nat) (critical : Bool) (s : State), i < 4 →
    exec (.smartRead i pct critical) s = .next (s.onBook (fun b => { b with
      drives := SMap.adjust i (fun d => { d with pct := pct, critical := critical }) b.drives })))

/-- Every 10 minutes a CHECKPOINT is written, daily a LANE_TREND and the DRAM's counts; near its tail the ledger is compacted; a backup that is due is
written and posted to MB0, and one that a command waits for completes it. -/
def Obligations.LedgerEventsAct : Prop :=
  (∀ (measured : List Byte) (energy : Nat) (s : State), s.book.checkpointAt + tkS 600 ≤ s.now →
    exec (.ledgerCheckpoint measured energy) s = .next
      ((s.accountSeconds.onBook (fun b => { b with checkpointAt := s.now, energy := energy })).ledgerWrite 1
        (checkpointBody (s.accountSeconds.onBook (fun b => { b with checkpointAt := s.now, energy := energy })) measured))) ∧
  (∀ (trend : List Byte) (s : State), s.book.trendAt + tkS 86400 ≤ s.now →
    exec (.laneTrend trend) s = .next ((s.onBook (fun b => { b with trendAt := s.now })).ledgerWrite 2 trend)) ∧
  (∀ (counts : List Byte) (s : State), s.book.ecsAt + tkS 86400 ≤ s.now →
    exec (.dramEcs counts) s = .next ((s.onBook (fun b => { b with ecsAt := s.now })).ledgerWrite 7 counts)) ∧
  (∀ (failed : List Nat) (s : State), s.book.gapSectors ≠ 0 → s.book.gapSectors ≤ 1024 →
    exec (.ledgerCompaction failed) s = .next (s.compactLedger failed)) ∧
  (∀ (o : Outst) (s : State), s.findOut 0 0x1203 = some o →
    exec .ledgerBackup s = .next (s.backup (fun s st pay => s.finish 0 0x1203 Ev.ledgerBackup Lv.device 0 st pay))) ∧
  (∀ s : State, s.findOut 0 0x1203 = none → s.book.backupAt + tkS 86400 ≤ s.now →
    exec .ledgerBackup s = .next (s.backup (fun s _ pay => s.post 0 Ev.ledgerBackup Lv.device 0 pay)))

/-- RECORD.CONFIG applies its sub-records; RECORD.TRIGGER triggers an ARMED session; RECORD.STATUS returns the record; RECORD.READ sends records to a
DUMP pair and is ACCEPTED; RECORD.DRIVE quiesces a drive or sets a share; LIFE.READ returns ledger records, LIFE.STATUS their summary; LIFE.BACKUP is
ACCEPTED. -/
def Obligations.RecordAndLifeGroupsAct : Prop :=
  Completes opRecordConfig .recordConfig
    (fun m s => m.plen ≠ 0 ∧ m.plen % 40 = 0 ∧ (m.records 0 40).all (fun r => recordSubOk r (s.stageOf m == 0)) = true ∧
      (m.records 0 40).all (fun r => fieldLE r 0 1 == 0 || fieldLE r 0 1 == 2) = true)
    (fun m s => done ((m.records 0 40).foldl (fun x r => x.recordSub (s.stageOf m) r) s)) ∧
  Completes opRecordConfig .recordConfig
    (fun m s => m.plen ≠ 0 ∧ m.plen % 40 = 0 ∧ (m.records 0 40).all (fun r => recordSubOk r (s.stageOf m == 0)) = true ∧
      (m.records 0 40).any (fun r => fieldLE r 0 1 == 3 && s.stageOf m != 0) = false ∧
      (m.records 0 40).any (fun r => fieldLE r 0 1 == 1 && (s.capSession (s.stageOf m) (fieldLE r 1 1)).state == 3) = false ∧
      captureNeed s (s.stageOf m) (m.records 0 40) ≤ s.shareBytes 4 (s.stageOf m))
    (fun m s => done ((m.records 0 40).foldl (fun x r => x.recordSub (s.stageOf m) r) s)) ∧
  Completes opRecordTrigger .recordTrigger
    (fun m s => m.plen = 4 ∧ m.u8 0 ≤ 3 ∧ m.zero 1 3 = true ∧ (s.capSession (s.stageOf m) (m.u8 0)).state = 1)
    (fun m s => done (s.triggerCapture (s.stageOf m) (m.u8 0) 0)) ∧
  Completes opRecordStatus .recordStatus (fun m _ => m.plen = 0) (fun m s => doneWith (recordStatusPayload s (s.stageOf m)) s) ∧
  Completes opRecordRead .recordRead
    (fun m s => m.plen = 12 ∧ 1 ≤ m.u8 0 ∧ m.u8 0 ≤ 5 ∧ m.u8 1 ≤ 1 ∧ m.u8 2 ≤ 63 ∧ m.u8 3 = 0 ∧ s.dumpPairOf (s.stageOf m) (m.u8 2) = true ∧
      s.atLimit m = false)
    (fun m s => accept (s.startDump (m.u8 2) (s.mbOf m) 0x1104 m.tag
      (((((s.bookRing (s.stageOf m) (m.u8 0)).recs.filter (fun r => decide (m.u32 4 ≤ r.rseq))).take (m.u32 8)).map (fun r =>
        readRecord r ((range 0 4).foldl (fun a j => max a (s.capSession (s.stageOf m) j).snapLen) 64) (m.u8 1 == 1))).flatten))) ∧
  Completes opRecordDrive .recordDrive
    (fun m s => m.plen = 8 ∧ m.u8 0 = 1 ∧ m.u8 1 ≤ 3 ∧ m.zero 2 2 = true ∧ m.u32 4 = 0 ∧ (m.async && s.atLimit m) = false ∧
      (SMap.get Drive.none (m.u8 1) s.book.drives).present = true ∧ m.ext.isSome = true)
    (fun m s => done (s.onBook (fun b => { b with
      drives := SMap.insert (m.u8 1) { SMap.get Drive.none (m.u8 1) s.book.drives with quiesced := true } b.drives }))) ∧
  Completes opRecordDrive .recordDrive
    (fun m s => m.plen = 8 ∧ m.u8 0 = 0 ∧ m.u8 1 ≤ 3 ∧ m.zero 2 2 = true ∧ m.u32 4 = 0 ∧ (m.async && s.atLimit m) = false ∧
      (SMap.get Drive.none (m.u8 1) s.book.drives).present = true ∧ m.ext.isSome = true)
    (fun m s => done (s.onBook (fun b => { b with
      drives := SMap.insert (m.u8 1) { SMap.get Drive.none (m.u8 1) s.book.drives with label := 0, quiesced := false } b.drives,
      rings := SMap.mapD BookRing.reset (fun _ g => g.loseDrive (m.u8 1)) b.rings }))) ∧
  Completes opRecordDrive .recordDrive
    (fun m s => m.plen = 8 ∧ m.u8 0 = 2 ∧ 1 ≤ m.u8 1 ∧ m.u8 1 ≤ 4 ∧ m.zero 2 2 = true ∧ s.stageLive (m.u8 1) = true ∧
      (m.async && s.atLimit m) = false ∧ s.book.usedBy (m.u8 1) ≤ m.u32 4 ∧
      (s.book.shares.filter (fun e => e.1 != m.u8 1 && e.1 != 0)).foldl (fun a e => a + e.2) 0 + m.u32 4 + s.book.usedBy 0 ≤ s.book.allExtents)
    (fun m s => done (s.onBook (fun b => { b with shares := SMap.put 0 (m.u8 1) (m.u32 4) b.shares }))) ∧
  Completes opLifeRead .lifeRead
    (fun m s => m.plen = 12 ∧ m.u16 0 < 0x100 ∧ m.u8 2 = 0xFF ∧ m.u8 3 = 0 ∧ (m.async && s.atLimit m) = false ∧
      ((((s.book.ledger.filter (fun r => (m.u16 0).testBit r.type && decide (m.u32 4 ≤ r.lseq))).take (m.u32 8)).map
        LedgerRec.bytes).flatten).length ≤ 16368)
    (fun m s => doneWith ((((s.book.ledger.filter (fun r => (m.u16 0).testBit r.type && decide (m.u32 4 ≤ r.lseq))).take (m.u32 8)).map
      LedgerRec.bytes).flatten) s) ∧
  Completes opLifeStatus .lifeStatus (fun m _ => m.plen = 0) (fun _ s => doneWith (lifeStatusRecord s) s) ∧
  Completes opLifeBackup .lifeBackup (fun m s => m.plen = 0 ∧ s.atLimit m = false) (fun _ s => accept s)

/-- A read at an address of BAR0 that the manual lists nowhere, whether outside every block or at a reserved offset inside one, returns zero and changes
nothing else; a write there changes nothing, whatever its value and byte enables. -/
def Obligations.UnlistedAddressesDoNothing : Prop :=
  ∀ (addr v be : Nat) (s : State), barListed (addr / 4 * 4) = false →
    exec (.viewLatchRead addr) s = .next (s.returns 0) ∧ exec (.registerWrite addr v be) s = .next s

/-- In an open block a read of the lowest DWORD of a value loads the view's latch with all the higher DWORDs as they stand in that same state and returns
the low one; a read of a higher DWORD returns the latch, whichever value loaded it, and changes nothing else. No read touches another view's latch; only a
low word of the CLEAR view changes a counter, the one it names. -/
def Obligations.ViewsLatchTheirHigherDwords : Prop :=
  (∀ (addr : Nat) (x : Latched) (s : State), s.blockOpen (addr / 4 * 4) = true → latchedAt (addr / 4 * 4) = some x → x.place = 0 →
    ∃ t, exec (.viewLatchRead addr) s = .next t ∧ t.count.readData = s.regAt (addr / 4 * 4) ∧
      SMap.find x.view t.count.latches = some ((range 1 (x.count - 1)).map (fun j => s.regAt (x.low + 4 * j))) ∧
      (∀ v, v ≠ x.view → SMap.find v t.count.latches = SMap.find v s.count.latches) ∧
      t = (({ s with port := t.port }).onCount (fun c => { c with latches := t.count.latches })).returns (s.regAt (addr / 4 * 4)) ∧
      (x.view ≠ 5 → t.port = s.port) ∧
      (∀ key, key ≠ (addr / 4 * 4 - 0x800000) / 0x200 * 64 + addr / 4 * 4 % 0x200 / 8 → SMap.find key t.port.stats = SMap.find key s.port.stats)) ∧
  (∀ (addr : Nat) (x : Latched) (s : State), s.blockOpen (addr / 4 * 4) = true → latchedAt (addr / 4 * 4) = some x → x.place ≠ 0 →
    exec (.viewLatchRead addr) s = .next (s.returns ((SMap.get [] x.view s.count.latches).getD (x.place - 1) 0)))

/-- For each command of the catalogue: a lane the device lacks stops it by name; while no complex serves it waits, unchanged; with the journal full it is
answered BUSY and nothing more; and where a check of class, lane, flags or mode (steps 3 to 5 of R414) fails, the first that fails is the answer, with no
effect beside the journal's entries and the response. -/
def Obligations.CommandsAreJudgedFirst : Prop :=
  ∀ (c : Instr) (o : Op) (m : Msg) (s : State), c.command = some (o, m) →
    (laneOk m.lane = false → exec c s = .fault .noSuchUnit) ∧
    (laneOk m.lane = true → s.ctl.noService = true → exec c s = .next s) ∧
    (laneOk m.lane = true → s.ctl.noService = false → s.journalFull m = true →
      exec c s = .next (s.putResponse m (responseOf o.code m s St.busy []))) ∧
    (∀ st, laneOk m.lane = true → s.ctl.noService = false → s.journalFull m = false → judge o m (s.intake o m) = some st →
      exec c s = .next (respond o.code m (deny st (s.intake o m))))

/-- Whatever its operands and the state, a command of class R that answers a next state has waited, been answered BUSY for want of journal room, or
answered some status and payload on the state as it took it up: beside the journal's entries and the response it changes nothing,
but for the model's note of where a walk of TABLE.READ began, from which MOVED is counted (the model's choice: log entry 22). -/
def Obligations.ReadCommandsOnlyAnswer : Prop :=
  ∀ (c : Instr) (o : Op) (m : Msg) (s t : State), c.command = some (o, m) → o.cls = .read → exec c s = .next t →
    t = s ∨ t = s.putResponse m (responseOf o.code m s St.busy []) ∨
    ∃ (st : Nat) (pay : List Byte) (w : SMap Nat), st ≠ St.accepted ∧ (o.code ≠ 0x0708 → w = s.tab.walks) ∧
      t = respond o.code m { state := (s.intake o m).onTab (fun a => { a with walks := w }), status := st, payload := pay, held := false }
end

