-- ==== Sys2Proof/Laws/State.lean ====
section
/-! SUPPORT. Every field of State after every update of one component, so that no later proof unfolds a record update. -/
namespace Sys2Proof.Machine

@[simp] theorem State.onHost_now (s : State) (f : HostSt → HostSt) : (s.onHost f).now = s.now := rfl
@[simp] theorem State.onHost_free (s : State) (f : HostSt → HostSt) : (s.onHost f).free = s.free := rfl
@[simp] theorem State.onHost_host (s : State) (f : HostSt → HostSt) : (s.onHost f).host = f s.host := rfl
@[simp] theorem State.onHost_fault (s : State) (f : HostSt → HostSt) : (s.onHost f).fault = s.fault := rfl
@[simp] theorem State.onHost_ctl (s : State) (f : HostSt → HostSt) : (s.onHost f).ctl = s.ctl := rfl
@[simp] theorem State.onHost_cmd (s : State) (f : HostSt → HostSt) : (s.onHost f).cmd = s.cmd := rfl
@[simp] theorem State.onHost_power (s : State) (f : HostSt → HostSt) : (s.onHost f).power = s.power := rfl
@[simp] theorem State.onHost_time (s : State) (f : HostSt → HostSt) : (s.onHost f).time = s.time := rfl
@[simp] theorem State.onHost_book (s : State) (f : HostSt → HostSt) : (s.onHost f).book = s.book := rfl
@[simp] theorem State.onHost_surr (s : State) (f : HostSt → HostSt) : (s.onHost f).surr = s.surr := rfl
@[simp] theorem State.onHost_count (s : State) (f : HostSt → HostSt) : (s.onHost f).count = s.count := rfl
@[simp] theorem State.onHost_port (s : State) (f : HostSt → HostSt) : (s.onHost f).port = s.port := rfl
@[simp] theorem State.onHost_tab (s : State) (f : HostSt → HostSt) : (s.onHost f).tab = s.tab := rfl
@[simp] theorem State.onHost_sw (s : State) (f : HostSt → HostSt) : (s.onHost f).sw = s.sw := rfl
@[simp] theorem State.onHost_mem (s : State) (f : HostSt → HostSt) : (s.onHost f).mem = s.mem := rfl
@[simp] theorem State.onHost_pending (s : State) (f : HostSt → HostSt) : (s.onHost f).pending = s.pending := rfl
@[simp] theorem State.onFault_now (s : State) (f : FaultSt → FaultSt) : (s.onFault f).now = s.now := rfl
@[simp] theorem State.onFault_free (s : State) (f : FaultSt → FaultSt) : (s.onFault f).free = s.free := rfl
@[simp] theorem State.onFault_host (s : State) (f : FaultSt → FaultSt) : (s.onFault f).host = s.host := rfl
@[simp] theorem State.onFault_fault (s : State) (f : FaultSt → FaultSt) : (s.onFault f).fault = f s.fault := rfl
@[simp] theorem State.onFault_ctl (s : State) (f : FaultSt → FaultSt) : (s.onFault f).ctl = s.ctl := rfl
@[simp] theorem State.onFault_cmd (s : State) (f : FaultSt → FaultSt) : (s.onFault f).cmd = s.cmd := rfl
@[simp] theorem State.onFault_power (s : State) (f : FaultSt → FaultSt) : (s.onFault f).power = s.power := rfl
@[simp] theorem State.onFault_time (s : State) (f : FaultSt → FaultSt) : (s.onFault f).time = s.time := rfl
@[simp] theorem State.onFault_book (s : State) (f : FaultSt → FaultSt) : (s.onFault f).book = s.book := rfl
@[simp] theorem State.onFault_surr (s : State) (f : FaultSt → FaultSt) : (s.onFault f).surr = s.surr := rfl
@[simp] theorem State.onFault_count (s : State) (f : FaultSt → FaultSt) : (s.onFault f).count = s.count := rfl
@[simp] theorem State.onFault_port (s : State) (f : FaultSt → FaultSt) : (s.onFault f).port = s.port := rfl
@[simp] theorem State.onFault_tab (s : State) (f : FaultSt → FaultSt) : (s.onFault f).tab = s.tab := rfl
@[simp] theorem State.onFault_sw (s : State) (f : FaultSt → FaultSt) : (s.onFault f).sw = s.sw := rfl
@[simp] theorem State.onFault_mem (s : State) (f : FaultSt → FaultSt) : (s.onFault f).mem = s.mem := rfl
@[simp] theorem State.onFault_pending (s : State) (f : FaultSt → FaultSt) : (s.onFault f).pending = s.pending := rfl
@[simp] theorem State.onCtl_now (s : State) (f : ControlSt → ControlSt) : (s.onCtl f).now = s.now := rfl
@[simp] theorem State.onCtl_free (s : State) (f : ControlSt → ControlSt) : (s.onCtl f).free = s.free := rfl
@[simp] theorem State.onCtl_host (s : State) (f : ControlSt → ControlSt) : (s.onCtl f).host = s.host := rfl
@[simp] theorem State.onCtl_fault (s : State) (f : ControlSt → ControlSt) : (s.onCtl f).fault = s.fault := rfl
@[simp] theorem State.onCtl_ctl (s : State) (f : ControlSt → ControlSt) : (s.onCtl f).ctl = f s.ctl := rfl
@[simp] theorem State.onCtl_cmd (s : State) (f : ControlSt → ControlSt) : (s.onCtl f).cmd = s.cmd := rfl
@[simp] theorem State.onCtl_power (s : State) (f : ControlSt → ControlSt) : (s.onCtl f).power = s.power := rfl
@[simp] theorem State.onCtl_time (s : State) (f : ControlSt → ControlSt) : (s.onCtl f).time = s.time := rfl
@[simp] theorem State.onCtl_book (s : State) (f : ControlSt → ControlSt) : (s.onCtl f).book = s.book := rfl
@[simp] theorem State.onCtl_surr (s : State) (f : ControlSt → ControlSt) : (s.onCtl f).surr = s.surr := rfl
@[simp] theorem State.onCtl_count (s : State) (f : ControlSt → ControlSt) : (s.onCtl f).count = s.count := rfl
@[simp] theorem State.onCtl_port (s : State) (f : ControlSt → ControlSt) : (s.onCtl f).port = s.port := rfl
@[simp] theorem State.onCtl_tab (s : State) (f : ControlSt → ControlSt) : (s.onCtl f).tab = s.tab := rfl
@[simp] theorem State.onCtl_sw (s : State) (f : ControlSt → ControlSt) : (s.onCtl f).sw = s.sw := rfl
@[simp] theorem State.onCtl_mem (s : State) (f : ControlSt → ControlSt) : (s.onCtl f).mem = s.mem := rfl
@[simp] theorem State.onCtl_pending (s : State) (f : ControlSt → ControlSt) : (s.onCtl f).pending = s.pending := rfl
@[simp] theorem State.onCmd_now (s : State) (f : CmdSt → CmdSt) : (s.onCmd f).now = s.now := rfl
@[simp] theorem State.onCmd_free (s : State) (f : CmdSt → CmdSt) : (s.onCmd f).free = s.free := rfl
@[simp] theorem State.onCmd_host (s : State) (f : CmdSt → CmdSt) : (s.onCmd f).host = s.host := rfl
@[simp] theorem State.onCmd_fault (s : State) (f : CmdSt → CmdSt) : (s.onCmd f).fault = s.fault := rfl
@[simp] theorem State.onCmd_ctl (s : State) (f : CmdSt → CmdSt) : (s.onCmd f).ctl = s.ctl := rfl
@[simp] theorem State.onCmd_cmd (s : State) (f : CmdSt → CmdSt) : (s.onCmd f).cmd = f s.cmd := rfl
@[simp] theorem State.onCmd_power (s : State) (f : CmdSt → CmdSt) : (s.onCmd f).power = s.power := rfl
@[simp] theorem State.onCmd_time (s : State) (f : CmdSt → CmdSt) : (s.onCmd f).time = s.time := rfl
@[simp] theorem State.onCmd_book (s : State) (f : CmdSt → CmdSt) : (s.onCmd f).book = s.book := rfl
@[simp] theorem State.onCmd_surr (s : State) (f : CmdSt → CmdSt) : (s.onCmd f).surr = s.surr := rfl
@[simp] theorem State.onCmd_count (s : State) (f : CmdSt → CmdSt) : (s.onCmd f).count = s.count := rfl
@[simp] theorem State.onCmd_port (s : State) (f : CmdSt → CmdSt) : (s.onCmd f).port = s.port := rfl
@[simp] theorem State.onCmd_tab (s : State) (f : CmdSt → CmdSt) : (s.onCmd f).tab = s.tab := rfl
@[simp] theorem State.onCmd_sw (s : State) (f : CmdSt → CmdSt) : (s.onCmd f).sw = s.sw := rfl
@[simp] theorem State.onCmd_mem (s : State) (f : CmdSt → CmdSt) : (s.onCmd f).mem = s.mem := rfl
@[simp] theorem State.onCmd_pending (s : State) (f : CmdSt → CmdSt) : (s.onCmd f).pending = s.pending := rfl
@[simp] theorem State.onPower_now (s : State) (f : PowerSt → PowerSt) : (s.onPower f).now = s.now := rfl
@[simp] theorem State.onPower_free (s : State) (f : PowerSt → PowerSt) : (s.onPower f).free = s.free := rfl
@[simp] theorem State.onPower_host (s : State) (f : PowerSt → PowerSt) : (s.onPower f).host = s.host := rfl
@[simp] theorem State.onPower_fault (s : State) (f : PowerSt → PowerSt) : (s.onPower f).fault = s.fault := rfl
@[simp] theorem State.onPower_ctl (s : State) (f : PowerSt → PowerSt) : (s.onPower f).ctl = s.ctl := rfl
@[simp] theorem State.onPower_cmd (s : State) (f : PowerSt → PowerSt) : (s.onPower f).cmd = s.cmd := rfl
@[simp] theorem State.onPower_power (s : State) (f : PowerSt → PowerSt) : (s.onPower f).power = f s.power := rfl
@[simp] theorem State.onPower_time (s : State) (f : PowerSt → PowerSt) : (s.onPower f).time = s.time := rfl
@[simp] theorem State.onPower_book (s : State) (f : PowerSt → PowerSt) : (s.onPower f).book = s.book := rfl
@[simp] theorem State.onPower_surr (s : State) (f : PowerSt → PowerSt) : (s.onPower f).surr = s.surr := rfl
@[simp] theorem State.onPower_count (s : State) (f : PowerSt → PowerSt) : (s.onPower f).count = s.count := rfl
@[simp] theorem State.onPower_port (s : State) (f : PowerSt → PowerSt) : (s.onPower f).port = s.port := rfl
@[simp] theorem State.onPower_tab (s : State) (f : PowerSt → PowerSt) : (s.onPower f).tab = s.tab := rfl
@[simp] theorem State.onPower_sw (s : State) (f : PowerSt → PowerSt) : (s.onPower f).sw = s.sw := rfl
@[simp] theorem State.onPower_mem (s : State) (f : PowerSt → PowerSt) : (s.onPower f).mem = s.mem := rfl
@[simp] theorem State.onPower_pending (s : State) (f : PowerSt → PowerSt) : (s.onPower f).pending = s.pending := rfl
@[simp] theorem State.onTime_now (s : State) (f : TimeSt → TimeSt) : (s.onTime f).now = s.now := rfl
@[simp] theorem State.onTime_free (s : State) (f : TimeSt → TimeSt) : (s.onTime f).free = s.free := rfl
@[simp] theorem State.onTime_host (s : State) (f : TimeSt → TimeSt) : (s.onTime f).host = s.host := rfl
@[simp] theorem State.onTime_fault (s : State) (f : TimeSt → TimeSt) : (s.onTime f).fault = s.fault := rfl
@[simp] theorem State.onTime_ctl (s : State) (f : TimeSt → TimeSt) : (s.onTime f).ctl = s.ctl := rfl
@[simp] theorem State.onTime_cmd (s : State) (f : TimeSt → TimeSt) : (s.onTime f).cmd = s.cmd := rfl
@[simp] theorem State.onTime_power (s : State) (f : TimeSt → TimeSt) : (s.onTime f).power = s.power := rfl
@[simp] theorem State.onTime_time (s : State) (f : TimeSt → TimeSt) : (s.onTime f).time = f s.time := rfl
@[simp] theorem State.onTime_book (s : State) (f : TimeSt → TimeSt) : (s.onTime f).book = s.book := rfl
@[simp] theorem State.onTime_surr (s : State) (f : TimeSt → TimeSt) : (s.onTime f).surr = s.surr := rfl
@[simp] theorem State.onTime_count (s : State) (f : TimeSt → TimeSt) : (s.onTime f).count = s.count := rfl
@[simp] theorem State.onTime_port (s : State) (f : TimeSt → TimeSt) : (s.onTime f).port = s.port := rfl
@[simp] theorem State.onTime_tab (s : State) (f : TimeSt → TimeSt) : (s.onTime f).tab = s.tab := rfl
@[simp] theorem State.onTime_sw (s : State) (f : TimeSt → TimeSt) : (s.onTime f).sw = s.sw := rfl
@[simp] theorem State.onTime_mem (s : State) (f : TimeSt → TimeSt) : (s.onTime f).mem = s.mem := rfl
@[simp] theorem State.onTime_pending (s : State) (f : TimeSt → TimeSt) : (s.onTime f).pending = s.pending := rfl
@[simp] theorem State.onBook_now (s : State) (f : RecordSt → RecordSt) : (s.onBook f).now = s.now := rfl
@[simp] theorem State.onBook_free (s : State) (f : RecordSt → RecordSt) : (s.onBook f).free = s.free := rfl
@[simp] theorem State.onBook_host (s : State) (f : RecordSt → RecordSt) : (s.onBook f).host = s.host := rfl
@[simp] theorem State.onBook_fault (s : State) (f : RecordSt → RecordSt) : (s.onBook f).fault = s.fault := rfl
@[simp] theorem State.onBook_ctl (s : State) (f : RecordSt → RecordSt) : (s.onBook f).ctl = s.ctl := rfl
@[simp] theorem State.onBook_cmd (s : State) (f : RecordSt → RecordSt) : (s.onBook f).cmd = s.cmd := rfl
@[simp] theorem State.onBook_power (s : State) (f : RecordSt → RecordSt) : (s.onBook f).power = s.power := rfl
@[simp] theorem State.onBook_time (s : State) (f : RecordSt → RecordSt) : (s.onBook f).time = s.time := rfl
@[simp] theorem State.onBook_book (s : State) (f : RecordSt → RecordSt) : (s.onBook f).book = f s.book := rfl
@[simp] theorem State.onBook_surr (s : State) (f : RecordSt → RecordSt) : (s.onBook f).surr = s.surr := rfl
@[simp] theorem State.onBook_count (s : State) (f : RecordSt → RecordSt) : (s.onBook f).count = s.count := rfl
@[simp] theorem State.onBook_port (s : State) (f : RecordSt → RecordSt) : (s.onBook f).port = s.port := rfl
@[simp] theorem State.onBook_tab (s : State) (f : RecordSt → RecordSt) : (s.onBook f).tab = s.tab := rfl
@[simp] theorem State.onBook_sw (s : State) (f : RecordSt → RecordSt) : (s.onBook f).sw = s.sw := rfl
@[simp] theorem State.onBook_mem (s : State) (f : RecordSt → RecordSt) : (s.onBook f).mem = s.mem := rfl
@[simp] theorem State.onBook_pending (s : State) (f : RecordSt → RecordSt) : (s.onBook f).pending = s.pending := rfl
@[simp] theorem State.onSurr_now (s : State) (f : SurroundSt → SurroundSt) : (s.onSurr f).now = s.now := rfl
@[simp] theorem State.onSurr_free (s : State) (f : SurroundSt → SurroundSt) : (s.onSurr f).free = s.free := rfl
@[simp] theorem State.onSurr_host (s : State) (f : SurroundSt → SurroundSt) : (s.onSurr f).host = s.host := rfl
@[simp] theorem State.onSurr_fault (s : State) (f : SurroundSt → SurroundSt) : (s.onSurr f).fault = s.fault := rfl
@[simp] theorem State.onSurr_ctl (s : State) (f : SurroundSt → SurroundSt) : (s.onSurr f).ctl = s.ctl := rfl
@[simp] theorem State.onSurr_cmd (s : State) (f : SurroundSt → SurroundSt) : (s.onSurr f).cmd = s.cmd := rfl
@[simp] theorem State.onSurr_power (s : State) (f : SurroundSt → SurroundSt) : (s.onSurr f).power = s.power := rfl
@[simp] theorem State.onSurr_time (s : State) (f : SurroundSt → SurroundSt) : (s.onSurr f).time = s.time := rfl
@[simp] theorem State.onSurr_book (s : State) (f : SurroundSt → SurroundSt) : (s.onSurr f).book = s.book := rfl
@[simp] theorem State.onSurr_surr (s : State) (f : SurroundSt → SurroundSt) : (s.onSurr f).surr = f s.surr := rfl
@[simp] theorem State.onSurr_count (s : State) (f : SurroundSt → SurroundSt) : (s.onSurr f).count = s.count := rfl
@[simp] theorem State.onSurr_port (s : State) (f : SurroundSt → SurroundSt) : (s.onSurr f).port = s.port := rfl
@[simp] theorem State.onSurr_tab (s : State) (f : SurroundSt → SurroundSt) : (s.onSurr f).tab = s.tab := rfl
@[simp] theorem State.onSurr_sw (s : State) (f : SurroundSt → SurroundSt) : (s.onSurr f).sw = s.sw := rfl
@[simp] theorem State.onSurr_mem (s : State) (f : SurroundSt → SurroundSt) : (s.onSurr f).mem = s.mem := rfl
@[simp] theorem State.onSurr_pending (s : State) (f : SurroundSt → SurroundSt) : (s.onSurr f).pending = s.pending := rfl
@[simp] theorem State.onCount_now (s : State) (f : CountSt → CountSt) : (s.onCount f).now = s.now := rfl
@[simp] theorem State.onCount_free (s : State) (f : CountSt → CountSt) : (s.onCount f).free = s.free := rfl
@[simp] theorem State.onCount_host (s : State) (f : CountSt → CountSt) : (s.onCount f).host = s.host := rfl
@[simp] theorem State.onCount_fault (s : State) (f : CountSt → CountSt) : (s.onCount f).fault = s.fault := rfl
@[simp] theorem State.onCount_ctl (s : State) (f : CountSt → CountSt) : (s.onCount f).ctl = s.ctl := rfl
@[simp] theorem State.onCount_cmd (s : State) (f : CountSt → CountSt) : (s.onCount f).cmd = s.cmd := rfl
@[simp] theorem State.onCount_power (s : State) (f : CountSt → CountSt) : (s.onCount f).power = s.power := rfl
@[simp] theorem State.onCount_time (s : State) (f : CountSt → CountSt) : (s.onCount f).time = s.time := rfl
@[simp] theorem State.onCount_book (s : State) (f : CountSt → CountSt) : (s.onCount f).book = s.book := rfl
@[simp] theorem State.onCount_surr (s : State) (f : CountSt → CountSt) : (s.onCount f).surr = s.surr := rfl
@[simp] theorem State.onCount_count (s : State) (f : CountSt → CountSt) : (s.onCount f).count = f s.count := rfl
@[simp] theorem State.onCount_port (s : State) (f : CountSt → CountSt) : (s.onCount f).port = s.port := rfl
@[simp] theorem State.onCount_tab (s : State) (f : CountSt → CountSt) : (s.onCount f).tab = s.tab := rfl
@[simp] theorem State.onCount_sw (s : State) (f : CountSt → CountSt) : (s.onCount f).sw = s.sw := rfl
@[simp] theorem State.onCount_mem (s : State) (f : CountSt → CountSt) : (s.onCount f).mem = s.mem := rfl
@[simp] theorem State.onCount_pending (s : State) (f : CountSt → CountSt) : (s.onCount f).pending = s.pending := rfl
@[simp] theorem State.onPort_now (s : State) (f : PortSt → PortSt) : (s.onPort f).now = s.now := rfl
@[simp] theorem State.onPort_free (s : State) (f : PortSt → PortSt) : (s.onPort f).free = s.free := rfl
@[simp] theorem State.onPort_host (s : State) (f : PortSt → PortSt) : (s.onPort f).host = s.host := rfl
@[simp] theorem State.onPort_fault (s : State) (f : PortSt → PortSt) : (s.onPort f).fault = s.fault := rfl
@[simp] theorem State.onPort_ctl (s : State) (f : PortSt → PortSt) : (s.onPort f).ctl = s.ctl := rfl
@[simp] theorem State.onPort_cmd (s : State) (f : PortSt → PortSt) : (s.onPort f).cmd = s.cmd := rfl
@[simp] theorem State.onPort_power (s : State) (f : PortSt → PortSt) : (s.onPort f).power = s.power := rfl
@[simp] theorem State.onPort_time (s : State) (f : PortSt → PortSt) : (s.onPort f).time = s.time := rfl
@[simp] theorem State.onPort_book (s : State) (f : PortSt → PortSt) : (s.onPort f).book = s.book := rfl
@[simp] theorem State.onPort_surr (s : State) (f : PortSt → PortSt) : (s.onPort f).surr = s.surr := rfl
@[simp] theorem State.onPort_count (s : State) (f : PortSt → PortSt) : (s.onPort f).count = s.count := rfl
@[simp] theorem State.onPort_port (s : State) (f : PortSt → PortSt) : (s.onPort f).port = f s.port := rfl
@[simp] theorem State.onPort_tab (s : State) (f : PortSt → PortSt) : (s.onPort f).tab = s.tab := rfl
@[simp] theorem State.onPort_sw (s : State) (f : PortSt → PortSt) : (s.onPort f).sw = s.sw := rfl
@[simp] theorem State.onPort_mem (s : State) (f : PortSt → PortSt) : (s.onPort f).mem = s.mem := rfl
@[simp] theorem State.onPort_pending (s : State) (f : PortSt → PortSt) : (s.onPort f).pending = s.pending := rfl
@[simp] theorem State.onTab_now (s : State) (f : TableSt → TableSt) : (s.onTab f).now = s.now := rfl
@[simp] theorem State.onTab_free (s : State) (f : TableSt → TableSt) : (s.onTab f).free = s.free := rfl
@[simp] theorem State.onTab_host (s : State) (f : TableSt → TableSt) : (s.onTab f).host = s.host := rfl
@[simp] theorem State.onTab_fault (s : State) (f : TableSt → TableSt) : (s.onTab f).fault = s.fault := rfl
@[simp] theorem State.onTab_ctl (s : State) (f : TableSt → TableSt) : (s.onTab f).ctl = s.ctl := rfl
@[simp] theorem State.onTab_cmd (s : State) (f : TableSt → TableSt) : (s.onTab f).cmd = s.cmd := rfl
@[simp] theorem State.onTab_power (s : State) (f : TableSt → TableSt) : (s.onTab f).power = s.power := rfl
@[simp] theorem State.onTab_time (s : State) (f : TableSt → TableSt) : (s.onTab f).time = s.time := rfl
@[simp] theorem State.onTab_book (s : State) (f : TableSt → TableSt) : (s.onTab f).book = s.book := rfl
@[simp] theorem State.onTab_surr (s : State) (f : TableSt → TableSt) : (s.onTab f).surr = s.surr := rfl
@[simp] theorem State.onTab_count (s : State) (f : TableSt → TableSt) : (s.onTab f).count = s.count := rfl
@[simp] theorem State.onTab_port (s : State) (f : TableSt → TableSt) : (s.onTab f).port = s.port := rfl
@[simp] theorem State.onTab_tab (s : State) (f : TableSt → TableSt) : (s.onTab f).tab = f s.tab := rfl
@[simp] theorem State.onTab_sw (s : State) (f : TableSt → TableSt) : (s.onTab f).sw = s.sw := rfl
@[simp] theorem State.onTab_mem (s : State) (f : TableSt → TableSt) : (s.onTab f).mem = s.mem := rfl
@[simp] theorem State.onTab_pending (s : State) (f : TableSt → TableSt) : (s.onTab f).pending = s.pending := rfl
@[simp] theorem State.onSw_now (s : State) (f : SwitchSt → SwitchSt) : (s.onSw f).now = s.now := rfl
@[simp] theorem State.onSw_free (s : State) (f : SwitchSt → SwitchSt) : (s.onSw f).free = s.free := rfl
@[simp] theorem State.onSw_host (s : State) (f : SwitchSt → SwitchSt) : (s.onSw f).host = s.host := rfl
@[simp] theorem State.onSw_fault (s : State) (f : SwitchSt → SwitchSt) : (s.onSw f).fault = s.fault := rfl
@[simp] theorem State.onSw_ctl (s : State) (f : SwitchSt → SwitchSt) : (s.onSw f).ctl = s.ctl := rfl
@[simp] theorem State.onSw_cmd (s : State) (f : SwitchSt → SwitchSt) : (s.onSw f).cmd = s.cmd := rfl
@[simp] theorem State.onSw_power (s : State) (f : SwitchSt → SwitchSt) : (s.onSw f).power = s.power := rfl
@[simp] theorem State.onSw_time (s : State) (f : SwitchSt → SwitchSt) : (s.onSw f).time = s.time := rfl
@[simp] theorem State.onSw_book (s : State) (f : SwitchSt → SwitchSt) : (s.onSw f).book = s.book := rfl
@[simp] theorem State.onSw_surr (s : State) (f : SwitchSt → SwitchSt) : (s.onSw f).surr = s.surr := rfl
@[simp] theorem State.onSw_count (s : State) (f : SwitchSt → SwitchSt) : (s.onSw f).count = s.count := rfl
@[simp] theorem State.onSw_port (s : State) (f : SwitchSt → SwitchSt) : (s.onSw f).port = s.port := rfl
@[simp] theorem State.onSw_tab (s : State) (f : SwitchSt → SwitchSt) : (s.onSw f).tab = s.tab := rfl
@[simp] theorem State.onSw_sw (s : State) (f : SwitchSt → SwitchSt) : (s.onSw f).sw = f s.sw := rfl
@[simp] theorem State.onSw_mem (s : State) (f : SwitchSt → SwitchSt) : (s.onSw f).mem = s.mem := rfl
@[simp] theorem State.onSw_pending (s : State) (f : SwitchSt → SwitchSt) : (s.onSw f).pending = s.pending := rfl
@[simp] theorem State.onMem_now (s : State) (f : MemSt → MemSt) : (s.onMem f).now = s.now := rfl
@[simp] theorem State.onMem_free (s : State) (f : MemSt → MemSt) : (s.onMem f).free = s.free := rfl
@[simp] theorem State.onMem_host (s : State) (f : MemSt → MemSt) : (s.onMem f).host = s.host := rfl
@[simp] theorem State.onMem_fault (s : State) (f : MemSt → MemSt) : (s.onMem f).fault = s.fault := rfl
@[simp] theorem State.onMem_ctl (s : State) (f : MemSt → MemSt) : (s.onMem f).ctl = s.ctl := rfl
@[simp] theorem State.onMem_cmd (s : State) (f : MemSt → MemSt) : (s.onMem f).cmd = s.cmd := rfl
@[simp] theorem State.onMem_power (s : State) (f : MemSt → MemSt) : (s.onMem f).power = s.power := rfl
@[simp] theorem State.onMem_time (s : State) (f : MemSt → MemSt) : (s.onMem f).time = s.time := rfl
@[simp] theorem State.onMem_book (s : State) (f : MemSt → MemSt) : (s.onMem f).book = s.book := rfl
@[simp] theorem State.onMem_surr (s : State) (f : MemSt → MemSt) : (s.onMem f).surr = s.surr := rfl
@[simp] theorem State.onMem_count (s : State) (f : MemSt → MemSt) : (s.onMem f).count = s.count := rfl
@[simp] theorem State.onMem_port (s : State) (f : MemSt → MemSt) : (s.onMem f).port = s.port := rfl
@[simp] theorem State.onMem_tab (s : State) (f : MemSt → MemSt) : (s.onMem f).tab = s.tab := rfl
@[simp] theorem State.onMem_sw (s : State) (f : MemSt → MemSt) : (s.onMem f).sw = s.sw := rfl
@[simp] theorem State.onMem_mem (s : State) (f : MemSt → MemSt) : (s.onMem f).mem = f s.mem := rfl
@[simp] theorem State.onMem_pending (s : State) (f : MemSt → MemSt) : (s.onMem f).pending = s.pending := rfl

@[simp] theorem State.when_true (s : State) (f : State → State) : s.when true f = f s := rfl
@[simp] theorem State.when_false (s : State) (f : State → State) : s.when false f = s := rfl
@[simp] theorem onUnit_true (t : State) : onUnit true t = .next t := rfl
@[simp] theorem onUnit_false (t : State) : onUnit false t = .fault .noSuchUnit := rfl
/-- A meaning on units answers a next state exactly where the units exist. -/
theorem onUnit_next {ok : Bool} {t u : State} : onUnit ok t = .next u ↔ ok = true ∧ t = u := by
  cases ok <;> simp

@[simp] theorem forEach_nil (f : Nat → State → State) (s : State) : forEach [] f s = s := rfl
@[simp] theorem forEach_cons (k : Nat) (l : List Nat) (f : Nat → State → State) (s : State) :
    forEach (k :: l) f s = forEach l f (f k s) := rfl
/-- What every turn of a loop keeps, the loop keeps. -/
theorem forEach_keeps {P : State → Prop} {f : Nat → State → State} (h : ∀ k s, P s → P (f k s)) (l : List Nat) :
    ∀ s, P s → P (forEach l f s) := by
  induction l with
  | nil => exact fun _ hs => hs
  | cons k l ih => exact fun s hs => ih _ (h k s hs)
/-- The same for a fold over any list. -/
theorem foldl_keeps {α : Type} {P : State → Prop} {f : State → α → State} (h : ∀ s a, P s → P (f s a)) (l : List α) :
    ∀ s, P s → P (l.foldl f s) := by
  induction l with
  | nil => exact fun _ hs => hs
  | cons a l ih => exact fun s hs => ih _ (h s a hs)
/-- What a function keeps, it keeps where a condition guards it. -/
theorem State.when_keeps {P : State → Prop} {s : State} {c : Bool} {f : State → State} (h : P s) (hf : P (f s)) : P (s.when c f) := by
  cases c <;> simpa

end Sys2Proof.Machine
end

