-- ==== Sys2Proof/Laws/Judge.lean ====
section
/-! SUPPORT. What a command row does, said once: it completes with its meaning's answer where it is admitted; it is refused as `judge` says; a
lane that does not exist stops it. -/
namespace Sys2Proof
open Sys2Proof.Machine

namespace Machine

@[simp] theorem firstRefusal_nil : firstRefusal [] = none := rfl
theorem firstRefusal_cons (c : Bool) (st : Nat) (l : List (Bool × Nat)) :
    firstRefusal ((c, st) :: l) = if c then some st else firstRefusal l := rfl
/-- No check fails exactly where each one passes. -/
@[simp] theorem firstRefusal_eq_none (c : Bool) (st : Nat) (l : List (Bool × Nat)) :
    firstRefusal ((c, st) :: l) = none ↔ c = false ∧ firstRefusal l = none := by
  cases c <;> simp [firstRefusal_cons]
/-- With no check failing the answer is the meaning's. -/
theorem orDeny_none {checks : List (Bool × Nat)} {s : State} {a : Answer} (h : firstRefusal checks = none) : orDeny checks s a = a := by
  simp [orDeny, h]
/-- The first check that fails refuses, without effect. -/
theorem orDeny_some {checks : List (Bool × Nat)} {st : Nat} {s : State} {a : Answer} (h : firstRefusal checks = some st) :
    orDeny checks s a = deny st s := by
  simp [orDeny, h]

@[simp] theorem State.intake_fault (s : State) (o : Op) (m : Msg) : (s.intake o m).fault = s.fault := rfl
@[simp] theorem State.intake_host (s : State) (o : Op) (m : Msg) : (s.intake o m).host = s.host := rfl
@[simp] theorem State.intake_cmd (s : State) (o : Op) (m : Msg) : (s.intake o m).cmd = s.cmd := rfl
@[simp] theorem State.intake_power (s : State) (o : Op) (m : Msg) : (s.intake o m).power = s.power := rfl
@[simp] theorem State.intake_time (s : State) (o : Op) (m : Msg) : (s.intake o m).time = s.time := rfl
@[simp] theorem State.intake_book (s : State) (o : Op) (m : Msg) : (s.intake o m).book = s.book := rfl
@[simp] theorem State.intake_surr (s : State) (o : Op) (m : Msg) : (s.intake o m).surr = s.surr := rfl
@[simp] theorem State.intake_count (s : State) (o : Op) (m : Msg) : (s.intake o m).count = s.count := rfl
@[simp] theorem State.intake_port (s : State) (o : Op) (m : Msg) : (s.intake o m).port = s.port := rfl
@[simp] theorem State.intake_tab (s : State) (o : Op) (m : Msg) : (s.intake o m).tab = s.tab := rfl
@[simp] theorem State.intake_sw (s : State) (o : Op) (m : Msg) : (s.intake o m).sw = s.sw := rfl
@[simp] theorem State.intake_mem (s : State) (o : Op) (m : Msg) : (s.intake o m).mem = s.mem := rfl
@[simp] theorem State.intake_now (s : State) (o : Op) (m : Msg) : (s.intake o m).now = s.now := rfl
@[simp] theorem State.intake_pending (s : State) (o : Op) (m : Msg) : (s.intake o m).pending = s.pending := rfl

/-- A row whose lane the device lacks stops. -/
theorem commandRow_noLane {o : Op} {body : Msg → State → Answer} {m : Msg} {s : State} (h : laneOk m.lane = false) :
    commandRow o body m s = .fault .noSuchUnit := by
  simp [commandRow, h]

/-- While no complex serves the device a command waits: nothing changes. -/
theorem commandRow_waits {o : Op} {body : Msg → State → Answer} {m : Msg} {s : State} (hl : laneOk m.lane = true)
    (h : s.ctl.noService = true) : commandRow o body m s = .next s := by
  simp [commandRow, runCommand, hl, h]

/-- Where the checks of class, flags and mode refuse a command, the refusal is its answer, and it has no other effect. -/
theorem commandRow_refused {o : Op} {body : Msg → State → Answer} {m : Msg} {s : State} {st : Nat} (hl : laneOk m.lane = true)
    (hs : s.ctl.noService = false) (hj : s.journalFull m = false) (h : judge o m (s.intake o m) = some st) :
    commandRow o body m s = .next (respond o.code m (deny st (s.intake o m))) := by
  simp [commandRow, runCommand, hl, hs, hj, h]

/-- A row without the mark E, or a command sent without ASYNC, is answered as its meaning says. -/
theorem respondEither_plain {o : Op} {m : Msg} (a : Answer) (h : o.either = false ∨ m.async = false) :
    respondEither o m a = respond o.code m a := by
  rcases h with h | h <;> simp [respondEither, h]
/-- An answer other than DONE and TIMEOUT is given as it stands. -/
theorem respondEither_other {o : Op} {m : Msg} {a : Answer} (h1 : a.status ≠ St.done) (h2 : a.status ≠ St.timeout) :
    respondEither o m a = respond o.code m a := by
  simp [respondEither, h1, h2]

end Machine

/-- An admitted command answers what its meaning answers. -/
theorem Admitted.row {o : Op} {m : Msg} {s : State} (h : Admitted o m s) {body : Msg → State → Answer} {a : Answer}
    (hb : body m (s.intake o m) = a) : commandRow o body m s = answered o m a := by
  have hd : withoutDram o (s.intake o m) a = a := by
    unfold withoutDram
    rcases h.dram with hd | hd
    · simp only [State.intake_fault, hd]; simp
    · simp [hd]
  simp [commandRow, runCommand, h.lane, h.served, h.room, h.judged, hb, hd, answered]

/-- A row completes where its meaning answers as said. -/
theorem completes_of {o : Op} {row : Msg → Instr} {ok : Msg → State → Prop} {ans : Msg → State → Answer} (body : Msg → State → Answer)
    (hrow : ∀ m s, exec (row m) s = commandRow o body m s) (hb : ∀ m s, ok m s → body m s = ans m s) : Completes o row ok ans :=
  fun m s h hok => (hrow m s).trans (h.row (hb m _ hok))

/-- A chunked load completes where the chapter's own conditions pass. -/
theorem loadCompletes_of {o : Op} {row : Msg → Instr} {kind : Nat} {ok : State → Nat → Prop} (conds : State → Nat → List (Bool × Nat))
    (hrow : ∀ m s, exec (row m) s = commandRow o (loadChunk kind conds) m s)
    (hc : ∀ s k, ok s k → firstRefusal (conds s k) = none) : LoadCompletes o row kind ok := by
  intro m s a hA h1 h2 h3 h4
  refine (hrow m s).trans (hA.row ?_)
  simp only [loadChunk, h1, h2]
  refine orDeny_none ?_
  rw [firstRefusal_eq_none]
  refine ⟨?_, hc _ _ h4⟩
  cases hf : a.final
  · simp
  · simp [h3 hf]

end Sys2Proof
end

