-- ==== Sys2Proof/Laws/Keeps.lean ====
section
/-! SUPPORT. What every command and event keeps: the queue of waiting commands, the clock, a legal mode, canonical byte memories. Here the
relation and its rules; the files Laws/Keeps*.lean show it for each shared operation and each meaning. -/
namespace Sys2Proof.Machine
open Sys2Proof

/-- From s to t the queue and the clock stand, and a legal mode and canonical memories stay so. -/
structure Keeps (s t : State) : Prop where
  pending : t.pending = s.pending
  now : t.now = s.now
  mode : LegalMode s → LegalMode t
  mem : CanonicalMemory s → CanonicalMemory t

theorem Keeps.refl (s : State) : Keeps s s := ⟨rfl, rfl, id, id⟩
theorem Keeps.trans {s t u : State} (h : Keeps s t) (g : Keeps t u) : Keeps s u :=
  ⟨g.pending.trans h.pending, g.now.trans h.now, fun x => g.mode (h.mode x), fun x => g.mem (h.mem x)⟩
theorem Keeps.ite {s a b : State} {c : Prop} [Decidable c] (ha : Keeps s a) (hb : Keeps s b) : Keeps s (if c then a else b) := by
  split <;> assumption

/-- The same for what may answer no state, a state or a number, or an outcome. -/
def KeepsOpt (s : State) (o : Option State) : Prop := ∀ t, o = some t → Keeps s t
def KeepsSum {α : Type} (s : State) (o : State ⊕ α) : Prop := ∀ t, o = .inl t → Keeps s t
def KeepsSnd {α : Type} (s : State) (o : Option (α × State)) : Prop := ∀ p, o = some p → Keeps s p.2
def KeepsOut (s : State) (o : Out) : Prop := ∀ t, o = .next t → Keeps s t

theorem KeepsOpt.none {s : State} : KeepsOpt s none := fun _ h => by cases h
theorem KeepsOpt.some {s t : State} (h : Keeps s t) : KeepsOpt s (some t) := fun _ e => by cases e; exact h
theorem KeepsOpt.map {α : Type} {s : State} {o : Option α} {f : α → State} (h : ∀ t, o = Option.some t → Keeps s (f t)) : KeepsOpt s (o.map f) := by
  intro t e; cases o with
  | none => cases e
  | some x => cases e; exact h x rfl
theorem KeepsOpt.bind {α : Type} {s : State} {o : Option α} {f : α → Option State} (h : ∀ t, o = Option.some t → KeepsOpt s (f t)) :
    KeepsOpt s (o.bind f) := by
  intro t e; cases o with
  | none => cases e
  | some x => exact h x rfl t e
theorem KeepsOpt.ite {s : State} {c : Prop} [Decidable c] {a b : Option State} (ha : KeepsOpt s a) (hb : KeepsOpt s b) :
    KeepsOpt s (if c then a else b) := by
  split <;> assumption
theorem KeepsSum.inl {α : Type} {s t : State} (h : Keeps s t) : KeepsSum (α := α) s (.inl t) := fun _ e => by cases e; exact h
theorem KeepsSum.inr {α : Type} {s : State} {x : α} : KeepsSum s (.inr x) := fun _ e => by cases e
theorem KeepsSum.ite {α : Type} {s : State} {c : Prop} [Decidable c] {a b : State ⊕ α} (ha : KeepsSum s a) (hb : KeepsSum s b) :
    KeepsSum s (if c then a else b) := by
  split <;> assumption
theorem KeepsSnd.none {α : Type} {s : State} : KeepsSnd (α := α) s none := fun _ h => by cases h
theorem KeepsSnd.some {α : Type} {s : State} {p : α × State} (h : Keeps s p.2) : KeepsSnd s (some p) := fun _ e => by cases e; exact h
theorem KeepsSnd.ite {α : Type} {s : State} {c : Prop} [Decidable c] {a b : Option (α × State)} (ha : KeepsSnd s a) (hb : KeepsSnd s b) :
    KeepsSnd s (if c then a else b) := by
  split <;> assumption
theorem KeepsOut.next {s t : State} (h : Keeps s t) : KeepsOut s (.next t) := fun _ e => by cases e; exact h
theorem KeepsOut.fault {s : State} {x : Fault} : KeepsOut s (.fault x) := fun _ e => by cases e
theorem KeepsOut.unit {s t : State} {c : Bool} (h : Keeps s t) : KeepsOut s (onUnit c t) := by
  unfold onUnit; split
  · exact .next h
  · exact .fault
theorem KeepsOut.ite {s : State} {c : Prop} [Decidable c] {a b : Out} (ha : KeepsOut s a) (hb : KeepsOut s b) : KeepsOut s (if c then a else b) := by
  split <;> assumption

theorem keeps_when {s t : State} {c : Bool} {f : State → State} (h : Keeps s t) (g : ∀ u, Keeps u (f u)) : Keeps s (t.when c f) := by
  unfold State.when; split
  · exact h.trans (g t)
  · exact h
theorem keeps_foldl {α : Type} {l : List α} {f : State → α → State} (g : ∀ u x, Keeps u (f u x)) :
    ∀ {s t : State}, Keeps s t → Keeps s (l.foldl f t) := by
  induction l with
  | nil => intro s t h; exact h
  | cons a l ih => intro s t h; exact ih (h.trans (g t a))
theorem keeps_forEach {l : List Nat} {f : Nat → State → State} {s t : State} (h : Keeps s t) (g : ∀ x u, Keeps u (f x u)) : Keeps s (forEach l f t) :=
  keeps_foldl (fun u x => g x u) h

theorem Keeps.of_opt {s t : State} {o : Option State} (e : o = Option.some t) (h : KeepsOpt s o) : Keeps s t := h t e
theorem Keeps.of_sum {α : Type} {s t : State} {o : State ⊕ α} (e : o = .inl t) (h : KeepsSum s o) : Keeps s t := h t e
theorem Keeps.of_snd {α : Type} {s t : State} {x : α} {o : Option (α × State)} (e : o = Option.some (x, t)) (h : KeepsSnd s o) :
    Keeps s t := h (x, t) e

theorem Keeps.getD {s d : State} {o : Option State} (ho : KeepsOpt s o) (hd : Keeps s d) : Keeps s (o.getD d) := by
  cases o with
  | none => exact hd
  | some x => exact ho x rfl
theorem KeepsSnd.findSome {α β : Type} {s : State} {f : β → Option (α × State)} (hf : ∀ x, KeepsSnd s (f x)) : ∀ l : List β, KeepsSnd s
    (l.findSome? f)
  | [] => KeepsSnd.none
  | x :: l => by
    intro p e
    rw [List.findSome?_cons] at e
    cases hx : f x with
    | none => rw [hx] at e; exact KeepsSnd.findSome hf l p e
    | some y => rw [hx] at e; cases e; exact hf x _ hx

/-! ### Updates of one component -/

theorem State.onFault_keeps {r s : State} {f : FaultSt → FaultSt} (h : Keeps r s) : Keeps r (s.onFault f) := h.trans ⟨rfl, rfl, id, id⟩
theorem State.onPower_keeps {r s : State} {f : PowerSt → PowerSt} (h : Keeps r s) : Keeps r (s.onPower f) := h.trans ⟨rfl, rfl, id, id⟩
theorem State.onTime_keeps {r s : State} {f : TimeSt → TimeSt} (h : Keeps r s) : Keeps r (s.onTime f) := h.trans ⟨rfl, rfl, id, id⟩
theorem State.onBook_keeps {r s : State} {f : RecordSt → RecordSt} (h : Keeps r s) : Keeps r (s.onBook f) := h.trans ⟨rfl, rfl, id, id⟩
theorem State.onSurr_keeps {r s : State} {f : SurroundSt → SurroundSt} (h : Keeps r s) : Keeps r (s.onSurr f) := h.trans ⟨rfl, rfl, id, id⟩
theorem State.onCount_keeps {r s : State} {f : CountSt → CountSt} (h : Keeps r s) : Keeps r (s.onCount f) := h.trans ⟨rfl, rfl, id, id⟩
theorem State.onPort_keeps {r s : State} {f : PortSt → PortSt} (h : Keeps r s) : Keeps r (s.onPort f) := h.trans ⟨rfl, rfl, id, id⟩
theorem State.onTab_keeps {r s : State} {f : TableSt → TableSt} (h : Keeps r s) : Keeps r (s.onTab f) := h.trans ⟨rfl, rfl, id, id⟩
theorem State.onSw_keeps {r s : State} {f : SwitchSt → SwitchSt} (h : Keeps r s) : Keeps r (s.onSw f) := h.trans ⟨rfl, rfl, id, id⟩
theorem State.onMem_keeps {r s : State} {f : MemSt → MemSt} (h : Keeps r s) : Keeps r (s.onMem f) := h.trans ⟨rfl, rfl, id, id⟩
/-- An update of the commands' state keeps a legal mode where the mode it writes is one. -/
theorem State.onCmd_keeps {r s : State} {f : CmdSt → CmdSt} (h : Keeps r s) (hf : ∀ c : CmdSt, c.mode ≤ 7 → (f c).mode ≤ 7) : Keeps r (s.onCmd f) :=
  h.trans ⟨rfl, rfl, fun m => ⟨hf _ m.1, m.2⟩, id⟩
/-- A mode written is legal where the state it was reached from is. -/
theorem State.onCmd_mode {r s : State} {f : CmdSt → CmdSt} (h : Keeps r s) (hf : LegalMode r → ∀ c, (f c).mode ≤ 7) : Keeps r (s.onCmd f) :=
  ⟨h.pending, h.now, fun m => ⟨hf m _, (h.mode m).2⟩, h.mem⟩
/-- An update of the control complexes keeps a legal mode where an activation returns to one. -/
theorem State.onCtl_keeps {r s : State} {f : ControlSt → ControlSt} (h : Keeps r s)
    (hf : ∀ c : ControlSt, (∀ a, c.activation = some a → a.returnMode ≤ 7) → ∀ a, (f c).activation = some a → a.returnMode ≤ 7) :
    Keeps r (s.onCtl f) :=
  h.trans ⟨rfl, rfl, fun m => ⟨m.1, hf _ m.2⟩, id⟩
/-- An update of the host path keeps canonical memories where its writes do. -/
theorem State.onHost_keeps {r s : State} {f : HostSt → HostSt} (h : Keeps r s)
    (hf : ∀ c : HostSt, c.areas.wf = true → c.hostMem.wf = true → (f c).areas.wf = true ∧ (f c).hostMem.wf = true) : Keeps r (s.onHost f) :=
  h.trans ⟨rfl, rfl, id, fun m => hf _ m.1 m.2⟩
/-- The usual updates: the mode, the activation and the memories are not among what is written. -/
theorem State.onCmd_same {r s : State} {f : CmdSt → CmdSt} (h : Keeps r s) (hf : ∀ c : CmdSt, (f c).mode = c.mode) : Keeps r (s.onCmd f) :=
  State.onCmd_keeps h (fun c m => by rw [hf c]; exact m)
theorem State.onCtl_same {r s : State} {f : ControlSt → ControlSt} (h : Keeps r s) (hf : ∀ c : ControlSt, (f c).activation = c.activation) :
    Keeps r (s.onCtl f) :=
  State.onCtl_keeps h (fun c m a e => m a (by rw [← hf c]; exact e))
theorem State.onHost_same {r s : State} {f : HostSt → HostSt} (h : Keeps r s)
    (hf : ∀ c : HostSt, (f c).areas = c.areas ∧ (f c).hostMem = c.hostMem) : Keeps r (s.onHost f) :=
  State.onHost_keeps h (fun c a m => by rw [(hf c).1, (hf c).2]; exact ⟨a, m⟩)

end Sys2Proof.Machine
end

