-- ==== Sys2Proof/Laws/Maps.lean ====
section
/-! SUPPORT. The operations on sparse maps and byte memories keep their canonical form, and read back what was written. -/
namespace Sys2Proof
open SMap

namespace SMap
variable {α : Type}

theorem risingFrom_weaken {b c : Nat} (h : c ≤ b) : ∀ {m : SMap α}, risingFrom b m = true → risingFrom c m = true
  | [], _ => rfl
  | (j, v) :: m, hm => by
    simp only [risingFrom, Bool.and_eq_true, decide_eq_true_eq] at hm ⊢
    exact ⟨by omega, hm.2⟩

theorem insert_rising {b k : Nat} {v : α} (h : b ≤ k) : ∀ {m : SMap α}, risingFrom b m = true → risingFrom b (insert k v m) = true
  | [], _ => by simp [insert, risingFrom, h]
  | (j, w) :: m, hm => by
    simp only [risingFrom, Bool.and_eq_true, decide_eq_true_eq] at hm
    unfold insert
    split
    · rename_i hk
      simp only [risingFrom, Bool.and_eq_true, decide_eq_true_eq]
      exact ⟨h, by omega, hm.2⟩
    · split
      · rename_i _ hk
        subst hk
        simp only [risingFrom, Bool.and_eq_true, decide_eq_true_eq]
        exact ⟨h, hm.2⟩
      · simp only [risingFrom, Bool.and_eq_true, decide_eq_true_eq]
        exact ⟨hm.1, insert_rising (by omega) hm.2⟩

theorem erase_rising {k : Nat} : ∀ {b : Nat} {m : SMap α}, risingFrom b m = true → risingFrom b (erase k m) = true
  | _, [], _ => rfl
  | b, (j, w) :: m, hm => by
    simp only [risingFrom, Bool.and_eq_true, decide_eq_true_eq] at hm
    unfold erase
    split
    · exact risingFrom_weaken (by omega) hm.2
    · simp only [risingFrom, Bool.and_eq_true, decide_eq_true_eq]
      exact ⟨hm.1, erase_rising hm.2⟩

theorem filter_rising (p : Nat × α → Bool) : ∀ {b : Nat} {m : SMap α}, risingFrom b m = true → risingFrom b (m.filter p) = true
  | _, [], _ => rfl
  | b, (j, w) :: m, hm => by
    simp only [risingFrom, Bool.and_eq_true, decide_eq_true_eq] at hm
    have ih := filter_rising p hm.2
    simp only [List.filter_cons]
    split
    · simp only [risingFrom, Bool.and_eq_true, decide_eq_true_eq]
      exact ⟨hm.1, ih⟩
    · exact risingFrom_weaken (by omega) ih

theorem all_insert {k : Nat} {v : α} {p : Nat × α → Bool} (hv : p (k, v) = true) : ∀ {m : SMap α}, m.all p = true → (insert k v m).all p = true
  | [], _ => by simp [insert, hv]
  | (j, w) :: m, hm => by
    simp only [List.all_cons, Bool.and_eq_true] at hm
    unfold insert
    split
    · simp [hv, hm.1, hm.2]
    · split
      · simp [hv, hm.2]
      · simp [hm.1, all_insert hv hm.2]

theorem all_erase {k : Nat} {p : Nat × α → Bool} : ∀ {m : SMap α}, m.all p = true → (erase k m).all p = true
  | [], _ => rfl
  | (j, w) :: m, hm => by
    simp only [List.all_cons, Bool.and_eq_true] at hm
    unfold erase
    split
    · exact hm.2
    · simp [hm.1, all_erase hm.2]

theorem wf_insert {k : Nat} {v : α} {m : SMap α} (h : wf m = true) : wf (insert k v m) = true := insert_rising (Nat.zero_le k) h
theorem wf_erase {k : Nat} {m : SMap α} (h : wf m = true) : wf (erase k m) = true := erase_rising h

variable [DecidableEq α]

theorem wfd_put {d : α} {k : Nat} {v : α} {m : SMap α} (h : wfd d m = true) : wfd d (put d k v m) = true := by
  simp only [wfd, Bool.and_eq_true] at h ⊢
  unfold put
  split
  · exact ⟨wf_erase h.1, all_erase h.2⟩
  · rename_i hv
    exact ⟨wf_insert h.1, all_insert (by simpa using hv) h.2⟩

theorem wfd_upd {d : α} {k : Nat} {f : α → α} {m : SMap α} (h : wfd d m = true) : wfd d (upd d k f m) = true := wfd_put h

theorem wfd_filter {d : α} {p : Nat × α → Bool} {m : SMap α} (h : wfd d m = true) : wfd d (m.filter p) = true := by
  simp only [wfd, wf, Bool.and_eq_true, List.all_eq_true] at h ⊢
  exact ⟨filter_rising p h.1, fun e he => h.2 e (List.mem_of_mem_filter he)⟩

end SMap

namespace SMap
variable {α : Type}

/-- Reading a key after an entry was listed at it gives the entry; every other key reads as before. -/
theorem find_insert {k : Nat} {v : α} {j : Nat} : ∀ {b : Nat} {m : SMap α}, risingFrom b m = true →
    find j (insert k v m) = if k = j then some v else find j m
  | _, [], _ => by simp [insert, find]
  | b, (i, w) :: m, hm => by
    simp only [risingFrom, Bool.and_eq_true, decide_eq_true_eq] at hm
    unfold insert
    split
    · simp [find]
    · split
      · rename_i hk
        subst hk
        by_cases h : k = j <;> simp [find, h]
      · rename_i h1 h2
        have ih := find_insert (k := k) (v := v) (j := j) hm.2
        simp only [find, ih]
        by_cases h : i = j
        · subst h
          simp [h2]
        · simp [h]

theorem find_below {j : Nat} : ∀ {b : Nat} {m : SMap α}, risingFrom b m = true → j < b → find j m = none
  | _, [], _, _ => rfl
  | b, (i, w) :: m, hm, hj => by
    simp only [risingFrom, Bool.and_eq_true, decide_eq_true_eq] at hm
    have : i ≠ j := by omega
    simp [find, this, find_below hm.2 (by omega : j < i + 1)]

/-- A removed key is not listed; every other key reads as before. -/
theorem find_erase {k j : Nat} : ∀ {b : Nat} {m : SMap α}, risingFrom b m = true →
    find j (erase k m) = if k = j then none else find j m
  | _, [], _ => by simp [erase, find]
  | b, (i, w) :: m, hm => by
    simp only [risingFrom, Bool.and_eq_true, decide_eq_true_eq] at hm
    unfold erase
    split
    · rename_i h
      subst h
      by_cases hj : i = j
      · subst hj
        simp [find_below hm.2 (Nat.lt_succ_self _)]
      · simp [find, hj]
    · rename_i h
      have ih := find_erase (k := k) (j := j) hm.2
      by_cases hj : i = j
      · subst hj
        simp [find, Ne.symm h]
      · simp [find, hj, ih]

/-- Reading a key of a map with a default after a write. -/
theorem get_put [DecidableEq α] {d : α} {k j : Nat} {v : α} {m : SMap α} (h : wf m = true) :
    get d j (put d k v m) = if k = j then v else get d j m := by
  unfold get put
  split
  · rename_i hv
    rw [find_erase h]
    split <;> simp [hv]
  · rw [find_insert h]
    split <;> simp

theorem get_upd [DecidableEq α] {d : α} {k j : Nat} {f : α → α} {m : SMap α} (h : wf m = true) :
    get d j (upd d k f m) = if k = j then f (get d k m) else get d j m := get_put h

end SMap

namespace Memory

theorem write_wf {m : Memory} {a : Nat} {v : Byte} (h : m.wf = true) : (m.write a v).wf = true := SMap.wfd_put h
theorem clear_wf {m : Memory} {a n : Nat} (h : m.wf = true) : (m.clear a n).wf = true := SMap.wfd_filter h
theorem writeN_wf : ∀ {bs : List Byte} {m : Memory} {a : Nat}, m.wf = true → (m.writeN a bs).wf = true
  | [], _, _, h => h
  | b :: bs, m, a, h => by
    have := writeN_wf (bs := bs) (a := a + 1) (write_wf (a := a) (v := b) h)
    simpa only [writeN] using this

theorem keys_wf {m : Memory} (h : m.wf = true) : SMap.wf m = true := by
  simp only [wf, SMap.wfd, Bool.and_eq_true] at h
  exact h.1

/-- A byte written is read back, and every other byte is as before. -/
theorem read_write {m : Memory} {a b : Nat} {v : Byte} (h : m.wf = true) : (m.write a v).read b = if a = b then v else m.read b :=
  SMap.get_put (keys_wf h)

/-- Bytes outside a run of writes are as before. -/
theorem read_writeN_outside {b : Nat} : ∀ {bs : List Byte} {m : Memory} {a : Nat}, m.wf = true → (b < a ∨ a + bs.length ≤ b) →
    (m.writeN a bs).read b = m.read b
  | [], _, _, _, _ => rfl
  | v :: bs, m, a, h, hb => by
    have hne : a ≠ b := by
      rcases hb with hb | hb
      · omega
      · simp only [List.length_cons] at hb
        omega
    have := read_writeN_outside (b := b) (bs := bs) (m := m.write a v) (a := a + 1) (write_wf h) (by
      rcases hb with hb | hb
      · left; omega
      · right; simp only [List.length_cons] at hb; omega)
    simp only [writeN]
    rw [this, read_write h, if_neg hne]

end Memory
end Sys2Proof
end

