-- ==== Sys2Proof/Laws/KeepsShared.lean ====
section
/-! SUPPORT. What each operation keeps (Laws/Keeps.lean):
the operations shared by the families, and the answers to commands. -/
namespace Sys2Proof.Machine
open Sys2Proof
set_option Elab.async false
set_option linter.unusedTactic false
set_option linter.unreachableTactic false

variable {s₀ : State}

/-! ### Machine/Ops.lean -/

theorem State.onMb_keeps {s : State} {r : Nat} {f : Mailbox → Mailbox} (hk : Keeps s₀ s) : Keeps s₀ (s.onMb r f) := by
  unfold State.onMb
  repeat' with_reducible first
    | assumption | exact Keeps.refl _ | (refine State.onHost_same ?_ (fun _ => ⟨rfl, rfl⟩)) | intro _ | split
theorem State.onRing_keeps {s : State} {p : Nat} {f : Ring → Ring} (hk : Keeps s₀ s) : Keeps s₀ (s.onRing p f) := by
  unfold State.onRing
  repeat' with_reducible first
    | assumption | exact Keeps.refl _ | (refine State.onHost_same ?_ (fun _ => ⟨rfl, rfl⟩)) | intro _ | split
theorem State.putSetting_keeps {s : State} {key idx v : Nat} (hk : Keeps s₀ s) : Keeps s₀ (s.putSetting key idx v) := by
  unfold State.putSetting
  repeat' with_reducible first
    | assumption | exact Keeps.refl _ | (refine State.onCmd_same ?_ (fun _ => rfl)) | intro _ | split
theorem State.nextFree_keeps {s : State} (hk : Keeps s₀ s) : Keeps s₀ s.nextFree := hk.trans ⟨rfl, rfl, id, id⟩
theorem State.bumpN_keeps {s : State} {t k e n : Nat} (hk : Keeps s₀ s) : Keeps s₀ (s.bumpN t k e n) := by
  unfold State.bumpN
  repeat' with_reducible first
    | assumption | exact Keeps.refl _ | apply State.onCount_keeps | intro _ | split
theorem State.bump_keeps {s : State} {t k e : Nat} (hk : Keeps s₀ s) : Keeps s₀ (s.bump t k e) := by
  unfold State.bump
  repeat' with_reducible first
    | assumption | exact Keeps.refl _ | apply State.bumpN_keeps | intro _ | split
theorem State.raiseIrq_keeps {s : State} {src : Nat} (hk : Keeps s₀ s) : Keeps s₀ (s.raiseIrq src) := by
  unfold State.raiseIrq
  repeat' with_reducible first
    | assumption | exact Keeps.refl _ | (refine State.onHost_same ?_ (fun _ => ⟨rfl, rfl⟩)) | intro _ | split
theorem State.postRec_keeps {s : State} {r : Nat} {e : EvRec} (hk : Keeps s₀ s) : Keeps s₀ (s.postRec r e) := by
  unfold State.postRec
  repeat' with_reducible first
    | assumption | exact Keeps.refl _ | apply State.onBook_keeps | apply State.onMb_keeps | intro _ | split
theorem State.post_keeps {s : State} {r code level unit : Nat} {payload : List Byte} (hk : Keeps s₀ s) :
    Keeps s₀ (s.post r code level unit payload) := by
  unfold State.post
  repeat' with_reducible first
    | assumption | exact Keeps.refl _ | apply State.postRec_keeps | intro _ | split
theorem State.postAll_keeps {s : State} {rs : List Nat} {code level unit : Nat} {payload : List Byte} (hk : Keeps s₀ s) :
    Keeps s₀ (s.postAll rs code level unit payload) := by
  unfold State.postAll
  repeat' with_reducible first
    | assumption | exact Keeps.refl _ | apply keeps_forEach | apply State.post_keeps | intro _ | split
theorem State.postDone_keeps {s : State} {r code level unit tag status : Nat} {payload : List Byte} (hk : Keeps s₀ s) :
    Keeps s₀ (s.postDone r code level unit tag status payload) := by
  unfold State.postDone
  repeat' with_reducible first
    | assumption | exact Keeps.refl _ | apply State.postRec_keeps | intro _ | split
theorem State.dropOut_keeps {s : State} {r : Nat} {o : Outst} (hk : Keeps s₀ s) : Keeps s₀ (s.dropOut r o) := by
  unfold State.dropOut
  repeat' with_reducible first
    | assumption | exact Keeps.refl _ | apply State.onMb_keeps | intro _ | split
theorem State.finish_keeps {s : State} {r opcode code level unit status : Nat} {payload : List Byte} (hk : Keeps s₀ s) :
    Keeps s₀ (s.finish r opcode code level unit status payload) := by
  unfold State.finish
  repeat' with_reducible first
    | assumption | exact Keeps.refl _ | apply State.postDone_keeps | apply State.dropOut_keeps | intro _ | split
theorem State.finishPlain_keeps {s : State} {r opcode status detail : Nat} (hk : Keeps s₀ s) : Keeps s₀ (s.finishPlain r opcode status detail) := by
  unfold State.finishPlain
  repeat' with_reducible first
    | assumption | exact Keeps.refl _ | apply State.finish_keeps | intro _ | split
theorem State.finishNewest_keeps {s : State} {r opcode status : Nat} {extra : List Byte} (hk : Keeps s₀ s) :
    Keeps s₀ (s.finishNewest r opcode status extra) := by
  unfold State.finishNewest
  repeat' with_reducible first
    | assumption | exact Keeps.refl _ | apply State.postDone_keeps | apply State.dropOut_keeps | intro _ | split
theorem State.accountSeconds_keeps {s : State} (hk : Keeps s₀ s) : Keeps s₀ s.accountSeconds := by
  unfold State.accountSeconds
  repeat' with_reducible first
    | assumption | exact Keeps.refl _ | apply State.onBook_keeps | intro _ | split
theorem State.ledgerWrite_keeps {s : State} {type : Nat} {body : List Byte} (hk : Keeps s₀ s) : Keeps s₀ (s.ledgerWrite type body) := by
  unfold State.ledgerWrite
  repeat' with_reducible first
    | assumption | exact Keeps.refl _ | apply State.onBook_keeps | intro _ | split

/-! ### Machine/Judge.lean -/

theorem deny_keeps {s : State} {st : Nat} (hk : Keeps s₀ s) : Keeps s₀ (deny st s).state := hk
theorem denyAt_keeps {s : State} {st d : Nat} (hk : Keeps s₀ s) : Keeps s₀ (denyAt st d s).state := hk
theorem done_keeps {s : State} (hk : Keeps s₀ s) : Keeps s₀ (done s).state := hk
theorem doneWith_keeps {s : State} {p : List Byte} (hk : Keeps s₀ s) : Keeps s₀ (doneWith p s).state := hk
theorem accept_keeps {s : State} (hk : Keeps s₀ s) : Keeps s₀ (accept s).state := hk
theorem hold_keeps {s : State} (hk : Keeps s₀ s) : Keeps s₀ (hold s).state := hk
theorem orDeny_keeps {s : State} {l : List (Bool × Nat)} {a : Answer} (hk : Keeps s₀ s) (ha : Keeps s₀ a.state) : Keeps s₀ (orDeny l s a).state := by
  unfold orDeny; split
  · exact hk
  · exact ha
theorem State.journalAccept_keeps {s : State} {code : Nat} {m : Msg} (hk : Keeps s₀ s) : Keeps s₀ (s.journalAccept code m) := by
  unfold State.journalAccept
  repeat' with_reducible first
    | assumption | exact Keeps.refl _ | (refine State.onCtl_same ?_ (fun _ => rfl)) | intro _ | split
theorem State.journalComplete_keeps {s : State} {m : Msg} {status : Nat} {pay : List Byte} (hk : Keeps s₀ s) :
    Keeps s₀ (s.journalComplete m status pay) := by
  unfold State.journalComplete
  repeat' with_reducible first
    | assumption | exact Keeps.refl _ | (refine State.onCtl_same ?_ (fun _ => rfl)) | intro _ | split
theorem State.putResponse_keeps {s : State} {m : Msg} {r : Rsp} (hk : Keeps s₀ s) : Keeps s₀ (s.putResponse m r) := by
  unfold State.putResponse
  repeat' with_reducible first
    | assumption | exact Keeps.refl _ | apply State.onMb_keeps | apply State.onRing_keeps | intro _ | split
theorem State.addOutstanding_keeps {s : State} {code : Nat} {m : Msg} (hk : Keeps s₀ s) : Keeps s₀ (s.addOutstanding code m) := by
  unfold State.addOutstanding
  repeat' with_reducible first
    | assumption | exact Keeps.refl _ | apply State.onMb_keeps | intro _ | split
theorem respond_keeps {code : Nat} {m : Msg} {a : Answer} (ha : Keeps s₀ a.state) : Keeps s₀ (respond code m a) := by
  unfold respond; split
  · exact ha
  · dsimp only; split
    · exact State.addOutstanding_keeps (State.putResponse_keeps (State.journalComplete_keeps ha))
    · exact State.putResponse_keeps (State.journalComplete_keeps ha)
theorem withoutDram_keeps {s : State} {o : Op} {a : Answer} (hk : Keeps s₀ s) (ha : Keeps s₀ a.state) : Keeps s₀ (withoutDram o s a).state := by
  unfold withoutDram; split
  · exact hk
  · exact ha
theorem respondEither_keeps {o : Op} {m : Msg} {a : Answer} (ha : Keeps s₀ a.state) : Keeps s₀ (respondEither o m a) := by
  unfold respondEither; split
  · apply State.finishNewest_keeps
    exact respond_keeps (a := { a with status := St.accepted, payload := [] }) ha
  · exact respond_keeps ha
theorem State.intake_keeps {s : State} {o : Op} {m : Msg} (hk : Keeps s₀ s) : Keeps s₀ (s.intake o m) := by
  unfold State.intake
  repeat' with_reducible first
    | assumption | exact Keeps.refl _ | (refine State.onCtl_same ?_ (fun _ => rfl)) | apply State.journalAccept_keeps | intro _ | split
theorem runCommand_keeps {s : State} {o : Op} {body : Msg → State → Answer} {m : Msg} (hk : Keeps s₀ s)
    (hb : ∀ u, Keeps s₀ u → Keeps s₀ (body m u).state) : Keeps s₀ (runCommand o body m s) := by
  have hi : Keeps s₀ (s.intake o m) := State.intake_keeps hk
  unfold runCommand; split
  · exact hk
  · split
    · exact State.putResponse_keeps hk
    · dsimp only; split
      · exact respond_keeps hi
      · exact respondEither_keeps (withoutDram_keeps hi (hb _ hi))
theorem commandRow_keeps {s : State} {o : Op} {body : Msg → State → Answer} {m : Msg} (hk : Keeps s₀ s)
    (hb : ∀ u, Keeps s₀ u → Keeps s₀ (body m u).state) : KeepsOut s₀ (commandRow o body m s) :=
  KeepsOut.unit (runCommand_keeps hk hb)

/-! ### Machine/LportOps.lean -/

theorem State.onLport_keeps {s : State} {l : Nat} {f : Lport → Lport} (hk : Keeps s₀ s) : Keeps s₀ (s.onLport l f) := by
  unfold State.onLport
  repeat' with_reducible first
    | assumption | exact Keeps.refl _ | apply State.onPort_keeps | intro _ | split
theorem State.onLane_keeps {s : State} {n : Nat} {f : LaneSt → LaneSt} (hk : Keeps s₀ s) : Keeps s₀ (s.onLane n f) := by
  unfold State.onLane
  repeat' with_reducible first
    | assumption | exact Keeps.refl _ | apply State.onPort_keeps | intro _ | split
theorem State.statN_keeps {s : State} {l i n : Nat} (hk : Keeps s₀ s) : Keeps s₀ (s.statN l i n) := by
  unfold State.statN
  repeat' with_reducible first
    | assumption | exact Keeps.refl _ | apply State.onPort_keeps | intro _ | split
theorem State.stat_keeps {s : State} {l i : Nat} (hk : Keeps s₀ s) : Keeps s₀ (s.stat l i) := by
  unfold State.stat
  repeat' with_reducible first
    | assumption | exact Keeps.refl _ | apply State.statN_keeps | intro _ | split

/-! ### Machine/QosOps.lean -/

theorem State.onEg_keeps {s : State} {l : Nat} {f : Egress → Egress} (hk : Keeps s₀ s) : Keeps s₀ (s.onEg l f) := by
  unfold State.onEg
  repeat' with_reducible first
    | assumption | exact Keeps.refl _ | apply State.onSw_keeps | intro _ | split
theorem State.onQueue_keeps {s : State} {l q : Nat} {f : EQueue → EQueue} (hk : Keeps s₀ s) : Keeps s₀ (s.onQueue l q f) := by
  unfold State.onQueue
  repeat' with_reducible first
    | assumption | exact Keeps.refl _ | apply State.onSw_keeps | intro _ | split
theorem State.arr_keeps {s : State} {kind t exit c n : Nat} (hk : Keeps s₀ s) : Keeps s₀ (s.arr kind t exit c n) := by
  unfold State.arr
  repeat' with_reducible first
    | assumption | exact Keeps.refl _ | apply State.onSw_keeps | intro _ | split
theorem State.chargeShapers_keeps {s : State} {l q : Nat} {n : Int} (hk : Keeps s₀ s) : Keeps s₀ (s.chargeShapers l q n) := by
  unfold State.chargeShapers
  repeat' with_reducible first
    | assumption | exact Keeps.refl _ | apply State.onEg_keeps | apply State.onQueue_keeps | intro _ | split
theorem State.refillShapers_keeps {s : State} {l : Nat} (hk : Keeps s₀ s) : Keeps s₀ (s.refillShapers l) := by
  unfold State.refillShapers
  repeat' with_reducible first
    | assumption | exact Keeps.refl _ | apply State.onEg_keeps | apply keeps_forEach | apply State.onQueue_keeps | intro _ | split
theorem State.switchSheet_keeps {s : State} {l : Nat} (hk : Keeps s₀ s) : Keeps s₀ (s.switchSheet l) := by
  unfold State.switchSheet
  repeat' with_reducible first
    | assumption | exact Keeps.refl _ | apply State.post_keeps | apply State.onEg_keeps | intro _ | split
theorem State.setGates_keeps {s : State} {l : Nat} (hk : Keeps s₀ s) : Keeps s₀ (s.setGates l) := by
  unfold State.setGates
  repeat' with_reducible first
    | assumption | exact Keeps.refl _ | apply State.onEg_keeps | intro _ | split
theorem State.gatesStepped_keeps {s : State} (hk : Keeps s₀ s) : Keeps s₀ s.gatesStepped := by
  unfold State.gatesStepped
  repeat' with_reducible first
    | assumption | exact Keeps.refl _ | apply State.switchSheet_keeps | apply State.setGates_keeps | apply keeps_foldl | apply Keeps.ite | intro _
    | split
theorem State.onBucket_keeps {s : State} {t pol : Nat} {f : Policer → Policer} (hk : Keeps s₀ s) : Keeps s₀ (s.onBucket t pol f) := by
  unfold State.onBucket
  repeat' with_reducible first
    | assumption | exact Keeps.refl _ | apply State.onSw_keeps | intro _ | split
theorem State.meter_keeps {s : State} {t k pol len : Nat} {tailIn : Bool} {maxFrame : Nat} {slots : SMap Nat} (hk : Keeps s₀ s) :
    Keeps s₀ (s.meter t k pol len tailIn maxFrame slots).2 := by
  unfold State.meter
  repeat' with_reducible first
    | assumption | exact Keeps.refl _ | apply State.onBucket_keeps | intro _ | split
theorem State.tailAdjust_keeps {s : State} {t len : Nat} {good : Bool} {m : Metered} (hk : Keeps s₀ s) : Keeps s₀ (s.tailAdjust t len good m) := by
  unfold State.tailAdjust
  repeat' with_reducible first
    | assumption | exact Keeps.refl _ | apply State.onBucket_keeps | apply Keeps.ite | intro _ | split

/-! ### Machine/MemOps.lean -/

theorem State.onChannel_keeps {s : State} {c : Nat} {f : Channel → Channel} (hk : Keeps s₀ s) : Keeps s₀ (s.onChannel c f) := by
  unfold State.onChannel
  repeat' with_reducible first
    | assumption | exact Keeps.refl _ | apply State.onMem_keeps | intro _ | split
theorem State.onShare_keeps {s : State} {k region : Nat} {f : Share → Share} (hk : Keeps s₀ s) : Keeps s₀ (s.onShare k region f) := by
  unfold State.onShare
  repeat' with_reducible first
    | assumption | exact Keeps.refl _ | apply State.onMem_keeps | intro _ | split
theorem State.settleShares_keeps {s : State} (hk : Keeps s₀ s) : Keeps s₀ s.settleShares := by
  unfold State.settleShares
  repeat' with_reducible first
    | assumption | exact Keeps.refl _ | apply State.onMem_keeps | intro _ | split
theorem State.rebalance_keeps {s : State} {d : Nat} (hk : Keeps s₀ s) : Keeps s₀ (s.rebalance d) := by
  unfold State.rebalance
  repeat' with_reducible first
    | assumption | exact Keeps.refl _ | apply State.post_keeps | apply State.onMem_keeps | apply State.settleShares_keeps | apply keeps_forEach
    | apply Keeps.ite | intro _ | split
theorem State.burstsRead_keeps {s : State} {n : Nat} (hk : Keeps s₀ s) : Keeps s₀ (s.burstsRead n) := by
  unfold State.burstsRead
  repeat' with_reducible first
    | assumption | exact Keeps.refl _ | apply State.nextFree_keeps | apply keeps_forEach | apply State.bump_keeps | intro _ | split
theorem State.burstsWritten_keeps {s : State} {n : Nat} (hk : Keeps s₀ s) : Keeps s₀ (s.burstsWritten n) := by
  unfold State.burstsWritten
  repeat' with_reducible first
    | assumption | exact Keeps.refl _ | apply State.nextFree_keeps | apply keeps_forEach | apply State.onMem_keeps | intro _ | split
theorem State.spillWrite_keeps {s : State} {k n : Nat} (hk : Keeps s₀ s) : Keeps s₀ (s.spillWrite k n) := by
  unfold State.spillWrite
  repeat' with_reducible first
    | assumption | exact Keeps.refl _ | apply State.burstsWritten_keeps | apply State.onShare_keeps | intro _ | split
theorem State.spillRead_keeps {s : State} {k n : Nat} (hk : Keeps s₀ s) : Keeps s₀ (s.spillRead k n) := by
  unfold State.spillRead
  repeat' with_reducible first
    | assumption | exact Keeps.refl _ | apply State.burstsRead_keeps | apply State.onShare_keeps | intro _ | split
theorem State.spillDrop_keeps {s : State} {k n : Nat} (hk : Keeps s₀ s) : Keeps s₀ (s.spillDrop k n) := by
  unfold State.spillDrop
  repeat' with_reducible first
    | assumption | exact Keeps.refl _ | apply State.onShare_keeps | intro _ | split
theorem State.shareTraffic_keeps {s : State} {k region read written : Nat} (hk : Keeps s₀ s) : Keeps s₀ (s.shareTraffic k region read written) := by
  unfold State.shareTraffic
  repeat' with_reducible first
    | assumption | exact Keeps.refl _ | apply State.burstsWritten_keeps | apply State.burstsRead_keeps | apply State.onShare_keeps | intro _ | split
theorem State.shareRefused_keeps {s : State} {k region : Nat} (hk : Keeps s₀ s) : Keeps s₀ (s.shareRefused k region) := by
  unfold State.shareRefused
  repeat' with_reducible first
    | assumption | exact Keeps.refl _ | apply State.onShare_keeps | intro _ | split
theorem State.dropQueued_keeps {s : State} (hk : Keeps s₀ s) : Keeps s₀ s.dropQueued := by
  unfold State.dropQueued
  repeat' with_reducible first
    | assumption | exact Keeps.refl _ | apply State.finishNewest_keeps | apply Keeps.ite | intro _ | split
theorem State.speedStep_keeps {s : State} {target cause override : Nat} (hk : Keeps s₀ s) : Keeps s₀ (s.speedStep target cause override) := by
  unfold State.speedStep
  repeat' with_reducible first
    | assumption | exact Keeps.refl _ | apply State.onMem_keeps | apply State.dropQueued_keeps | apply State.rebalance_keeps
    | apply State.settleShares_keeps | apply Keeps.ite | intro _ | split
theorem State.leaveRetain_keeps {s : State} (hk : Keeps s₀ s) : Keeps s₀ s.leaveRetain := by
  unfold State.leaveRetain
  repeat' with_reducible first
    | assumption | exact Keeps.refl _ | apply keeps_forEach | apply State.onChannel_keeps | apply Keeps.ite | intro _ | split
theorem State.clockingSpeed_keeps {s : State} {lean : Bool} {override : Nat} (hk : Keeps s₀ s) : Keeps s₀ (s.clockingSpeed lean override) := by
  unfold State.clockingSpeed
  repeat' with_reducible first
    | assumption | exact Keeps.refl _ | apply State.leaveRetain_keeps | apply State.speedStep_keeps | apply Keeps.ite | intro _ | split

/-! ### Machine/TableOps.lean -/

theorem State.onVer_keeps {s : State} {k : Nat} {f : Ver → Ver} (hk : Keeps s₀ s) : Keeps s₀ (s.onVer k f) := by
  unfold State.onVer
  repeat' with_reducible first
    | assumption | exact Keeps.refl _ | apply State.onTab_keeps | intro _ | split
theorem State.setBatch_keeps {s : State} {k : Nat} (hk : Keeps s₀ s) : Keeps s₀ (s.setBatch k) := by
  unfold State.setBatch
  repeat' with_reducible first
    | assumption | exact Keeps.refl _ | apply State.onVer_keeps | intro _ | split
theorem State.putCfgBank_keeps {s : State} {k bank : Nat} {c : LookCfg} (hk : Keeps s₀ s) : Keeps s₀ (s.putCfgBank k bank c) := by
  unfold State.putCfgBank
  repeat' with_reducible first
    | assumption | exact Keeps.refl _ | apply State.onTab_keeps | intro _ | split
theorem State.stageCfg_keeps {s : State} {k : Nat} {f : LookCfg → LookCfg} (hk : Keeps s₀ s) : Keeps s₀ (s.stageCfg k f) := by
  unfold State.stageCfg
  repeat' with_reducible first
    | assumption | exact Keeps.refl _ | apply State.setBatch_keeps | apply State.onTab_keeps | apply State.putCfgBank_keeps | intro _ | split
theorem State.onInsts_keeps {s : State} {k kind : Nat} {f : Bind Inst → Bind Inst} (hk : Keeps s₀ s) : Keeps s₀ (s.onInsts k kind f) := by
  unfold State.onInsts
  repeat' with_reducible first
    | assumption | exact Keeps.refl _ | apply State.onTab_keeps | intro _ | split
theorem State.putWord_keeps {s : State} {w v : Nat} (hk : Keeps s₀ s) : Keeps s₀ (s.putWord w v) := by
  unfold State.putWord
  repeat' with_reducible first
    | assumption | exact Keeps.refl _ | apply State.onTab_keeps | intro _ | split
theorem putWords_keeps : ∀ (ws : List Nat) (s : State) (v : Nat), Keeps s₀ s → Keeps s₀ (putWords s ws v)
  | [], _, _, hk => hk
  | _ :: ws, _, _, hk => putWords_keeps ws _ _ (State.putWord_keeps hk)
theorem State.writeLoc_keeps {s : State} {i : Inst} {t : Nat} {l : Loc} {v : Nat} (hk : Keeps s₀ s) : Keeps s₀ (s.writeLoc i t l v) := by
  unfold State.writeLoc
  repeat' with_reducible first
    | assumption | exact Keeps.refl _ | apply putWords_keeps | intro _ | split
theorem State.writeEnt_keeps {s : State} {i : Inst} {t b j raw : Nat} (hk : Keeps s₀ s) : Keeps s₀ (s.writeEnt i t b j raw) := by
  unfold State.writeEnt
  repeat' with_reducible first
    | assumption | exact Keeps.refl _ | apply State.writeLoc_keeps | intro _ | split
theorem State.clearEnt_keeps {s : State} {i : Inst} {t b j : Nat} (hk : Keeps s₀ s) : Keeps s₀ (s.clearEnt i t b j) := by
  unfold State.clearEnt
  repeat' with_reducible first
    | assumption | exact Keeps.refl _ | apply State.writeLoc_keeps | intro _ | split
theorem State.moveEnt_keeps {s : State} {i : Inst} {t : Nat} {x : Nat × Nat} (hk : Keeps s₀ s) : Keeps s₀ (s.moveEnt i t x) := by
  unfold State.moveEnt
  repeat' with_reducible first
    | assumption | exact Keeps.refl _ | apply State.onTab_keeps | apply State.clearEnt_keeps | apply State.writeEnt_keeps | intro _ | dsimp only
    | split
theorem State.placeEnt_keeps {s : State} {i : Inst} {t raw : Nat} (hk : Keeps s₀ s) : KeepsOpt s₀ (s.placeEnt i t raw) := by
  unfold State.placeEnt; split
  · exact KeepsOpt.map (fun _ _ => State.writeEnt_keeps hk)
  · exact KeepsOpt.none
theorem State.insertEnt_keeps {s : State} {i : Inst} {t limit raw : Nat} (hk : Keeps s₀ s) : KeepsOpt s₀ (s.insertEnt i t limit raw) := by
  unfold State.insertEnt
  repeat' with_reducible first
    | assumption | exact Keeps.refl _ | apply State.placeEnt_keeps | apply State.moveEnt_keeps | apply keeps_foldl | apply Keeps.of_opt ‹_›
    | exact KeepsOpt.none | apply KeepsOpt.some | intro _ | dsimp only | split
theorem State.lookHash_keeps {s : State} {t k v kind key : Nat} (hk : Keeps s₀ s) : Keeps s₀ (s.lookHash t k v kind key).2.2 := by
  unfold State.lookHash
  repeat' with_reducible first
    | assumption | exact Keeps.refl _ | apply State.bumpN_keeps | apply State.bump_keeps | intro _ | dsimp only | split
theorem State.lookLoc_keeps {s : State} {t k v kind : Nat} {l : Loc} (hk : Keeps s₀ s) : Keeps s₀ (s.lookLoc t k v kind l).2.2 := by
  unfold State.lookLoc
  repeat' with_reducible first
    | assumption | exact Keeps.refl _ | apply State.bump_keeps | intro _ | split
theorem State.lookDirect_keeps {s : State} {t k v kind idx : Nat} (hk : Keeps s₀ s) : Keeps s₀ (s.lookDirect t k v kind idx).2.2 := by
  unfold State.lookDirect
  repeat' with_reducible first
    | assumption | exact Keeps.refl _ | apply State.lookLoc_keeps | intro _ | dsimp only | split
theorem State.resolveGroup_keeps {s : State} {t k v g : Nat} {slots : SMap Nat} (hk : Keeps s₀ s) : Keeps s₀ (s.resolveGroup t k v g slots).2.2 := by
  unfold State.resolveGroup
  repeat' with_reducible first
    | assumption | exact Keeps.refl _ | apply State.lookDirect_keeps | apply State.lookLoc_keeps | intro _ | dsimp only | split
theorem State.putBacks_keeps {s : State} {k kind key : Nat} {l : List BEnt} (hk : Keeps s₀ s) : Keeps s₀ (s.putBacks k kind key l) := by
  unfold State.putBacks
  repeat' with_reducible first
    | assumption | exact Keeps.refl _ | apply State.onTab_keeps | intro _ | split
theorem State.maskTiles_keeps {s : State} {k : Nat} {i : Inst} {key content old new : Nat} (hk : Keeps s₀ s) :
    Keeps s₀ (s.maskTiles k i key content old new) := by
  unfold State.maskTiles
  repeat' with_reducible first
    | assumption | exact Keeps.refl _ | apply keeps_forEach | apply State.clearEnt_keeps | apply State.writeEnt_keeps | apply Keeps.ite | intro _
    | split
theorem insertTiles_keeps {i : Inst} {raw : Nat} : ∀ {ts : List Nat} {s : State}, Keeps s₀ s → KeepsOpt s₀ (insertTiles i raw ts s)
  | [], _, hk => KeepsOpt.some hk
  | t :: ts, s, hk => by
    unfold insertTiles; split
    · rename_i x e; exact insertTiles_keeps (Keeps.of_opt e (State.insertEnt_keeps hk))
    · exact KeepsOpt.none
theorem insertAll_keeps {k raw : Nat} : ∀ {l : List Inst} {s : State}, Keeps s₀ s → KeepsOpt s₀ (insertAll k raw l s)
  | [], _, hk => KeepsOpt.some hk
  | t :: ts, s, hk => by
    unfold insertAll; split
    · rename_i x e; exact insertAll_keeps (Keeps.of_opt e (insertTiles_keeps hk))
    · exact KeepsOpt.none
theorem State.stageHash_keeps {s : State} {k kind key content : Nat} (hk : Keeps s₀ s) : KeepsOpt s₀ (s.stageHash k kind key content) := by
  unfold State.stageHash
  repeat' with_reducible first
    | assumption | exact Keeps.refl _ | apply State.maskTiles_keeps | apply insertAll_keeps | apply State.setBatch_keeps | apply State.putBacks_keeps
    | apply keeps_foldl | apply Keeps.of_opt ‹_› | exact KeepsOpt.none | apply KeepsOpt.some | intro _ | dsimp only | split
theorem State.unstageHash_keeps {s : State} {k kind key : Nat} (hk : Keeps s₀ s) : KeepsOpt s₀ (s.unstageHash k kind key) := by
  unfold State.unstageHash
  repeat' with_reducible first
    | assumption | exact Keeps.refl _ | apply State.maskTiles_keeps | apply State.setBatch_keeps | apply State.putBacks_keeps | apply keeps_foldl
    | exact KeepsOpt.none | apply KeepsOpt.some | intro _ | dsimp only | split
theorem State.writeDirect_keeps {s : State} {k kind : Nat} {tile : Option Nat} {l : Loc} {raw : Nat} (hk : Keeps s₀ s) :
    Keeps s₀ (s.writeDirect k kind tile l raw) := by
  unfold State.writeDirect
  repeat' with_reducible first
    | assumption | exact Keeps.refl _ | apply keeps_forEach | apply State.writeLoc_keeps | apply keeps_foldl | intro _ | split

/-! ### Machine/PrefixOps.lean -/

theorem State.redoDirect_keeps {s : State} {k d len addr : Nat} (hk : Keeps s₀ s) : Keeps s₀ (s.redoDirect k d len addr) := by
  unfold State.redoDirect
  repeat' with_reducible first
    | assumption | exact Keeps.refl _ | apply keeps_forEach | apply State.writeLoc_keeps | apply keeps_foldl | intro _ | split
theorem State.setFilter4In_keeps {s : State} {i : Inst} {k d top len : Nat} {b : Bool} (hk : Keeps s₀ s) :
    Keeps s₀ (s.setFilter4In i k d top len b) := by
  unfold State.setFilter4In
  repeat' with_reducible first
    | assumption | exact Keeps.refl _ | apply keeps_forEach | apply State.writeLoc_keeps | intro _ | split
theorem State.setFilter4_keeps {s : State} {k d top len : Nat} {b : Bool} (hk : Keeps s₀ s) : Keeps s₀ (s.setFilter4 k d top len b) := by
  unfold State.setFilter4
  repeat' with_reducible first
    | assumption | exact Keeps.refl _ | apply State.setFilter4In_keeps | apply keeps_foldl | intro _ | split
theorem State.onset_keeps {s : State} {kind unit : Nat} (hk : Keeps s₀ s) : Keeps s₀ (s.onset kind unit).2 := by
  unfold State.onset
  repeat' with_reducible first
    | assumption | exact Keeps.refl _ | apply State.onTab_keeps | intro _ | split
theorem State.addFilter6_keeps {s : State} {i : Inst} {k d top t : Nat} (hk : Keeps s₀ s) : Keeps s₀ (s.addFilter6 i k d top t) := by
  unfold State.addFilter6
  repeat' with_reducible first
    | assumption | exact Keeps.refl _ | apply State.writeLoc_keeps | apply State.onset_keeps | apply State.bump_keeps | apply State.post_keeps
    | apply Keeps.ite | intro _ | dsimp only | split
theorem State.setFilter6_keeps {s : State} {k d len addr : Nat} (hk : Keeps s₀ s) : Keeps s₀ (s.setFilter6 k d len addr) := by
  unfold State.setFilter6
  repeat' with_reducible first
    | assumption | exact Keeps.refl _ | apply keeps_forEach | apply State.addFilter6_keeps | apply keeps_foldl | intro _ | split
theorem State.trimFilter6_keeps {s : State} {k d len addr : Nat} (hk : Keeps s₀ s) : Keeps s₀ (s.trimFilter6 k d len addr) := by
  unfold State.trimFilter6
  repeat' with_reducible first
    | assumption | exact Keeps.refl _ | apply keeps_forEach | apply State.writeLoc_keeps | apply keeps_foldl | intro _ | dsimp only | split
theorem State.trimFilter_keeps {s : State} {k kind key : Nat} (hk : Keeps s₀ s) : Keeps s₀ (s.trimFilter k kind key) := by
  unfold State.trimFilter
  repeat' with_reducible first
    | assumption | exact Keeps.refl _ | apply State.setFilter4_keeps | apply State.trimFilter6_keeps | apply Keeps.ite | intro _ | split
theorem State.addPrefix_keeps {s : State} {k family len d addr res : Nat} (hk : Keeps s₀ s) : KeepsOpt s₀ (s.addPrefix k family len d addr res) := by
  unfold State.addPrefix
  repeat' with_reducible first
    | assumption | exact Keeps.refl _ | apply State.redoDirect_keeps | apply State.setBatch_keeps | apply State.putBacks_keeps
    | apply State.stageHash_keeps | apply State.setFilter4_keeps | apply State.stageCfg_keeps | apply State.setFilter6_keeps | apply Keeps.of_opt ‹_›
    | apply KeepsOpt.some | apply KeepsOpt.map | apply KeepsOpt.ite | intro _ | split
theorem State.dropPrefix_keeps {s : State} {k family len d addr : Nat} (hk : Keeps s₀ s) : KeepsOpt s₀ (s.dropPrefix k family len d addr) := by
  unfold State.dropPrefix
  repeat' with_reducible first
    | assumption | exact Keeps.refl _ | apply State.redoDirect_keeps | apply State.setBatch_keeps | apply State.putBacks_keeps
    | apply State.unstageHash_keeps | apply State.stageCfg_keeps | exact KeepsOpt.none | apply KeepsOpt.some | apply KeepsOpt.ite | intro _ | split

/-! ### Machine/VersionOps.lean -/

theorem State.remaskHash_keeps {s : State} {k kind : Nat} {e : Nat × List BEnt} (hk : Keeps s₀ s) : Keeps s₀ (s.remaskHash k kind e) := by
  unfold State.remaskHash
  repeat' with_reducible first
    | assumption | exact Keeps.refl _ | apply State.maskTiles_keeps | apply State.putBacks_keeps | apply State.trimFilter_keeps | apply keeps_foldl
    | apply Keeps.ite | intro _ | split
theorem State.remaskDirect_keeps {s : State} {k kind : Nat} {e : Nat × List BEnt} (hk : Keeps s₀ s) : Keeps s₀ (s.remaskDirect k kind e) := by
  unfold State.remaskDirect
  repeat' with_reducible first
    | assumption | exact Keeps.refl _ | apply State.writeDirect_keeps | apply State.putBacks_keeps | apply Keeps.ite | intro _ | dsimp only | split
theorem State.remaskDirects_keeps {s : State} {k : Nat} (hk : Keeps s₀ s) : Keeps s₀ (s.remaskDirects k) := by
  unfold State.remaskDirects
  repeat' with_reducible first
    | assumption | exact Keeps.refl _ | apply State.onTab_keeps | apply keeps_foldl | intro _ | split
theorem State.remaskShort_keeps {s : State} {k : Nat} (hk : Keeps s₀ s) : Keeps s₀ (s.remaskShort k) := by
  unfold State.remaskShort
  repeat' with_reducible first
    | assumption | exact Keeps.refl _ | apply State.putBacks_keeps | apply keeps_foldl | intro _ | split
theorem State.remaskAll_keeps {s : State} {k : Nat} (hk : Keeps s₀ s) : Keeps s₀ (s.remaskAll k) := by
  unfold State.remaskAll
  repeat' with_reducible first
    | assumption | exact Keeps.refl _ | apply State.remaskHash_keeps | apply State.remaskDirect_keeps | apply State.remaskShort_keeps
    | apply State.remaskDirects_keeps | apply State.onTab_keeps | apply keeps_foldl | intro _ | split
theorem State.zeroInst_keeps {s : State} {i : Inst} (hk : Keeps s₀ s) : Keeps s₀ (s.zeroInst i) := by
  unfold State.zeroInst
  repeat' with_reducible first
    | assumption | exact Keeps.refl _ | apply State.onTab_keeps | intro _ | split
theorem State.onGraphs_keeps {s : State} {k : Nat} {f : Bind Graph → Bind Graph} (hk : Keeps s₀ s) : Keeps s₀ (s.onGraphs k f) := by
  unfold State.onGraphs
  repeat' with_reducible first
    | assumption | exact Keeps.refl _ | apply State.onTab_keeps | intro _ | split
theorem State.onSets_keeps {s : State} {k : Nat} {f : Bind PatSet → Bind PatSet} (hk : Keeps s₀ s) : Keeps s₀ (s.onSets k f) := by
  unfold State.onSets
  repeat' with_reducible first
    | assumption | exact Keeps.refl _ | apply State.onTab_keeps | intro _ | split
theorem State.onEdit_keeps {s : State} {k : Nat} {f : EditSt → EditSt} (hk : Keeps s₀ s) : Keeps s₀ (s.onEdit k f) := by
  unfold State.onEdit
  repeat' with_reducible first
    | assumption | exact Keeps.refl _ | apply State.onTab_keeps | intro _ | split
theorem State.copyBank_keeps {s : State} {k from_ to_ : Nat} (hk : Keeps s₀ s) : Keeps s₀ (s.copyBank k from_ to_) := by
  unfold State.copyBank
  repeat' with_reducible first
    | assumption | exact Keeps.refl _ | apply State.onEdit_keeps | apply State.onTab_keeps | intro _ | split
theorem State.discardWords_keeps {s : State} {k : Nat} (hk : Keeps s₀ s) : Keeps s₀ (s.discardWords k) := by
  unfold State.discardWords
  repeat' with_reducible first
    | assumption | exact Keeps.refl _ | apply State.copyBank_keeps | apply Keeps.ite | intro _ | split
theorem State.abortBatch_keeps {s : State} {k : Nat} (hk : Keeps s₀ s) : Keeps s₀ (s.abortBatch k) := by
  unfold State.abortBatch
  repeat' with_reducible first
    | assumption | exact Keeps.refl _ | apply State.remaskAll_keeps | apply State.onInsts_keeps | apply State.zeroInst_keeps
    | apply State.onEdit_keeps | apply State.discardWords_keeps | apply State.onSets_keeps | apply State.onGraphs_keeps | apply State.onVer_keeps
    | apply State.onTab_keeps | apply keeps_foldl | intro _ | split
theorem State.cancelCommit_keeps {s : State} {k cause : Nat} (hk : Keeps s₀ s) : Keeps s₀ (s.cancelCommit k cause) := by
  unfold State.cancelCommit
  repeat' with_reducible first
    | assumption | exact Keeps.refl _ | apply State.finish_keeps | apply State.onVer_keeps | intro _ | split
theorem State.abandonCommits_keeps {s : State} {cause : Nat} (hk : Keeps s₀ s) : Keeps s₀ (s.abandonCommits cause) := by
  unfold State.abandonCommits
  repeat' with_reducible first
    | assumption | exact Keeps.refl _ | apply keeps_forEach | apply State.cancelCommit_keeps | apply Keeps.ite | intro _ | split
theorem State.flip_keeps {s : State} {k : Nat} (hk : Keeps s₀ s) : Keeps s₀ (s.flip k) := by
  unfold State.flip
  repeat' with_reducible first
    | assumption | exact Keeps.refl _ | apply State.onTab_keeps | apply State.putCfgBank_keeps | apply State.onInsts_keeps | apply State.onEdit_keeps
    | apply State.onSets_keeps | apply State.onGraphs_keeps | apply State.onVer_keeps | apply keeps_forEach | apply State.bump_keeps
    | apply keeps_foldl | apply Keeps.ite | intro _ | split
theorem State.retire_keeps {s : State} {k : Nat} (hk : Keeps s₀ s) : Keeps s₀ (s.retire k) := by
  unfold State.retire
  repeat' with_reducible first
    | assumption | exact Keeps.refl _ | apply State.onInsts_keeps | apply State.zeroInst_keeps | apply State.remaskAll_keeps
    | apply State.onEdit_keeps | apply State.onSets_keeps | apply State.onGraphs_keeps | apply State.onVer_keeps | apply keeps_foldl
    | apply Keeps.ite | intro _ | split
theorem State.holdCommand_keeps {s : State} {opcode k writes : Nat} {m : Msg} (hk : Keeps s₀ s) : Keeps s₀ (s.holdCommand opcode k writes m) := by
  unfold State.holdCommand
  repeat' with_reducible first
    | assumption | exact Keeps.refl _ | (refine State.onCmd_same ?_ (fun _ => rfl)) | apply keeps_forEach | apply State.bumpN_keeps | intro _ | split

/-! ### Machine/SwitchOps.lean -/

theorem State.onPkt_keeps {s : State} {id : Nat} {f : Pkt → Pkt} (hk : Keeps s₀ s) : Keeps s₀ (s.onPkt id f) := by
  unfold State.onPkt
  repeat' with_reducible first
    | assumption | exact Keeps.refl _ | apply State.onSw_keeps | intro _ | split
theorem State.delayPkt_keeps {s : State} {id n : Nat} (hk : Keeps s₀ s) : Keeps s₀ (s.delayPkt id n) := by
  unfold State.delayPkt
  repeat' with_reducible first
    | assumption | exact Keeps.refl _ | apply State.onPkt_keeps | apply State.onSw_keeps | intro _ | split
theorem State.addPkt_keeps {s : State} {p : Pkt} (hk : Keeps s₀ s) : Keeps s₀ (s.addPkt p) := by
  unfold State.addPkt
  repeat' with_reducible first
    | assumption | exact Keeps.refl _ | apply State.onSw_keeps | intro _ | split
theorem State.erasePkt_keeps {s : State} {id : Nat} (hk : Keeps s₀ s) : Keeps s₀ (s.erasePkt id) := by
  unfold State.erasePkt
  repeat' with_reducible first
    | assumption | exact Keeps.refl _ | apply State.onSw_keeps | apply State.onPkt_keeps | apply Keeps.ite | intro _ | split
theorem State.onVoq_keeps {s : State} {key : Nat} {f : List Nat → List Nat} (hk : Keeps s₀ s) : Keeps s₀ (s.onVoq key f) := by
  unfold State.onVoq
  repeat' with_reducible first
    | assumption | exact Keeps.refl _ | apply State.onSw_keeps | intro _ | split
theorem State.leaveVoqs_keeps {s : State} {id : Nat} (hk : Keeps s₀ s) : Keeps s₀ (s.leaveVoqs id) := by
  unfold State.leaveVoqs
  repeat' with_reducible first
    | assumption | exact Keeps.refl _ | apply State.onSw_keeps | intro _ | split
theorem State.dropHold_keeps {s : State} {h : Nat} (hk : Keeps s₀ s) : Keeps s₀ (s.dropHold h) := by
  unfold State.dropHold
  repeat' with_reducible first
    | assumption | exact Keeps.refl _ | apply State.onSw_keeps | intro _ | split
theorem State.settleQueue_keeps {s : State} {x c : Nat} (hk : Keeps s₀ s) : Keeps s₀ (s.settleQueue x c) := by
  unfold State.settleQueue
  repeat' with_reducible first
    | assumption | exact Keeps.refl _ | apply State.onQueue_keeps | apply Keeps.ite | intro _ | split
theorem State.pipeSlot_keeps {s : State} {t cat : Nat} (hk : Keeps s₀ s) : Keeps s₀ (s.pipeSlot t cat) := by
  unfold State.pipeSlot
  repeat' with_reducible first
    | assumption | exact Keeps.refl _ | apply State.bump_keeps | intro _ | split
theorem State.dressSlots_keeps {s : State} {p : Pkt} {cat : Nat} (hk : Keeps s₀ s) : Keeps s₀ (s.dressSlots p cat) := by
  unfold State.dressSlots
  repeat' with_reducible first
    | assumption | exact Keeps.refl _ | apply State.arr_keeps | apply State.bumpN_keeps | apply Keeps.ite | intro _ | split
theorem State.leaveEgress_keeps {s : State} {id x c : Nat} (hk : Keeps s₀ s) : Keeps s₀ (s.leaveEgress id x c) := by
  unfold State.leaveEgress
  repeat' with_reducible first
    | assumption | exact Keeps.refl _ | apply State.onQueue_keeps | apply State.onEg_keeps | intro _ | split
theorem State.freeExit_keeps {s : State} {x id : Nat} (hk : Keeps s₀ s) : Keeps s₀ (s.freeExit x id) := by
  unfold State.freeExit
  repeat' with_reducible first
    | assumption | exact Keeps.refl _ | apply State.onEg_keeps | intro _ | split
theorem State.releaseCells_keeps {s : State} {p : Pkt} {flushed : Bool} (hk : Keeps s₀ s) : Keeps s₀ (s.releaseCells p flushed) := by
  unfold State.releaseCells
  repeat' with_reducible first
    | assumption | exact Keeps.refl _ | apply State.onSw_keeps | apply Keeps.ite | intro _ | split
theorem State.discard_keeps {s : State} {id : Nat} {p : Pkt} {flushed : Bool} (hk : Keeps s₀ s) : Keeps s₀ (s.discard id p flushed) := by
  unfold State.discard
  repeat' with_reducible first
    | assumption | exact Keeps.refl _ | apply State.spillDrop_keeps | apply State.releaseCells_keeps | apply State.dropHold_keeps
    | apply State.dressSlots_keeps | apply State.settleQueue_keeps | apply State.erasePkt_keeps | apply State.leaveEgress_keeps
    | apply State.leaveVoqs_keeps | apply Keeps.ite | intro _ | split
theorem State.stompPkt_keeps {s : State} {id cause : Nat} (hk : Keeps s₀ s) : Keeps s₀ (s.stompPkt id cause) := by
  unfold State.stompPkt
  repeat' with_reducible first
    | assumption | exact Keeps.refl _ | apply State.onPkt_keeps | intro _ | split
theorem State.settleSpill_keeps {s : State} {k key : Nat} (hk : Keeps s₀ s) : Keeps s₀ (s.settleSpill k key) := by
  unfold State.settleSpill
  repeat' with_reducible first
    | assumption | exact Keeps.refl _ | apply State.onSw_keeps | apply Keeps.ite | intro _ | split
theorem State.countFlush_keeps {s : State} {t x c : Nat} (hk : Keeps s₀ s) : Keeps s₀ (s.countFlush t x c) := by
  unfold State.countFlush
  repeat' with_reducible first
    | assumption | exact Keeps.refl _ | apply State.arr_keeps | apply State.stat_keeps | apply Keeps.ite | intro _ | split
theorem State.flushPkt_keeps {s : State} {id : Nat} (hk : Keeps s₀ s) : Keeps s₀ (s.flushPkt id) := by
  unfold State.flushPkt
  repeat' with_reducible first
    | assumption | exact Keeps.refl _ | apply State.settleSpill_keeps | apply State.discard_keeps | apply State.countFlush_keeps
    | apply State.freeExit_keeps | apply State.onPkt_keeps | apply State.stompPkt_keeps | apply State.releaseCells_keeps | apply State.bump_keeps
    | apply State.leaveEgress_keeps | apply Keeps.ite | intro _ | dsimp only | split
theorem State.flushClasses_keeps {s : State} {l mask : Nat} (hk : Keeps s₀ s) : Keeps s₀ (s.flushClasses l mask) := by
  unfold State.flushClasses
  repeat' with_reducible first
    | assumption | exact Keeps.refl _ | apply State.leaveEgress_keeps | apply keeps_forEach | apply State.flushPkt_keeps | apply State.onSw_keeps
    | apply State.onQueue_keeps | apply keeps_foldl | intro _ | split
theorem State.flushLport_keeps {s : State} {l : Nat} (hk : Keeps s₀ s) : Keeps s₀ (s.flushLport l) := by
  unfold State.flushLport
  repeat' with_reducible first
    | assumption | exact Keeps.refl _ | apply State.flushClasses_keeps | intro _ | split

/-! ### Machine/PortOps.lean -/

theorem State.peerDown_keeps {s : State} {l why : Nat} (hk : Keeps s₀ s) : Keeps s₀ (s.peerDown l why) := by
  unfold State.peerDown
  repeat' with_reducible first
    | assumption | exact Keeps.refl _ | apply State.post_keeps | apply State.onLport_keeps | apply Keeps.ite | intro _ | split
theorem State.probationLost_keeps {s : State} {l : Nat} (hk : Keeps s₀ s) : Keeps s₀ (s.probationLost l) := by
  unfold State.probationLost
  repeat' with_reducible first
    | assumption | exact Keeps.refl _ | apply State.post_keeps | apply State.onLport_keeps | apply Keeps.ite | intro _ | split
theorem State.stopLport_keeps {s : State} {l : Nat} (hk : Keeps s₀ s) : Keeps s₀ (s.stopLport l) := by
  unfold State.stopLport
  repeat' with_reducible first
    | assumption | exact Keeps.refl _ | apply State.flushLport_keeps | apply State.onLport_keeps | apply State.peerDown_keeps
    | apply State.probationLost_keeps | intro _ | split
theorem State.downLport_keeps {s : State} {l cause : Nat} (hk : Keeps s₀ s) : Keeps s₀ (s.downLport l cause) := by
  unfold State.downLport
  repeat' with_reducible first
    | assumption | exact Keeps.refl _ | apply State.onLport_keeps | apply State.stopLport_keeps | apply State.post_keeps | apply Keeps.ite | intro _
    | split
theorem State.holdLport_keeps {s : State} {l : Nat} (hk : Keeps s₀ s) : Keeps s₀ (s.holdLport l) := by
  unfold State.holdLport
  repeat' with_reducible first
    | assumption | exact Keeps.refl _ | apply State.onLport_keeps | apply State.stopLport_keeps | apply Keeps.ite | intro _ | split
theorem State.trainLport_keeps {s : State} {l : Nat} (hk : Keeps s₀ s) : Keeps s₀ (s.trainLport l) := by
  unfold State.trainLport
  repeat' with_reducible first
    | assumption | exact Keeps.refl _ | apply State.onLport_keeps | apply Keeps.ite | intro _ | split
theorem State.settleLport_keeps {s : State} {l : Nat} (hk : Keeps s₀ s) : Keeps s₀ (s.settleLport l) := by
  unfold State.settleLport
  repeat' with_reducible first
    | assumption | exact Keeps.refl _ | apply State.trainLport_keeps | apply State.holdLport_keeps | apply State.onLport_keeps | apply Keeps.ite
    | intro _ | split
theorem State.testEnded_keeps {s : State} {kind outcome unit : Nat} (hk : Keeps s₀ s) : Keeps s₀ (s.testEnded kind outcome unit) := by
  unfold State.testEnded
  repeat' with_reducible first
    | assumption | exact Keeps.refl _ | apply State.post_keeps | intro _ | split
theorem State.endLoop_keeps {s : State} {outcome l : Nat} (hk : Keeps s₀ s) : Keeps s₀ (s.endLoop outcome l) := by
  unfold State.endLoop
  repeat' with_reducible first
    | assumption | exact Keeps.refl _ | apply State.settleLport_keeps | apply State.testEnded_keeps | apply State.onLport_keeps | intro _ | split
theorem State.endPattern_keeps {s : State} {outcome n : Nat} (hk : Keeps s₀ s) : Keeps s₀ (s.endPattern outcome n) := by
  unfold State.endPattern
  repeat' with_reducible first
    | assumption | exact Keeps.refl _ | apply State.testEnded_keeps | apply State.onLane_keeps | apply State.settleLport_keeps | apply Keeps.ite
    | intro _ | dsimp only | split
theorem State.endTests_keeps {s : State} (hk : Keeps s₀ s) : Keeps s₀ s.endTests := by
  unfold State.endTests
  repeat' with_reducible first
    | assumption | exact Keeps.refl _ | apply keeps_forEach | apply State.endLoop_keeps | apply State.endPattern_keeps | apply Keeps.ite | intro _
    | split
theorem State.fecCount_keeps {s : State} {l cw corr sym unc : Nat} (hk : Keeps s₀ s) : Keeps s₀ (s.fecCount l cw corr sym unc) := by
  unfold State.fecCount
  repeat' with_reducible first
    | assumption | exact Keeps.refl _ | apply State.statN_keeps | apply State.onLport_keeps | apply Keeps.ite | intro _ | split
theorem State.postPort_keeps {s : State} {l code : Nat} {pay : List Byte} (hk : Keeps s₀ s) : Keeps s₀ (s.postPort l code pay) := by
  unfold State.postPort
  repeat' with_reducible first
    | assumption | exact Keeps.refl _ | apply State.post_keeps | intro _ | split
theorem State.setDegraded_keeps {s : State} {l : Nat} {d : Bool} (hk : Keeps s₀ s) : Keeps s₀ (s.setDegraded l d) := by
  unfold State.setDegraded
  repeat' with_reducible first
    | assumption | exact Keeps.refl _ | apply State.postPort_keeps | apply State.onLport_keeps | apply Keeps.ite | intro _ | split

/-! ### Machine/ModeOps.lean -/

theorem State.enableMailboxes_keeps {s : State} (hk : Keeps s₀ s) : Keeps s₀ s.enableMailboxes := by
  unfold State.enableMailboxes
  repeat' with_reducible first
    | assumption | exact Keeps.refl _ | apply keeps_forEach | apply State.onMb_keeps | intro _ | split
theorem State.ringsOff_keeps {s : State} (hk : Keeps s₀ s) : Keeps s₀ s.ringsOff := by
  unfold State.ringsOff
  repeat' with_reducible first
    | assumption | exact Keeps.refl _ | (refine State.onHost_same ?_ (fun _ => ⟨rfl, rfl⟩)) | intro _ | split
theorem State.ringsForMode_keeps {s : State} (hk : Keeps s₀ s) : Keeps s₀ s.ringsForMode := by
  unfold State.ringsForMode
  repeat' with_reducible first
    | assumption | exact Keeps.refl _ | apply State.ringsOff_keeps | (refine State.onHost_same ?_ (fun _ => ⟨rfl, rfl⟩)) | apply Keeps.ite | intro _
    | split
theorem State.disarmInjectors_keeps {s : State} (hk : Keeps s₀ s) : Keeps s₀ s.disarmInjectors := by
  unfold State.disarmInjectors
  repeat' with_reducible first
    | assumption | exact Keeps.refl _ | apply keeps_forEach | apply State.post_keeps | apply State.onFault_keeps | apply Keeps.ite | intro _ | split
theorem State.portsForMode_keeps {s : State} {old new : Nat} (hk : Keeps s₀ s) : Keeps s₀ (s.portsForMode old new) := by
  unfold State.portsForMode
  repeat' with_reducible first
    | assumption | exact Keeps.refl _ | apply keeps_forEach | apply State.trainLport_keeps | apply State.onSw_keeps | apply State.holdLport_keeps
    | apply Keeps.ite | intro _ | split
theorem State.intendedMode_le (s : State) : s.intendedMode ≤ 7 := by
  unfold State.intendedMode; repeat' split
  all_goals decide
theorem State.setMode_keeps {s : State} {new cause : Nat} (hk : Keeps s₀ s) (hn : LegalMode s₀ → new ≤ 7) : Keeps s₀ (s.setMode new cause) := by
  unfold State.setMode
  apply State.raiseIrq_keeps; apply State.portsForMode_keeps; apply State.ringsForMode_keeps; apply State.enableMailboxes_keeps
  apply State.onFault_keeps; apply State.onPower_keeps
  have h3 : ∀ c : Bool, Keeps s₀ ((if c then s.accountSeconds.disarmInjectors.endTests else s.accountSeconds)) := by
    intro c; cases c
    · exact State.accountSeconds_keeps hk
    · exact State.endTests_keeps (State.disarmInjectors_keeps (State.accountSeconds_keeps hk))
  apply Keeps.ite
  · refine State.onCtl_same ?_ (fun _ => rfl)
    exact State.onCount_keeps (State.onCmd_mode (h3 _) (fun h _ => hn h))
  · exact State.onCount_keeps (State.onCmd_mode (h3 _) (fun h _ => hn h))
theorem State.abandonTransition_keeps {s : State} (hk : Keeps s₀ s) : Keeps s₀ s.abandonTransition := by
  unfold State.abandonTransition
  repeat' with_reducible first
    | assumption | exact Keeps.refl _ | (refine State.onCmd_same ?_ (fun _ => rfl)) | apply State.finishPlain_keeps | intro _ | dsimp only | split
theorem State.reportMode_keeps {s : State} {old flags override : Nat} (hk : Keeps s₀ s) : Keeps s₀ (s.reportMode old flags override) := by
  unfold State.reportMode
  repeat' with_reducible first
    | assumption | exact Keeps.refl _ | apply State.post_keeps | intro _ | split
theorem State.moveMode_keeps {s : State} {new cause ov : Nat} (hk : Keeps s₀ s) (hn : LegalMode s₀ → new ≤ 7) : Keeps s₀ (s.moveMode new cause ov) :=
  State.reportMode_keeps (State.setMode_keeps (State.abandonTransition_keeps hk) hn)
theorem State.enterSafe_keeps {s : State} {override : Nat} (hk : Keeps s₀ s) : Keeps s₀ (s.enterSafe override) := by
  unfold State.enterSafe
  repeat' with_reducible first
    | assumption | exact Keeps.refl _ | apply State.onFault_keeps | apply State.moveMode_keeps | (exact fun _ => by decide)
    | apply State.abandonCommits_keeps | apply Keeps.ite | intro _ | split

/-! ### Machine/ResetOps.lean -/

theorem State.resetTo_keeps {s : State} {mode cause : Nat} {dark : DarkCause} (hk : Keeps s₀ s) (hn : mode ≤ 7) :
    Keeps s₀ (s.resetTo mode cause dark) :=
  hk.trans ⟨rfl, rfl, fun _ => ⟨hn, fun _ e => by cases e⟩, fun h => ⟨rfl, h.2⟩⟩
theorem State.railsOff_keeps {s : State} (hk : Keeps s₀ s) : Keeps s₀ s.railsOff :=
  hk.trans ⟨rfl, rfl, fun h => h, fun h => ⟨rfl, h.2⟩⟩
theorem State.resetToLoad_keeps {s : State} {cause sender : Nat} {record : List Byte} (hk : Keeps s₀ s) :
    Keeps s₀ (s.resetToLoad cause sender record) := by
  unfold State.resetToLoad
  repeat' with_reducible first
    | assumption | exact Keeps.refl _ | apply State.resetTo_keeps | (exact by decide) | apply State.ledgerWrite_keeps | intro _ | split

/-! ### Machine/FaultOps.lean -/

theorem State.postFault_keeps {s : State} {code : Nat} {r : FaultRec} (hk : Keeps s₀ s) : Keeps s₀ (s.postFault code r) := by
  unfold State.postFault
  repeat' with_reducible first
    | assumption | exact Keeps.refl _ | apply State.post_keeps | apply Keeps.ite | intro _ | split
theorem State.journalFault_keeps {s : State} {r : FaultRec} (hk : Keeps s₀ s) : Keeps s₀ (s.journalFault r) := by
  unfold State.journalFault
  repeat' with_reducible first
    | assumption | exact Keeps.refl _ | apply State.onBook_keeps | intro _ | split
theorem State.capture_keeps {s0 : State} {r : FaultRec} (hk : Keeps s₀ s0) : Keeps s₀ (s0.capture r) := by
  unfold State.capture
  repeat' with_reducible first
    | assumption | exact Keeps.refl _ | apply State.journalFault_keeps | apply State.onFault_keeps | apply State.raiseIrq_keeps
    | apply State.postFault_keeps | apply Keeps.ite | intro _ | dsimp only | split
theorem State.isolate_keeps {s : State} {u : IsoUnit} (hk : Keeps s₀ s) : Keeps s₀ (s.isolate u) := by
  unfold State.isolate
  repeat' with_reducible first
    | assumption | exact Keeps.refl _ | apply State.onFault_keeps | apply State.flushLport_keeps | apply State.onPort_keeps
    | (refine State.onCtl_same ?_ (fun _ => rfl)) | intro _ | dsimp only | split
theorem State.fatalReset_keeps {s : State} {r : FaultRec} (hk : Keeps s₀ s) : Keeps s₀ (s.fatalReset r) := by
  unfold State.fatalReset
  repeat' with_reducible first
    | assumption | exact Keeps.refl _ | apply State.resetToLoad_keeps | apply State.onFault_keeps | apply Keeps.ite | intro _ | split
theorem State.applyEscalation_keeps {s : State} {sev : Nat} {r : FaultRec} {suppress : Bool} (hk : Keeps s₀ s) :
    Keeps s₀ (s.applyEscalation sev r suppress) := by
  unfold State.applyEscalation
  repeat' with_reducible first
    | assumption | exact Keeps.refl _ | apply State.isolate_keeps | apply State.enterSafe_keeps | apply State.fatalReset_keeps | apply Keeps.ite
    | intro _ | split
theorem State.escalate_keeps {s : State} {e : OpenFault} (hk : Keeps s₀ s) : Keeps s₀ (s.escalate e) := by
  unfold State.escalate
  repeat' with_reducible first
    | assumption | exact Keeps.refl _ | apply State.onFault_keeps | apply State.postFault_keeps | apply State.raiseIrq_keeps
    | apply State.applyEscalation_keeps | apply Keeps.ite | intro _ | split
theorem State.overflowFault_keeps {s : State} {r : FaultRec} {suppress : Bool} (hk : Keeps s₀ s) : Keeps s₀ (s.overflowFault r suppress) := by
  unfold State.overflowFault
  repeat' with_reducible first
    | assumption | exact Keeps.refl _ | apply State.onFault_keeps | apply State.applyEscalation_keeps | apply State.postFault_keeps
    | apply State.raiseIrq_keeps | intro _ | split
theorem State.report_keeps {s : State} {r : Report} (hk : Keeps s₀ s) : Keeps s₀ (s.report r) := by
  unfold State.report
  repeat' with_reducible first
    | assumption | exact Keeps.refl _ | apply State.fatalReset_keeps | apply State.onFault_keeps | apply State.capture_keeps
    | apply State.overflowFault_keeps | apply State.enterSafe_keeps | apply Keeps.ite | intro _ | dsimp only | split
theorem State.repairDone_keeps {s : State} {r : FaultRec} {ok : Bool} (hk : Keeps s₀ s) : Keeps s₀ (s.repairDone r ok) := by
  unfold State.repairDone
  repeat' with_reducible first
    | assumption | exact Keeps.refl _ | apply State.postFault_keeps | apply State.onFault_keeps | apply State.raiseIrq_keeps | apply Keeps.ite
    | intro _ | split
theorem State.dramUe_keeps {s : State} {cls unit stage access : Nat} (hk : Keeps s₀ s) : Keeps s₀ (s.dramUe cls unit stage access) := by
  unfold State.dramUe
  repeat' with_reducible first
    | assumption | exact Keeps.refl _ | apply State.report_keeps | apply State.bump_keeps | intro _ | split

/-! ### Machine/ModuleOps.lean -/

theorem State.onModule_keeps {s : State} {c : Nat} {f : Module → Module} (hk : Keeps s₀ s) : Keeps s₀ (s.onModule c f) := by
  unfold State.onModule
  repeat' with_reducible first
    | assumption | exact Keeps.refl _ | apply State.onSurr_keeps | intro _ | split
theorem State.powerUpModule_keeps {s : State} {p c : Nat} (hk : Keeps s₀ s) : Keeps s₀ (s.powerUpModule p c) := by
  unfold State.powerUpModule
  repeat' with_reducible first
    | assumption | exact Keeps.refl _ | apply State.onModule_keeps | intro _ | split
theorem State.settleModule_keeps {s : State} {p : Nat} (hk : Keeps s₀ s) : Keeps s₀ (s.settleModule p) := by
  unfold State.settleModule
  repeat' with_reducible first
    | assumption | exact Keeps.refl _ | apply State.powerUpModule_keeps | apply State.onModule_keeps | apply Keeps.ite | intro _ | dsimp only | split
theorem State.reselectModule_keeps {s : State} {p : Nat} (hk : Keeps s₀ s) : Keeps s₀ (s.reselectModule p) := by
  unfold State.reselectModule
  repeat' with_reducible first
    | assumption | exact Keeps.refl _ | apply State.powerUpModule_keeps | apply State.settleModule_keeps | apply Keeps.ite | intro _ | split
theorem State.postModule_keeps {s : State} {p code unit : Nat} {pay : List Byte} (hk : Keeps s₀ s) : Keeps s₀ (s.postModule p code unit pay) := by
  unfold State.postModule
  repeat' with_reducible first
    | assumption | exact Keeps.refl _ | apply State.post_keeps | apply Keeps.ite | intro _ | split
theorem State.downPort_keeps {s : State} {p cause : Nat} (hk : Keeps s₀ s) : Keeps s₀ (s.downPort p cause) := by
  unfold State.downPort
  repeat' with_reducible first
    | assumption | exact Keeps.refl _ | apply keeps_forEach | apply State.downLport_keeps | apply State.onLport_keeps | apply Keeps.ite | intro _
    | split

/-! ### Machine/PatternOps.lean -/

theorem State.retuneDie_keeps {s : State} {override die : Nat} (hk : Keeps s₀ s) : Keeps s₀ (s.retuneDie override die) := by
  unfold State.retuneDie
  repeat' with_reducible first
    | assumption | exact Keeps.refl _ | apply keeps_forEach | apply State.bump_keeps | apply State.onTab_keeps | apply State.postAll_keeps
    | apply Keeps.ite | intro _ | split
theorem State.retune_keeps {s : State} {override : Nat} (hk : Keeps s₀ s) : Keeps s₀ (s.retune override) := by
  unfold State.retune
  repeat' with_reducible first
    | assumption | exact Keeps.refl _ | apply keeps_forEach | apply State.retuneDie_keeps | intro _ | split
theorem State.throttleOff_keeps {s : State} {off : Bool} {override : Nat} (hk : Keeps s₀ s) : Keeps s₀ (s.throttleOff off override) := by
  unfold State.throttleOff
  repeat' with_reducible first
    | assumption | exact Keeps.refl _ | apply State.retune_keeps | apply State.onTab_keeps | intro _ | split
theorem State.limitThrottle_keeps {s : State} {off : Bool} (hk : Keeps s₀ s) : Keeps s₀ (s.limitThrottle off) := by
  unfold State.limitThrottle
  repeat' with_reducible first
    | assumption | exact Keeps.refl _ | apply State.retune_keeps | apply State.onTab_keeps | intro _ | split
theorem State.pinThrottle_keeps {s : State} {die : Nat} (hk : Keeps s₀ s) : Keeps s₀ (s.pinThrottle die) := by
  unfold State.pinThrottle
  repeat' with_reducible first
    | assumption | exact Keeps.refl _ | apply State.onTab_keeps | apply State.post_keeps | apply Keeps.ite | intro _ | split
theorem State.addSurvey_keeps {s : State} {t k v handle : Nat} {query : Option (Nat × Nat)} {data : List Byte} (hk : Keeps s₀ s) :
    Keeps s₀ (s.addSurvey t k v handle query data) := by
  unfold State.addSurvey
  repeat' with_reducible first
    | assumption | exact Keeps.refl _ | apply State.onTab_keeps | intro _ | split

/-! ### Machine/PowerOps.lean -/

theorem State.postHeld_keeps {s : State} (hk : Keeps s₀ s) : Keeps s₀ s.postHeld := by
  unfold State.postHeld
  repeat' with_reducible first
    | assumption | exact Keeps.refl _ | apply keeps_forEach | apply State.post_keeps | intro _ | split
theorem State.askClocking_keeps {s : State} {lean : Bool} (hk : Keeps s₀ s) : Keeps s₀ (s.askClocking lean) := by
  unfold State.askClocking
  repeat' with_reducible first
    | assumption | exact Keeps.refl _ | apply State.onPower_keeps | apply Keeps.ite | intro _ | split
theorem State.followMode_keeps {s : State} {reasons : Nat} (hk : Keeps s₀ s) : Keeps s₀ (s.followMode reasons) := by
  unfold State.followMode
  repeat' with_reducible first
    | assumption | exact Keeps.refl _ | apply State.moveMode_keeps | (exact fun _ => State.intendedMode_le _) | apply Keeps.ite | intro _ | split
theorem State.applyHeld_keeps {s : State} {old new : Nat} (hk : Keeps s₀ s) : Keeps s₀ (s.applyHeld old new) := by
  unfold State.applyHeld
  repeat' with_reducible first
    | assumption | exact Keeps.refl _ | apply keeps_forEach | apply State.settleModule_keeps | apply State.holdLport_keeps
    | apply State.trainLport_keeps | apply Keeps.ite | intro _ | split
theorem State.recompute_keeps {s : State} (hk : Keeps s₀ s) : Keeps s₀ s.recompute := by
  unfold State.recompute
  repeat' with_reducible first
    | assumption | exact Keeps.refl _ | apply State.onPower_keeps | apply State.applyHeld_keeps | apply State.postHeld_keeps
    | apply State.followMode_keeps | apply State.askClocking_keeps | apply Keeps.ite | intro _ | split
theorem State.finishClocking_keeps {s : State} (hk : Keeps s₀ s) : Keeps s₀ s.finishClocking := by
  unfold State.finishClocking
  repeat' with_reducible first
    | assumption | exact Keeps.refl _ | apply State.throttleOff_keeps | apply State.onPower_keeps | apply State.followMode_keeps
    | apply State.clockingSpeed_keeps | apply State.askClocking_keeps | intro _ | dsimp only | split

/-! ### Machine/ControlOps.lean -/

theorem State.flipLead_keeps {s : State} (hk : Keeps s₀ s) : Keeps s₀ s.flipLead := by
  unfold State.flipLead
  repeat' with_reducible first
    | assumption | exact Keeps.refl _ | apply State.report_keeps | (refine State.onCtl_same ?_ (fun _ => rfl)) | intro _ | split
theorem State.newLeadAcks_keeps {s : State} (hk : Keeps s₀ s) : Keeps s₀ s.newLeadAcks := by
  unfold State.newLeadAcks
  repeat' with_reducible first
    | assumption | exact Keeps.refl _ | apply State.onFault_keeps | intro _ | split
theorem State.announceTakeover_keeps {s : State} {rerun restarted : Nat} (hk : Keeps s₀ s) : Keeps s₀ (s.announceTakeover rerun restarted) := by
  unfold State.announceTakeover
  repeat' with_reducible first
    | assumption | exact Keeps.refl _ | apply State.onBook_keeps | apply State.postAll_keeps | intro _ | split
theorem State.controlBack_keeps {s : State} (hk : Keeps s₀ s) : Keeps s₀ s.controlBack := by
  unfold State.controlBack
  repeat' with_reducible first
    | assumption | exact Keeps.refl _ | apply State.onFault_keeps | intro _ | split

end Sys2Proof.Machine
end

