-- ==== Sys2Proof/Laws/KeepsControl.lean ====
section
/-! SUPPORT. What each operation keeps (Laws/Keeps.lean):
SYS, MODE, counters, faults, power, time, mailboxes, rings, the control complexes and the records. -/
namespace Sys2Proof.Machine
open Sys2Proof
set_option Elab.async false
set_option linter.unusedTactic false
set_option linter.unreachableTactic false

variable {s₀ : State}

/-! ### Machine/Sys.lean -/

theorem bodySysPing_keeps {m : Msg} {s : State} (hk : Keeps s₀ s) : Keeps s₀ (bodySysPing m s).state := by
  unfold bodySysPing
  repeat' with_reducible first
    | assumption | exact Keeps.refl _ | apply orDeny_keeps | apply doneWith_keeps | intro _ | split
theorem execSysPing_keeps {m : Msg} {s : State} (hk : Keeps s₀ s) : KeepsOut s₀ (execSysPing m s) :=
  commandRow_keeps hk (fun _ h => bodySysPing_keeps h)
theorem bodySysStatus_keeps {m : Msg} {s : State} (hk : Keeps s₀ s) : Keeps s₀ (bodySysStatus m s).state := by
  unfold bodySysStatus
  repeat' with_reducible first
    | assumption | exact Keeps.refl _ | apply orDeny_keeps | apply doneWith_keeps | intro _ | split
theorem execSysStatus_keeps {m : Msg} {s : State} (hk : Keeps s₀ s) : KeepsOut s₀ (execSysStatus m s) :=
  commandRow_keeps hk (fun _ h => bodySysStatus_keeps h)
theorem bodySysControlStatus_keeps {m : Msg} {s : State} (hk : Keeps s₀ s) : Keeps s₀ (bodySysControlStatus m s).state := by
  unfold bodySysControlStatus
  repeat' with_reducible first
    | assumption | exact Keeps.refl _ | apply orDeny_keeps | apply doneWith_keeps | intro _ | split
theorem execSysControlStatus_keeps {m : Msg} {s : State} (hk : Keeps s₀ s) : KeepsOut s₀ (execSysControlStatus m s) :=
  commandRow_keeps hk (fun _ h => bodySysControlStatus_keeps h)
theorem bodySysFwLoad_keeps {m : Msg} {s : State} (hk : Keeps s₀ s) : Keeps s₀ (bodySysFwLoad m s).state := by
  unfold bodySysFwLoad
  repeat' with_reducible first
    | assumption | exact Keeps.refl _ | apply deny_keeps | apply accept_keeps | (refine State.onCtl_same ?_ (fun _ => rfl)) | apply done_keeps
    | intro _ | split
theorem execSysFwLoad_keeps {m : Msg} {s : State} (hk : Keeps s₀ s) : KeepsOut s₀ (execSysFwLoad m s) :=
  commandRow_keeps hk (fun _ h => bodySysFwLoad_keeps h)
theorem execFwStaged_keeps {vendorOk ownerOk : Bool} {ownerHash measure : Nat} {s : State} (hk : Keeps s₀ s) :
    KeepsOut s₀ (execFwStaged vendorOk ownerOk ownerHash measure s) := by
  unfold execFwStaged
  repeat' with_reducible first
    | assumption | exact Keeps.refl _ | (refine State.onCtl_same ?_ (fun _ => rfl)) | apply State.finish_keeps | apply State.finishPlain_keeps
    | apply Keeps.ite | apply KeepsOut.next | intro _ | dsimp only | split
theorem bodySysFwActivate_keeps {s : State} {m : Msg} (hk : Keeps s₀ s) : Keeps s₀ (bodySysFwActivate m s).state := by
  refine orDeny_keeps hk (State.moveMode_keeps (hk.trans ⟨rfl, rfl, fun h => ⟨h.1, ?_⟩, id⟩) (fun _ => by decide))
  intro a e; cases e; exact h.1
theorem execSysFwActivate_keeps {m : Msg} {s : State} (hk : Keeps s₀ s) : KeepsOut s₀ (execSysFwActivate m s) :=
  commandRow_keeps hk (fun _ h => bodySysFwActivate_keeps h)
theorem State.endInterval_keeps {s : State} {ret : Nat} (hk : Keeps s₀ s) (hn : LegalMode s₀ → ret ≤ 7) : Keeps s₀ (s.endInterval ret) := by
  have h1 : Keeps s₀ (s.onCtl (fun c => { c with activation := none })) := hk.trans ⟨rfl, rfl, fun h => ⟨h.1, fun _ e => by cases e⟩, id⟩
  unfold State.endInterval; dsimp only; split
  · exact State.followMode_keeps (State.moveMode_keeps h1 hn)
  · exact h1
theorem execFwActivated_keeps {s : State} (hk : Keeps s₀ s) : KeepsOut s₀ (execFwActivated s) := by
  apply KeepsOut.next; split
  · rename_i a _ e _
    apply State.finish_keeps; apply State.ledgerWrite_keeps
    exact State.endInterval_keeps (State.onCtl_same hk (fun _ => rfl)) (fun h => (hk.mode h).2 a e)
  · exact hk
theorem State.failActivation_keeps {s : State} {st : Nat} (hk : Keeps s₀ s) : Keeps s₀ (s.failActivation st) := by
  unfold State.failActivation; split
  · rename_i a e; exact State.finish_keeps (State.endInterval_keeps hk (fun h => (hk.mode h).2 a e))
  · exact hk
theorem execFwActivateFailed_keeps {faulted : Bool} {s : State} (hk : Keeps s₀ s) : KeepsOut s₀ (execFwActivateFailed faulted s) := by
  unfold execFwActivateFailed
  repeat' with_reducible first
    | assumption | exact Keeps.refl _ | apply State.failActivation_keeps | apply Keeps.ite | apply KeepsOut.next | intro _ | split
theorem bodySysSwitchover_keeps {m : Msg} {s : State} (hk : Keeps s₀ s) : Keeps s₀ (bodySysSwitchover m s).state := by
  unfold bodySysSwitchover
  repeat' with_reducible first
    | assumption | exact Keeps.refl _ | apply orDeny_keeps | apply done_keeps | apply State.announceTakeover_keeps | apply State.newLeadAcks_keeps
    | apply State.flipLead_keeps | (refine State.onCtl_same ?_ (fun _ => rfl)) | intro _ | split
theorem execSysSwitchover_keeps {m : Msg} {s : State} (hk : Keeps s₀ s) : KeepsOut s₀ (execSysSwitchover m s) :=
  commandRow_keeps hk (fun _ h => bodySysSwitchover_keeps h)
theorem bodySysReset_keeps {m : Msg} {s : State} (hk : Keeps s₀ s) : Keeps s₀ (bodySysReset m s).state := by
  unfold bodySysReset
  repeat' with_reducible first
    | assumption | exact Keeps.refl _ | apply orDeny_keeps | apply done_keeps | (refine State.onCmd_same ?_ (fun _ => rfl)) | intro _ | split
theorem execSysReset_keeps {m : Msg} {s : State} (hk : Keeps s₀ s) : KeepsOut s₀ (execSysReset m s) :=
  commandRow_keeps hk (fun _ h => bodySysReset_keeps h)
theorem execSysResetStart_keeps {s : State} (hk : Keeps s₀ s) : KeepsOut s₀ (execSysResetStart s) := by
  unfold execSysResetStart
  repeat' with_reducible first
    | assumption | exact Keeps.refl _ | apply State.resetToLoad_keeps | apply Keeps.ite | apply KeepsOut.next | intro _ | split
theorem bodySysSet_keeps {m : Msg} {s : State} (hk : Keeps s₀ s) : Keeps s₀ (bodySysSet m s).state := by
  unfold bodySysSet
  repeat' with_reducible first
    | assumption | exact Keeps.refl _ | apply orDeny_keeps | apply done_keeps | apply State.putSetting_keeps | apply keeps_foldl | intro _ | split
theorem execSysSet_keeps {m : Msg} {s : State} (hk : Keeps s₀ s) : KeepsOut s₀ (execSysSet m s) :=
  commandRow_keeps hk (fun _ h => bodySysSet_keeps h)
theorem bodySysGet_keeps {m : Msg} {s : State} (hk : Keeps s₀ s) : Keeps s₀ (bodySysGet m s).state := by
  unfold bodySysGet
  repeat' with_reducible first
    | assumption | exact Keeps.refl _ | apply orDeny_keeps | apply doneWith_keeps | intro _ | split
theorem execSysGet_keeps {m : Msg} {s : State} (hk : Keeps s₀ s) : KeepsOut s₀ (execSysGet m s) :=
  commandRow_keeps hk (fun _ h => bodySysGet_keeps h)
theorem bodySysAsyncStatus_keeps {m : Msg} {s : State} (hk : Keeps s₀ s) : Keeps s₀ (bodySysAsyncStatus m s).state := by
  unfold bodySysAsyncStatus
  repeat' with_reducible first
    | assumption | exact Keeps.refl _ | apply orDeny_keeps | apply doneWith_keeps | intro _ | split
theorem execSysAsyncStatus_keeps {m : Msg} {s : State} (hk : Keeps s₀ s) : KeepsOut s₀ (execSysAsyncStatus m s) :=
  commandRow_keeps hk (fun _ h => bodySysAsyncStatus_keeps h)
theorem bodyModeSet_keeps {m : Msg} {s : State} (hk : Keeps s₀ s) : Keeps s₀ (bodyModeSet m s).state := by
  unfold bodyModeSet
  repeat' with_reducible first
    | assumption | exact Keeps.refl _ | apply orDeny_keeps | apply accept_keeps | apply State.ledgerWrite_keeps
    | (refine State.onCmd_same ?_ (fun _ => rfl)) | intro _ | split
theorem execModeSet_keeps {m : Msg} {s : State} (hk : Keeps s₀ s) : KeepsOut s₀ (execModeSet m s) :=
  commandRow_keeps hk (fun _ h => bodyModeSet_keeps h)
theorem State.completeMode_keeps {s : State} {r old : Nat} (hk : Keeps s₀ s) : Keeps s₀ (s.completeMode r old) := by
  unfold State.completeMode
  repeat' with_reducible first
    | assumption | exact Keeps.refl _ | apply State.finish_keeps | apply State.post_keeps | apply Keeps.ite | intro _ | split
theorem State.goDark_keeps {s : State} {why : DarkCause} {cause : Nat} (hk : Keeps s₀ s) : Keeps s₀ (s.goDark why cause) := by
  unfold State.goDark
  repeat' with_reducible first
    | assumption | exact Keeps.refl _ | (refine State.onCmd_same ?_ (fun _ => rfl)) | apply State.railsOff_keeps | apply State.setMode_keeps
    | (exact fun _ => by decide) | apply State.onPower_keeps | intro _ | split
theorem State.makeTransition_keeps {s : State} {t : Transition} (hk : Keeps s₀ s) : Keeps s₀ (s.makeTransition t) := by
  unfold State.makeTransition; dsimp only; split
  · have h1 : Keeps s₀ (((s.onCmd (fun c => { c with transition := none })).recompute).onCmd (fun c => { c with fwdIntent := true })) :=
      State.onCmd_same (State.recompute_keeps (State.onCmd_same hk (fun _ => rfl))) (fun _ => rfl)
    split
    · exact State.completeMode_keeps h1
    · split
      · exact State.finishPlain_keeps h1
      · exact State.completeMode_keeps (State.setMode_keeps h1 (fun _ => State.intendedMode_le _))
  · split
    · exact State.completeMode_keeps (State.setMode_keeps (State.onCmd_same hk (fun _ => rfl)) (fun _ => by decide))
    · split
      · exact State.completeMode_keeps (State.setMode_keeps hk (fun _ => by decide))
      · split
        · split
          · exact State.completeMode_keeps (State.onFault_keeps (State.onCmd_same hk (fun _ => rfl)))
          · exact State.completeMode_keeps (State.setMode_keeps (State.abandonCommits_keeps hk) (fun _ => by decide))
        · refine State.goDark_keeps (State.onCmd_mode (State.completeMode_keeps (State.onCmd_mode hk (fun _ _ => (by decide : Md.dark ≤ 7)))) (fun h _ => (hk.mode h).1))
theorem execModeChanged_keeps {s : State} (hk : Keeps s₀ s) : KeepsOut s₀ (execModeChanged s) := by
  unfold execModeChanged
  repeat' with_reducible first
    | assumption | exact Keeps.refl _ | apply State.makeTransition_keeps | apply KeepsOut.next | intro _ | split
theorem bodyModeStatus_keeps {m : Msg} {s : State} (hk : Keeps s₀ s) : Keeps s₀ (bodyModeStatus m s).state := by
  unfold bodyModeStatus
  repeat' with_reducible first
    | assumption | exact Keeps.refl _ | apply orDeny_keeps | apply doneWith_keeps | intro _ | split
theorem execModeStatus_keeps {m : Msg} {s : State} (hk : Keeps s₀ s) : KeepsOut s₀ (execModeStatus m s) :=
  commandRow_keeps hk (fun _ h => bodyModeStatus_keeps h)

/-! ### Machine/Counters.lean -/

theorem State.requestSnapshot_keeps {s : State} {w : List SnapWaiter} (hk : Keeps s₀ s) : Keeps s₀ (s.requestSnapshot w) := by
  unfold State.requestSnapshot
  repeat' with_reducible first
    | assumption | exact Keeps.refl _ | apply State.onCount_keeps | intro _ | split
theorem execPmcSnap_keeps {value : Nat} {s : State} (hk : Keeps s₀ s) : KeepsOut s₀ (execPmcSnap value s) := by
  unfold execPmcSnap
  repeat' with_reducible first
    | assumption | exact Keeps.refl _ | apply State.requestSnapshot_keeps | apply Keeps.ite | apply KeepsOut.next | intro _ | split
theorem execSnapshotEdge_keeps {s : State} (hk : Keeps s₀ s) : KeepsOut s₀ (execSnapshotEdge s) := by
  unfold execSnapshotEdge
  repeat' with_reducible first
    | assumption | exact Keeps.refl _ | apply State.onCount_keeps | apply Keeps.ite | apply KeepsOut.next | intro _ | dsimp only | split
theorem execSnapshotTaken_keeps {s : State} (hk : Keeps s₀ s) : KeepsOut s₀ (execSnapshotTaken s) := by
  apply KeepsOut.next; split
  · split
    · dsimp only
      refine keeps_foldl (fun u x => respond_keeps (doneWith_keeps (Keeps.refl u))) ?_
      exact State.raiseIrq_keeps (State.postAll_keeps (State.onCount_keeps hk))
    · exact hk
  · exact hk
theorem execPmcSnapIdRead_keeps {s : State} (hk : Keeps s₀ s) : KeepsOut s₀ (execPmcSnapIdRead s) := by
  unfold execPmcSnapIdRead
  repeat' with_reducible first
    | assumption | exact Keeps.refl _ | apply State.onCount_keeps | apply KeepsOut.next | intro _ | split
theorem execSnapshotPinLapse_keeps {s : State} (hk : Keeps s₀ s) : KeepsOut s₀ (execSnapshotPinLapse s) := by
  unfold execSnapshotPinLapse
  repeat' with_reducible first
    | assumption | exact Keeps.refl _ | apply State.onCount_keeps | apply Keeps.ite | apply KeepsOut.next | intro _ | split
theorem bodyCounterSnapshot_keeps {m : Msg} {s : State} (hk : Keeps s₀ s) : Keeps s₀ (bodyCounterSnapshot m s).state := by
  unfold bodyCounterSnapshot
  repeat' with_reducible first
    | assumption | exact Keeps.refl _ | apply orDeny_keeps | apply hold_keeps | apply State.requestSnapshot_keeps | intro _ | split
theorem execCounterSnapshot_keeps {m : Msg} {s : State} (hk : Keeps s₀ s) : KeepsOut s₀ (execCounterSnapshot m s) :=
  commandRow_keeps hk (fun _ h => bodyCounterSnapshot_keeps h)
theorem bodyCounterEvents_keeps {m : Msg} {s : State} (hk : Keeps s₀ s) : Keeps s₀ (bodyCounterEvents m s).state := by
  unfold bodyCounterEvents
  repeat' with_reducible first
    | assumption | exact Keeps.refl _ | apply orDeny_keeps | apply doneWith_keeps | intro _ | split
theorem execCounterEvents_keeps {m : Msg} {s : State} (hk : Keeps s₀ s) : KeepsOut s₀ (execCounterEvents m s) :=
  commandRow_keeps hk (fun _ h => bodyCounterEvents_keeps h)
theorem bodyCounterSlots_keeps {m : Msg} {s : State} (hk : Keeps s₀ s) : Keeps s₀ (bodyCounterSlots m s).state := by
  unfold bodyCounterSlots
  repeat' with_reducible first
    | assumption | exact Keeps.refl _ | apply orDeny_keeps | apply doneWith_keeps | intro _ | split
theorem execCounterSlots_keeps {m : Msg} {s : State} (hk : Keeps s₀ s) : KeepsOut s₀ (execCounterSlots m s) :=
  commandRow_keeps hk (fun _ h => bodyCounterSlots_keeps h)
theorem State.clearCounter_keeps {s : State} {i : Inst} {k idx : Nat} (hk : Keeps s₀ s) : Keeps s₀ (s.clearCounter i k idx) := by
  unfold State.clearCounter
  repeat' with_reducible first
    | assumption | exact Keeps.refl _ | apply keeps_forEach | apply State.onTab_keeps | apply State.writeLoc_keeps | apply Keeps.ite | intro _
    | split
theorem bodyCounterRead_keeps {m : Msg} {s : State} (hk : Keeps s₀ s) : Keeps s₀ (bodyCounterRead m s).state := by
  unfold bodyCounterRead
  repeat' with_reducible first
    | assumption | exact Keeps.refl _ | apply orDeny_keeps | apply deny_keeps | apply keeps_forEach | apply State.clearCounter_keeps
    | apply doneWith_keeps | apply Keeps.ite | intro _ | dsimp only | split
theorem execCounterRead_keeps {m : Msg} {s : State} (hk : Keeps s₀ s) : KeepsOut s₀ (execCounterRead m s) :=
  commandRow_keeps hk (fun _ h => bodyCounterRead_keeps h)
theorem bodyCounterLport_keeps {m : Msg} {s : State} (hk : Keeps s₀ s) : Keeps s₀ (bodyCounterLport m s).state := by
  unfold bodyCounterLport
  repeat' with_reducible first
    | assumption | exact Keeps.refl _ | apply State.onPort_keeps | apply orDeny_keeps | apply doneWith_keeps | apply Keeps.ite | intro _ | split
theorem execCounterLport_keeps {m : Msg} {s : State} (hk : Keeps s₀ s) : KeepsOut s₀ (execCounterLport m s) :=
  commandRow_keeps hk (fun _ h => bodyCounterLport_keeps h)

/-! ### Machine/HostOps.lean -/

theorem State.poolFallback_keeps {s : State} {stage k : Nat} (hk : Keeps s₀ s) : Keeps s₀ (s.poolFallback stage k) := by
  unfold State.poolFallback
  repeat' with_reducible first
    | assumption | exact Keeps.refl _ | apply State.bump_keeps | (refine State.onHost_same ?_ (fun _ => ⟨rfl, rfl⟩)) | apply State.post_keeps
    | apply Keeps.ite | intro _ | split
theorem State.allocBuffer_keeps {s : State} {owner stage size : Nat} (hk : Keeps s₀ s) : KeepsSnd s₀ (s.allocBuffer owner stage size) := by
  unfold State.allocBuffer
  repeat' with_reducible first
    | assumption | exact Keeps.refl _ | apply keeps_forEach | apply State.poolFallback_keeps | (refine State.onHost_same ?_ (fun _ => ⟨rfl, rfl⟩))
    | exact KeepsSnd.none | apply KeepsSnd.some | apply KeepsSnd.ite | intro _ | dsimp only | split
theorem State.onPools_keeps {s : State} {f : Pools → Pools} (hk : Keeps s₀ s) : Keeps s₀ (s.onPools f) := by
  unfold State.onPools
  repeat' with_reducible first
    | assumption | exact Keeps.refl _ | (refine State.onHost_same ?_ (fun _ => ⟨rfl, rfl⟩)) | intro _ | split
theorem State.freeBuffer_keeps {s : State} {key : Nat} (hk : Keeps s₀ s) : Keeps s₀ (s.freeBuffer key) := by
  unfold State.freeBuffer
  repeat' with_reducible first
    | assumption | exact Keeps.refl _ | apply State.onPools_keeps | intro _ | split
theorem State.retainBuffer_keeps {s : State} {key : Nat} {data : List Byte} (hk : Keeps s₀ s) : Keeps s₀ (s.retainBuffer key data) := by
  unfold State.retainBuffer
  repeat' with_reducible first
    | assumption | exact Keeps.refl _ | apply State.onPools_keeps | intro _ | split
theorem State.withdrawBuffer_keeps {s : State} {key : Nat} (hk : Keeps s₀ s) : Keeps s₀ (s.withdrawBuffer key) := by
  unfold State.withdrawBuffer
  repeat' with_reducible first
    | assumption | exact Keeps.refl _ | apply State.onPools_keeps | intro _ | split
theorem State.freeItems_keeps {s : State} {items : List Item} (hk : Keeps s₀ s) : Keeps s₀ (s.freeItems items) := by
  unfold State.freeItems
  repeat' with_reducible first
    | assumption | exact Keeps.refl _ | apply State.freeBuffer_keeps | apply keeps_foldl | intro _ | split
theorem State.ringError_keeps {s : State} {p cause : Nat} (hk : Keeps s₀ s) : Keeps s₀ (s.ringError p cause) := by
  unfold State.ringError
  repeat' with_reducible first
    | assumption | exact Keeps.refl _ | apply State.freeItems_keeps | apply State.onRing_keeps | apply State.post_keeps | intro _ | split
theorem State.completeId_keeps {s : State} {p id : Nat} {c : Comp} {cqOk : Bool} (hk : Keeps s₀ s) : Keeps s₀ (s.completeId p id c cqOk) := by
  unfold State.completeId
  repeat' with_reducible first
    | assumption | exact Keeps.refl _ | apply State.ringError_keeps | (refine State.onHost_keeps ?_ (fun _ h g => ⟨h, Memory.writeN_wf g⟩))
    | apply State.raiseIrq_keeps | apply State.onRing_keeps | apply Keeps.ite | intro _ | split
theorem State.completeItem_keeps {s : State} {p : Nat} {it : Item} {c : Comp} {cqOk : Bool} (hk : Keeps s₀ s) :
    Keeps s₀ (s.completeItem p it c cqOk) := by
  unfold State.completeItem
  repeat' with_reducible first
    | assumption | exact Keeps.refl _ | apply State.freeItems_keeps | apply State.completeId_keeps | apply State.onRing_keeps | apply Keeps.ite
    | intro _ | split
theorem State.setItem_keeps {s : State} {p : Nat} {old new : Item} (hk : Keeps s₀ s) : Keeps s₀ (s.setItem p old new) := by
  unfold State.setItem
  repeat' with_reducible first
    | assumption | exact Keeps.refl _ | apply State.onRing_keeps | intro _ | split
theorem State.moved_keeps {s : State} {p n : Nat} (hk : Keeps s₀ s) : Keeps s₀ (s.moved p n) := by
  unfold State.moved
  repeat' with_reducible first
    | assumption | exact Keeps.refl _ | apply State.onRing_keeps | intro _ | split
theorem State.hostWrite_keeps {s : State} {a : Nat} {bs : List Byte} (hk : Keeps s₀ s) : Keeps s₀ (s.hostWrite a bs) := by
  unfold State.hostWrite
  repeat' with_reducible first
    | assumption | exact Keeps.refl _ | (refine State.onHost_keeps ?_ (fun _ h g => ⟨h, Memory.writeN_wf g⟩)) | intro _ | split
theorem State.startDump_keeps {s : State} {p mb opcode tag : Nat} {data : List Byte} (hk : Keeps s₀ s) :
    Keeps s₀ (s.startDump p mb opcode tag data) := by
  unfold State.startDump
  repeat' with_reducible first
    | assumption | exact Keeps.refl _ | (refine State.onHost_same ?_ (fun _ => ⟨rfl, rfl⟩)) | intro _ | split
theorem State.hostPathReset_keeps {s : State} {r : Bool} (hk : Keeps s₀ s) : Keeps s₀ (s.hostPathReset r) := by
  unfold State.hostPathReset; dsimp only
  apply Keeps.ite
  · exact State.onCount_keeps (State.onHost_keeps (State.ringsOff_keeps hk) (fun _ _ h => ⟨rfl, h⟩))
  · exact State.onHost_keeps (State.ringsOff_keeps hk) (fun _ _ h => ⟨rfl, h⟩)

/-! ### Machine/Faults.lean -/

theorem execFaultReport_keeps {cls level unit stage master access address detail : Nat} {s : State} (hk : Keeps s₀ s) :
    KeepsOut s₀ (execFaultReport cls level unit stage master access address detail s) := by
  unfold execFaultReport
  repeat' with_reducible first
    | assumption | exact Keeps.refl _ | apply State.report_keeps | apply KeepsOut.unit | intro _ | split
theorem execFaultWindowExpiry_keeps {s : State} (hk : Keeps s₀ s) : KeepsOut s₀ (execFaultWindowExpiry s) := by
  unfold execFaultWindowExpiry
  repeat' with_reducible first
    | assumption | exact Keeps.refl _ | apply State.escalate_keeps | apply keeps_foldl | apply KeepsOut.next | intro _ | split
theorem execFltAck_keeps {seq : Nat} {s : State} (hk : Keeps s₀ s) : KeepsOut s₀ (execFltAck seq s) := by
  unfold execFltAck
  repeat' with_reducible first
    | assumption | exact Keeps.refl _ | apply State.onFault_keeps | apply Keeps.ite | apply KeepsOut.next | intro _ | split
theorem execFaultRepaired_keeps {cls level unit : Nat} {ok : Bool} {s : State} (hk : Keeps s₀ s) :
    KeepsOut s₀ (execFaultRepaired cls level unit ok s) := by
  unfold execFaultRepaired
  repeat' with_reducible first
    | assumption | exact Keeps.refl _ | apply State.repairDone_keeps | apply KeepsOut.next | intro _ | split
theorem execPipeStall_keeps {tile pipe stage : Nat} {s : State} (hk : Keeps s₀ s) : KeepsOut s₀ (execPipeStall tile pipe stage s) := by
  unfold execPipeStall
  repeat' with_reducible first
    | assumption | exact Keeps.refl _ | apply State.report_keeps | apply KeepsOut.unit | intro _ | split
theorem execDresserStall_keeps {tile dresser stage : Nat} {s : State} (hk : Keeps s₀ s) : KeepsOut s₀ (execDresserStall tile dresser stage s) := by
  unfold execDresserStall
  repeat' with_reducible first
    | assumption | exact Keeps.refl _ | apply State.report_keeps | apply KeepsOut.unit | intro _ | split
theorem execQuietPeriodEnd_keeps {s : State} (hk : Keeps s₀ s) : KeepsOut s₀ (execQuietPeriodEnd s) := by
  unfold execQuietPeriodEnd
  repeat' with_reducible first
    | assumption | exact Keeps.refl _ | apply State.moveMode_keeps | (exact fun _ => State.intendedMode_le _)
    | (refine State.onCmd_same ?_ (fun _ => rfl)) | apply Keeps.ite | apply KeepsOut.next | intro _ | split
theorem execFaultNPulseEnd_keeps {s : State} (hk : Keeps s₀ s) : KeepsOut s₀ (execFaultNPulseEnd s) := by
  unfold execFaultNPulseEnd
  repeat' with_reducible first
    | assumption | exact Keeps.refl _ | apply State.onFault_keeps | apply Keeps.ite | apply KeepsOut.next | intro _ | split
theorem bodyFaultStatus_keeps {m : Msg} {s : State} (hk : Keeps s₀ s) : Keeps s₀ (bodyFaultStatus m s).state := by
  unfold bodyFaultStatus
  repeat' with_reducible first
    | assumption | exact Keeps.refl _ | apply orDeny_keeps | apply doneWith_keeps | intro _ | split
theorem execFaultStatus_keeps {m : Msg} {s : State} (hk : Keeps s₀ s) : KeepsOut s₀ (execFaultStatus m s) :=
  commandRow_keeps hk (fun _ h => bodyFaultStatus_keeps h)
theorem ackBySeq_keeps {s : State} {viewer seq : Nat} (hk : Keeps s₀ s) : Keeps s₀ (ackBySeq s viewer seq).2 := by
  unfold ackBySeq
  repeat' with_reducible first
    | assumption | exact Keeps.refl _ | apply State.escalate_keeps | apply State.onFault_keeps | intro _ | split
theorem restoreBySeq_keeps {s : State} {seq : Nat} (hk : Keeps s₀ s) : Keeps s₀ (restoreBySeq s seq) := by
  unfold restoreBySeq
  repeat' with_reducible first
    | assumption | exact Keeps.refl _ | apply State.onFault_keeps | (refine State.onCtl_same ?_ (fun _ => rfl)) | apply State.trainLport_keeps
    | intro _ | dsimp only | split
theorem bodyFaultAck_keeps {m : Msg} {s : State} (hk : Keeps s₀ s) : Keeps s₀ (bodyFaultAck m s).state := by
  unfold bodyFaultAck
  repeat' with_reducible first
    | assumption | exact Keeps.refl _ | apply orDeny_keeps | apply ackBySeq_keeps | apply deny_keeps | apply restoreBySeq_keeps | apply done_keeps
    | apply State.onFault_keeps | apply Keeps.ite | intro _ | dsimp only | split
theorem execFaultAck_keeps {m : Msg} {s : State} (hk : Keeps s₀ s) : KeepsOut s₀ (execFaultAck m s) :=
  commandRow_keeps hk (fun _ h => bodyFaultAck_keeps h)
theorem bodyFaultConfig_keeps {m : Msg} {s : State} (hk : Keeps s₀ s) : Keeps s₀ (bodyFaultConfig m s).state := by
  unfold bodyFaultConfig
  repeat' with_reducible first
    | assumption | exact Keeps.refl _ | apply orDeny_keeps | apply done_keeps | apply State.onFault_keeps | intro _ | split
theorem execFaultConfig_keeps {m : Msg} {s : State} (hk : Keeps s₀ s) : KeepsOut s₀ (execFaultConfig m s) :=
  commandRow_keeps hk (fun _ h => bodyFaultConfig_keeps h)
theorem bodyFaultPin_keeps {m : Msg} {s : State} (hk : Keeps s₀ s) : Keeps s₀ (bodyFaultPin m s).state := by
  unfold bodyFaultPin
  repeat' with_reducible first
    | assumption | exact Keeps.refl _ | apply orDeny_keeps | apply done_keeps | apply State.onFault_keeps | intro _ | split
theorem execFaultPin_keeps {m : Msg} {s : State} (hk : Keeps s₀ s) : KeepsOut s₀ (execFaultPin m s) :=
  commandRow_keeps hk (fun _ h => bodyFaultPin_keeps h)
theorem State.putInjector_keeps {s : State} {i : Nat} {j : Injector} (hk : Keeps s₀ s) : Keeps s₀ (s.putInjector i j) := by
  unfold State.putInjector
  repeat' with_reducible first
    | assumption | exact Keeps.refl _ | apply State.onFault_keeps | intro _ | split
theorem bodyTestInject_keeps {m : Msg} {s : State} (hk : Keeps s₀ s) : Keeps s₀ (bodyTestInject m s).state := by
  unfold bodyTestInject
  repeat' with_reducible first
    | assumption | exact Keeps.refl _ | apply orDeny_keeps | apply done_keeps | apply State.putInjector_keeps | intro _ | split
theorem execTestInject_keeps {m : Msg} {s : State} (hk : Keeps s₀ s) : KeepsOut s₀ (execTestInject m s) :=
  commandRow_keeps hk (fun _ h => bodyTestInject_keeps h)
theorem execInjArm_keeps {i : Nat} {s : State} (hk : Keeps s₀ s) : KeepsOut s₀ (execInjArm i s) := by
  unfold execInjArm
  repeat' with_reducible first
    | assumption | exact Keeps.refl _ | apply State.putInjector_keeps | apply State.raiseIrq_keeps | apply Keeps.ite | apply KeepsOut.unit | intro _
    | split
theorem execInjDisarm_keeps {i : Nat} {s : State} (hk : Keeps s₀ s) : KeepsOut s₀ (execInjDisarm i s) := by
  unfold execInjDisarm
  repeat' with_reducible first
    | assumption | exact Keeps.refl _ | apply State.post_keeps | apply State.putInjector_keeps | apply Keeps.ite | apply KeepsOut.unit | intro _
    | split
theorem execInjectorConsumed_keeps {i word level unit stage master access address : Nat} {s : State} (hk : Keeps s₀ s) :
    KeepsOut s₀ (execInjectorConsumed i word level unit stage master access address s) := by
  unfold execInjectorConsumed
  repeat' with_reducible first
    | assumption | exact Keeps.refl _ | apply State.report_keeps | apply State.bump_keeps | apply State.withdrawBuffer_keeps
    | apply State.putInjector_keeps | apply State.raiseIrq_keeps | apply State.post_keeps | apply Keeps.ite | apply KeepsOut.unit | intro _ | split

/-! ### Machine/Power.lean -/

theorem State.postPower_keeps {s : State} {code : Nat} {pay : List Byte} (hk : Keeps s₀ s) : Keeps s₀ (s.postPower code pay) := by
  unfold State.postPower
  repeat' with_reducible first
    | assumption | exact Keeps.refl _ | apply State.raiseIrq_keeps | apply State.postAll_keeps | intro _ | split
theorem State.postBands_keeps {s : State} {old new vin : Nat} (hk : Keeps s₀ s) : Keeps s₀ (s.postBands old new vin) := by
  unfold State.postBands
  repeat' with_reducible first
    | assumption | exact Keeps.refl _ | apply State.postPower_keeps | apply Keeps.ite | intro _ | split
theorem State.hwDark_keeps {s : State} {why : DarkCause} {cause : Nat} {resumable : Bool} (hk : Keeps s₀ s) :
    Keeps s₀ (s.hwDark why cause resumable) := by
  unfold State.hwDark
  repeat' with_reducible first
    | assumption | exact Keeps.refl _ | apply State.goDark_keeps | apply State.abandonTransition_keeps | (refine State.onCmd_same ?_ (fun _ => rfl))
    | apply Keeps.ite | intro _ | split
theorem State.vinRemoved_keeps {s : State} (hk : Keeps s₀ s) : Keeps s₀ s.vinRemoved :=
  (State.resetTo_keeps (mode := Md.dark) (cause := 2) (dark := .noVin) hk (by decide)).trans ⟨rfl, rfl, fun h => h, fun h => h⟩
theorem State.leaveDark_keeps {s : State} (hk : Keeps s₀ s) : Keeps s₀ s.leaveDark :=
  hk.trans ⟨rfl, rfl, fun _ => ⟨(by decide : Md.load ≤ 7), fun _ e => by cases e⟩, fun h => h⟩
theorem State.vinInRange_keeps {s : State} {vin : Nat} (hk : Keeps s₀ s) : Keeps s₀ (s.vinInRange vin) := by
  unfold State.vinInRange
  repeat' with_reducible first
    | assumption | exact Keeps.refl _ | apply State.onPower_keeps | intro _ | split
theorem execVinBand_keeps {vin : Nat} {s : State} (hk : Keeps s₀ s) : KeepsOut s₀ (execVinBand vin s) := by
  unfold execVinBand
  repeat' with_reducible first
    | assumption | exact Keeps.refl _ | apply State.vinRemoved_keeps | apply State.onPower_keeps | apply State.hwDark_keeps
    | apply State.vinInRange_keeps | apply State.leaveDark_keeps | apply State.recompute_keeps | apply State.postBands_keeps | apply Keeps.ite
    | apply KeepsOut.next | intro _ | split
theorem State.takeLimitStep_keeps {s : State} {iin : Nat} (hk : Keeps s₀ s) : Keeps s₀ (s.takeLimitStep iin) := by
  unfold State.takeLimitStep
  repeat' with_reducible first
    | assumption | exact Keeps.refl _ | apply State.onPower_keeps | apply State.limitThrottle_keeps | apply State.recompute_keeps
    | apply State.postPower_keeps | apply Keeps.ite | intro _ | split
theorem State.releaseLimitStep_keeps {s : State} {iin : Nat} (hk : Keeps s₀ s) : Keeps s₀ (s.releaseLimitStep iin) := by
  unfold State.releaseLimitStep
  repeat' with_reducible first
    | assumption | exact Keeps.refl _ | apply State.onPower_keeps | apply State.limitThrottle_keeps | apply State.recompute_keeps
    | apply State.postPower_keeps | apply Keeps.ite | intro _ | split
theorem execCurrentLimitStep_keeps {iin : Nat} {s : State} (hk : Keeps s₀ s) : KeepsOut s₀ (execCurrentLimitStep iin s) := by
  unfold execCurrentLimitStep
  repeat' with_reducible first
    | assumption | exact Keeps.refl _ | apply State.onPower_keeps | apply State.takeLimitStep_keeps | apply Keeps.ite | apply KeepsOut.next | intro _
    | split
theorem execCurrentLimitRelease_keeps {iin : Nat} {s : State} (hk : Keeps s₀ s) : KeepsOut s₀ (execCurrentLimitRelease iin s) := by
  unfold execCurrentLimitRelease
  repeat' with_reducible first
    | assumption | exact Keeps.refl _ | apply State.onPower_keeps | apply State.releaseLimitStep_keeps | apply Keeps.ite | apply KeepsOut.next
    | intro _ | split
theorem execAvsStep_keeps {die : Nat} {up : Bool} {s : State} (hk : Keeps s₀ s) : KeepsOut s₀ (execAvsStep die up s) := by
  unfold execAvsStep
  repeat' with_reducible first
    | assumption | exact Keeps.refl _ | apply State.onPower_keeps | apply State.post_keeps | apply Keeps.ite | apply KeepsOut.unit | intro _ | split
theorem execClockingChange_keeps {s : State} (hk : Keeps s₀ s) : KeepsOut s₀ (execClockingChange s) := by
  unfold execClockingChange
  repeat' with_reducible first
    | assumption | exact Keeps.refl _ | apply State.finishClocking_keeps | apply KeepsOut.next | intro _ | split
theorem State.warnDie_keeps {s : State} {die : Nat} {tj : Int} (hk : Keeps s₀ s) : Keeps s₀ (s.warnDie die tj) := by
  unfold State.warnDie
  repeat' with_reducible first
    | assumption | exact Keeps.refl _ | apply State.postPower_keeps | apply State.onPower_keeps | apply Keeps.ite | intro _ | split
theorem State.thermPin_keeps {s : State} {tj : Int} (hk : Keeps s₀ s) : Keeps s₀ (s.thermPin tj) := by
  unfold State.thermPin
  repeat' with_reducible first
    | assumption | exact Keeps.refl _ | apply State.raiseIrq_keeps | apply State.onPower_keeps | apply Keeps.ite | intro _ | split
theorem State.tleanRule_keeps {s : State} {tj : Int} (hk : Keeps s₀ s) : Keeps s₀ (s.tleanRule tj) := by
  unfold State.tleanRule
  repeat' with_reducible first
    | assumption | exact Keeps.refl _ | apply State.onPower_keeps | apply State.recompute_keeps | apply Keeps.ite | intro _ | dsimp only | split
theorem execTemperatureReading_keeps {die : Nat} {tj : Int} {s : State} (hk : Keeps s₀ s) : KeepsOut s₀ (execTemperatureReading die tj s) := by
  unfold execTemperatureReading
  repeat' with_reducible first
    | assumption | exact Keeps.refl _ | apply State.onPower_keeps | apply State.warnDie_keeps | apply State.tleanRule_keeps
    | apply State.thermPin_keeps | apply Keeps.ite | apply KeepsOut.unit | intro _ | split
theorem execThermalTrip_keeps {die : Nat} {s : State} (hk : Keeps s₀ s) : KeepsOut s₀ (execThermalTrip die s) := by
  unfold execThermalTrip
  repeat' with_reducible first
    | assumption | exact Keeps.refl _ | apply State.hwDark_keeps | apply State.onPower_keeps | apply Keeps.ite | apply KeepsOut.unit | intro _
    | split
theorem execThermalDarkExit_keeps {s : State} (hk : Keeps s₀ s) : KeepsOut s₀ (execThermalDarkExit s) := by
  unfold execThermalDarkExit
  repeat' with_reducible first
    | assumption | exact Keeps.refl _ | apply State.leaveDark_keeps | apply Keeps.ite | apply KeepsOut.next | intro _ | split
theorem execResetN_keeps {lowNs : Nat} {taken : Bool} {s : State} (hk : Keeps s₀ s) : KeepsOut s₀ (execResetN lowNs taken s) := by
  unfold execResetN
  repeat' with_reducible first
    | assumption | exact Keeps.refl _ | apply State.leaveDark_keeps | apply State.resetToLoad_keeps | apply State.onPower_keeps
    | (refine State.onCmd_same ?_ (fun _ => rfl)) | apply Keeps.ite | apply KeepsOut.next | intro _ | split
theorem bodyPowerStatus_keeps {m : Msg} {s : State} (hk : Keeps s₀ s) : Keeps s₀ (bodyPowerStatus m s).state := by
  unfold bodyPowerStatus
  repeat' with_reducible first
    | assumption | exact Keeps.refl _ | apply orDeny_keeps | apply doneWith_keeps | intro _ | split
theorem execPowerStatus_keeps {m : Msg} {s : State} (hk : Keeps s₀ s) : KeepsOut s₀ (execPowerStatus m s) :=
  commandRow_keeps hk (fun _ h => bodyPowerStatus_keeps h)
theorem bodyPowerLimit_keeps {m : Msg} {s : State} (hk : Keeps s₀ s) : Keeps s₀ (bodyPowerLimit m s).state := by
  unfold bodyPowerLimit
  repeat' with_reducible first
    | assumption | exact Keeps.refl _ | apply orDeny_keeps | apply done_keeps | apply State.recompute_keeps | apply State.onPower_keeps | intro _
    | split
theorem execPowerLimit_keeps {m : Msg} {s : State} (hk : Keeps s₀ s) : KeepsOut s₀ (execPowerLimit m s) :=
  commandRow_keeps hk (fun _ h => bodyPowerLimit_keeps h)
theorem bodyPowerPrecedence_keeps {m : Msg} {s : State} (hk : Keeps s₀ s) : Keeps s₀ (bodyPowerPrecedence m s).state := by
  unfold bodyPowerPrecedence
  repeat' with_reducible first
    | assumption | exact Keeps.refl _ | apply orDeny_keeps | apply done_keeps | apply State.recompute_keeps | apply State.onPower_keeps | intro _
    | split
theorem execPowerPrecedence_keeps {m : Msg} {s : State} (hk : Keeps s₀ s) : KeepsOut s₀ (execPowerPrecedence m s) :=
  commandRow_keeps hk (fun _ h => bodyPowerPrecedence_keeps h)
theorem bodyPowerBounds_keeps {m : Msg} {s : State} (hk : Keeps s₀ s) : Keeps s₀ (bodyPowerBounds m s).state := by
  unfold bodyPowerBounds
  repeat' with_reducible first
    | assumption | exact Keeps.refl _ | apply orDeny_keeps | apply done_keeps | apply State.recompute_keeps | apply State.onPower_keeps | intro _
    | split
theorem execPowerBounds_keeps {m : Msg} {s : State} (hk : Keeps s₀ s) : KeepsOut s₀ (execPowerBounds m s) :=
  commandRow_keeps hk (fun _ h => bodyPowerBounds_keeps h)

/-! ### Machine/TimeOps.lean -/

theorem State.stepTime_keeps {s : State} {v : Int} {cause : Nat} (hk : Keeps s₀ s) : Keeps s₀ (s.stepTime v cause) := by
  unfold State.stepTime
  repeat' with_reducible first
    | assumption | exact Keeps.refl _ | apply State.gatesStepped_keeps | apply State.raiseIrq_keeps | apply State.post_keeps
    | apply State.onTime_keeps | intro _ | split
theorem State.timeState_keeps {s : State} {st : Nat} (hk : Keeps s₀ s) : Keeps s₀ (s.timeState st) := by
  unfold State.timeState
  repeat' with_reducible first
    | assumption | exact Keeps.refl _ | apply State.raiseIrq_keeps | apply State.onTime_keeps | apply State.post_keeps | apply Keeps.ite | intro _
    | split
theorem State.onPtp_keeps {s : State} {l : Nat} {f : PtpPort → PtpPort} (hk : Keeps s₀ s) : Keeps s₀ (s.onPtp l f) := by
  unfold State.onPtp
  repeat' with_reducible first
    | assumption | exact Keeps.refl _ | apply State.onTime_keeps | intro _ | split
theorem State.stamp_keeps {s : State} {l : Nat} {tx : Bool} {e : TsEntry} (hk : Keeps s₀ s) : Keeps s₀ (s.stamp l tx e) := by
  unfold State.stamp
  repeat' with_reducible first
    | assumption | exact Keeps.refl _ | apply State.onPtp_keeps | intro _ | split

/-! ### Machine/Time.lean -/

theorem State.servoEdge_keeps {s : State} {offset servo : Int} (hk : Keeps s₀ s) : Keeps s₀ (s.servoEdge offset servo) := by
  unfold State.servoEdge
  repeat' with_reducible first
    | assumption | exact Keeps.refl _ | apply State.onTime_keeps | apply State.post_keeps | apply State.stepTime_keeps | apply State.timeState_keeps
    | apply Keeps.ite | intro _ | split
theorem execPpsEdge_keeps {offset servo : Int} {s : State} (hk : Keeps s₀ s) : KeepsOut s₀ (execPpsEdge offset servo s) := by
  unfold execPpsEdge
  repeat' with_reducible first
    | assumption | exact Keeps.refl _ | apply State.bump_keeps | apply State.onTime_keeps | apply State.timeState_keeps | apply State.servoEdge_keeps
    | apply Keeps.ite | apply KeepsOut.next | intro _ | split
theorem execPpsLost_keeps {s : State} (hk : Keeps s₀ s) : KeepsOut s₀ (execPpsLost s) := by
  unfold execPpsLost
  repeat' with_reducible first
    | assumption | exact Keeps.refl _ | apply State.timeState_keeps | apply State.post_keeps | apply State.onTime_keeps | apply Keeps.ite
    | apply KeepsOut.next | intro _ | split
theorem execHostTimeout_keeps {s : State} (hk : Keeps s₀ s) : KeepsOut s₀ (execHostTimeout s) := by
  unfold execHostTimeout
  repeat' with_reducible first
    | assumption | exact Keeps.refl _ | apply State.timeState_keeps | apply Keeps.ite | apply KeepsOut.next | intro _ | split
theorem execTodSentence_keeps {utc : Nat} {checksumOk : Bool} {s : State} (hk : Keeps s₀ s) : KeepsOut s₀ (execTodSentence utc checksumOk s) := by
  unfold execTodSentence
  repeat' with_reducible first
    | assumption | exact Keeps.refl _ | apply State.onTime_keeps | apply Keeps.ite | apply KeepsOut.next | intro _ | split
theorem execCalendarWrite_keeps {s : State} (hk : Keeps s₀ s) : KeepsOut s₀ (execCalendarWrite s) := by
  unfold execCalendarWrite
  repeat' with_reducible first
    | assumption | exact Keeps.refl _ | apply State.onTime_keeps | apply Keeps.ite | apply KeepsOut.next | intro _ | split
theorem execSlewEnd_keeps {s : State} (hk : Keeps s₀ s) : KeepsOut s₀ (execSlewEnd s) := by
  unfold execSlewEnd
  repeat' with_reducible first
    | assumption | exact Keeps.refl _ | apply State.onTime_keeps | apply Keeps.ite | apply KeepsOut.next | intro _ | split
theorem execPpsOutPulse_keeps {s : State} (hk : Keeps s₀ s) : KeepsOut s₀ (execPpsOutPulse s) := by
  unfold execPpsOutPulse
  repeat' with_reducible first
    | assumption | exact Keeps.refl _ | apply State.onTime_keeps | apply Keeps.ite | apply KeepsOut.next | intro _ | split
theorem bodyTimeStatus_keeps {m : Msg} {s : State} (hk : Keeps s₀ s) : Keeps s₀ (bodyTimeStatus m s).state := by
  unfold bodyTimeStatus
  repeat' with_reducible first
    | assumption | exact Keeps.refl _ | apply orDeny_keeps | apply doneWith_keeps | intro _ | split
theorem execTimeStatus_keeps {m : Msg} {s : State} (hk : Keeps s₀ s) : KeepsOut s₀ (execTimeStatus m s) :=
  commandRow_keeps hk (fun _ h => bodyTimeStatus_keeps h)
theorem bodyTimeConfig_keeps {m : Msg} {s : State} (hk : Keeps s₀ s) : Keeps s₀ (bodyTimeConfig m s).state := by
  unfold bodyTimeConfig
  repeat' with_reducible first
    | assumption | exact Keeps.refl _ | apply orDeny_keeps | apply State.onTime_keeps | apply done_keeps | apply State.raiseIrq_keeps
    | apply Keeps.ite | intro _ | split
theorem execTimeConfig_keeps {m : Msg} {s : State} (hk : Keeps s₀ s) : KeepsOut s₀ (execTimeConfig m s) :=
  commandRow_keeps hk (fun _ h => bodyTimeConfig_keeps h)
theorem bodyTimeSet_keeps {m : Msg} {s : State} (hk : Keeps s₀ s) : Keeps s₀ (bodyTimeSet m s).state := by
  unfold bodyTimeSet
  repeat' with_reducible first
    | assumption | exact Keeps.refl _ | apply orDeny_keeps | apply done_keeps | apply State.onTime_keeps | apply State.stepTime_keeps
    | apply Keeps.ite | intro _ | split
theorem execTimeSet_keeps {m : Msg} {s : State} (hk : Keeps s₀ s) : KeepsOut s₀ (execTimeSet m s) :=
  commandRow_keeps hk (fun _ h => bodyTimeSet_keeps h)
theorem State.adjusted_keeps {s : State} (hk : Keeps s₀ s) : Keeps s₀ s.adjusted := by
  unfold State.adjusted
  repeat' with_reducible first
    | assumption | exact Keeps.refl _ | apply State.timeState_keeps | apply State.onTime_keeps | apply Keeps.ite | intro _ | split
theorem bodyTimeAdjustFreq_keeps {m : Msg} {s : State} (hk : Keeps s₀ s) : Keeps s₀ (bodyTimeAdjustFreq m s).state := by
  unfold bodyTimeAdjustFreq
  repeat' with_reducible first
    | assumption | exact Keeps.refl _ | apply orDeny_keeps | apply done_keeps | apply State.adjusted_keeps | apply State.onTime_keeps | intro _
    | split
theorem execTimeAdjustFreq_keeps {m : Msg} {s : State} (hk : Keeps s₀ s) : KeepsOut s₀ (execTimeAdjustFreq m s) :=
  commandRow_keeps hk (fun _ h => bodyTimeAdjustFreq_keeps h)
theorem bodyTimeAdjustSlew_keeps {m : Msg} {s : State} (hk : Keeps s₀ s) : Keeps s₀ (bodyTimeAdjustSlew m s).state := by
  unfold bodyTimeAdjustSlew
  repeat' with_reducible first
    | assumption | exact Keeps.refl _ | apply orDeny_keeps | apply done_keeps | apply State.adjusted_keeps | apply State.onTime_keeps | intro _
    | split
theorem execTimeAdjustSlew_keeps {m : Msg} {s : State} (hk : Keeps s₀ s) : KeepsOut s₀ (execTimeAdjustSlew m s) :=
  commandRow_keeps hk (fun _ h => bodyTimeAdjustSlew_keeps h)
theorem bodyTimeAdjustStep_keeps {m : Msg} {s : State} (hk : Keeps s₀ s) : Keeps s₀ (bodyTimeAdjustStep m s).state := by
  unfold bodyTimeAdjustStep
  repeat' with_reducible first
    | assumption | exact Keeps.refl _ | apply orDeny_keeps | apply done_keeps | apply State.adjusted_keeps | apply State.stepTime_keeps | intro _
    | split
theorem execTimeAdjustStep_keeps {m : Msg} {s : State} (hk : Keeps s₀ s) : KeepsOut s₀ (execTimeAdjustStep m s) :=
  commandRow_keeps hk (fun _ h => bodyTimeAdjustStep_keeps h)
theorem bodyTimePortConfig_keeps {m : Msg} {s : State} (hk : Keeps s₀ s) : Keeps s₀ (bodyTimePortConfig m s).state := by
  unfold bodyTimePortConfig
  repeat' with_reducible first
    | assumption | exact Keeps.refl _ | apply orDeny_keeps | apply done_keeps | apply State.onPtp_keeps | intro _ | split
theorem execTimePortConfig_keeps {m : Msg} {s : State} (hk : Keeps s₀ s) : KeepsOut s₀ (execTimePortConfig m s) :=
  commandRow_keeps hk (fun _ h => bodyTimePortConfig_keeps h)
theorem bodyTimePortRead_keeps {m : Msg} {s : State} (hk : Keeps s₀ s) : Keeps s₀ (bodyTimePortRead m s).state := by
  unfold bodyTimePortRead
  repeat' with_reducible first
    | assumption | exact Keeps.refl _ | apply orDeny_keeps | apply doneWith_keeps | intro _ | split
theorem execTimePortRead_keeps {m : Msg} {s : State} (hk : Keeps s₀ s) : KeepsOut s₀ (execTimePortRead m s) :=
  commandRow_keeps hk (fun _ h => bodyTimePortRead_keeps h)

/-! ### Machine/Mailboxes.lean -/

theorem State.rejectDoorbell_keeps {s : State} {r cause : Nat} (hk : Keeps s₀ s) : Keeps s₀ (s.rejectDoorbell r cause) := by
  unfold State.rejectDoorbell
  repeat' with_reducible first
    | assumption | exact Keeps.refl _ | apply State.bump_keeps | apply State.onMb_keeps | intro _ | split
theorem State.ringDoorbell_keeps {s : State} {r value copy : Nat} (hk : Keeps s₀ s) : Keeps s₀ (s.ringDoorbell r value copy) := by
  unfold State.ringDoorbell
  repeat' with_reducible first
    | assumption | exact Keeps.refl _ | apply State.rejectDoorbell_keeps | apply State.onMb_keeps | intro _ | dsimp only | split
theorem State.ringUdoorbell_keeps {s : State} {r value copy : Nat} (hk : Keeps s₀ s) : Keeps s₀ (s.ringUdoorbell r value copy) := by
  unfold State.ringUdoorbell
  repeat' with_reducible first
    | assumption | exact Keeps.refl _ | apply State.rejectDoorbell_keeps | apply State.onMb_keeps | intro _ | dsimp only | split
theorem State.writeArea_keeps {s : State} {r off : Nat} {v : Byte} (hk : Keeps s₀ s) : Keeps s₀ (s.writeArea r off v) := by
  unfold State.writeArea
  repeat' with_reducible first
    | assumption | exact Keeps.refl _ | (refine State.onHost_keeps ?_ (fun _ h g => ⟨Memory.write_wf h, g⟩)) | apply State.bump_keeps
    | apply Keeps.ite | intro _ | split
theorem State.writeMbReg_keeps {s : State} {r off v copy : Nat} (hk : Keeps s₀ s) : Keeps s₀ (s.writeMbReg r off v copy) := by
  unfold State.writeMbReg
  repeat' with_reducible first
    | assumption | exact Keeps.refl _ | apply State.ringDoorbell_keeps | apply State.ringUdoorbell_keeps | apply State.onMb_keeps | apply Keeps.ite
    | intro _ | split
theorem State.writeMbBytes_keeps {r copy : Nat} : ∀ {bs : List Byte} {s : State} {off : Nat}, Keeps s₀ s →
    Keeps s₀ (s.writeMbBytes r off bs copy)
  | [], _, _, hk => hk
  | b :: bs, s, off, hk => by
    unfold State.writeMbBytes; dsimp only
    apply State.writeMbBytes_keeps
    split
    · exact State.writeArea_keeps hk
    · split
      · exact State.writeMbReg_keeps hk
      · exact hk
theorem execMbDoorbell_keeps {r value copy : Nat} {s : State} (hk : Keeps s₀ s) : KeepsOut s₀ (execMbDoorbell r value copy s) := by
  unfold execMbDoorbell
  repeat' with_reducible first
    | assumption | exact Keeps.refl _ | apply State.ringDoorbell_keeps | apply KeepsOut.unit | intro _ | split
theorem execMbUdoorbell_keeps {r value copy : Nat} {s : State} (hk : Keeps s₀ s) : KeepsOut s₀ (execMbUdoorbell r value copy s) := by
  unfold execMbUdoorbell
  repeat' with_reducible first
    | assumption | exact Keeps.refl _ | apply State.ringUdoorbell_keeps | apply KeepsOut.unit | intro _ | split
theorem execRspValidWrite_keeps {r : Nat} {s : State} (hk : Keeps s₀ s) : KeepsOut s₀ (execRspValidWrite r s) := by
  unfold execRspValidWrite
  repeat' with_reducible first
    | assumption | exact Keeps.refl _ | apply State.onMb_keeps | apply KeepsOut.unit | intro _ | split
theorem execUrspValidWrite_keeps {r : Nat} {s : State} (hk : Keeps s₀ s) : KeepsOut s₀ (execUrspValidWrite r s) := by
  unfold execUrspValidWrite
  repeat' with_reducible first
    | assumption | exact Keeps.refl _ | apply State.onMb_keeps | apply KeepsOut.unit | intro _ | split
theorem execMbEvtConsWrite_keeps {r value : Nat} {s : State} (hk : Keeps s₀ s) : KeepsOut s₀ (execMbEvtConsWrite r value s) := by
  unfold execMbEvtConsWrite
  repeat' with_reducible first
    | assumption | exact Keeps.refl _ | apply State.onMb_keeps | apply KeepsOut.unit | intro _ | split
theorem State.startResetClock_keeps {s : State} {r : Nat} {x : Rsp} (hk : Keeps s₀ s) : Keeps s₀ (s.startResetClock r x) := by
  unfold State.startResetClock
  repeat' with_reducible first
    | assumption | exact Keeps.refl _ | (refine State.onCmd_same ?_ (fun _ => rfl)) | apply Keeps.ite | intro _ | split
theorem State.noteDelivered_keeps {s : State} {r : Nat} {urgent : Bool} {x : Rsp} (hk : Keeps s₀ s) : Keeps s₀ (s.noteDelivered r urgent x) := by
  unfold State.noteDelivered
  repeat' with_reducible first
    | assumption | exact Keeps.refl _ | (refine State.onCtl_same ?_ (fun _ => rfl)) | intro _ | split
theorem State.deliver_keeps {s : State} {r : Nat} {urgent : Bool} (hk : Keeps s₀ s) : Keeps s₀ (s.deliver r urgent) := by
  unfold State.deliver
  repeat' with_reducible first
    | assumption | exact Keeps.refl _ | (refine State.onHost_keeps ?_ (fun _ h g => ⟨Memory.writeN_wf h, g⟩)) | apply State.onMb_keeps
    | apply State.noteDelivered_keeps | apply State.startResetClock_keeps | apply State.raiseIrq_keeps | apply Keeps.ite | intro _ | dsimp only
    | split
theorem execResponseDelivery_keeps {r : Nat} {urgent : Bool} {s : State} (hk : Keeps s₀ s) : KeepsOut s₀ (execResponseDelivery r urgent s) := by
  unfold execResponseDelivery
  repeat' with_reducible first
    | assumption | exact Keeps.refl _ | apply State.deliver_keeps | apply KeepsOut.unit | intro _ | split
theorem State.writeEvent_keeps {s : State} {r : Nat} {e : EvRec} (hk : Keeps s₀ s) : Keeps s₀ (s.writeEvent r e) := by
  unfold State.writeEvent
  repeat' with_reducible first
    | assumption | exact Keeps.refl _ | (refine State.onHost_keeps ?_ (fun _ h g => ⟨Memory.writeN_wf h, g⟩)) | apply State.raiseIrq_keeps
    | apply State.onMb_keeps | intro _ | split
theorem State.eventStep_keeps {s : State} {r : Nat} (hk : Keeps s₀ s) : Keeps s₀ (s.eventStep r) := by
  unfold State.eventStep
  repeat' with_reducible first
    | assumption | exact Keeps.refl _ | apply State.bump_keeps | apply State.onMb_keeps | apply State.writeEvent_keeps | apply Keeps.ite | intro _
    | split
theorem execEventPost_keeps {r : Nat} {s : State} (hk : Keeps s₀ s) : KeepsOut s₀ (execEventPost r s) := by
  unfold execEventPost
  repeat' with_reducible first
    | assumption | exact Keeps.refl _ | apply State.eventStep_keeps | apply KeepsOut.unit | intro _ | split
theorem execIrqHoldoffExpiry_keeps {v : Nat} {s : State} (hk : Keeps s₀ s) : KeepsOut s₀ (execIrqHoldoffExpiry v s) := by
  unfold execIrqHoldoffExpiry
  repeat' with_reducible first
    | assumption | exact Keeps.refl _ | apply keeps_when | (refine State.onHost_same ?_ (fun _ => ⟨rfl, rfl⟩)) | apply KeepsOut.unit | intro _
    | split
theorem execSmbusSetOffset_keeps {offset : Nat} {pecOk : Bool} {s : State} (hk : Keeps s₀ s) : KeepsOut s₀ (execSmbusSetOffset offset pecOk s) := by
  unfold execSmbusSetOffset
  repeat' with_reducible first
    | assumption | exact Keeps.refl _ | apply keeps_when | (refine State.onHost_same ?_ (fun _ => ⟨rfl, rfl⟩)) | apply KeepsOut.next | intro _
    | split
theorem execSmbusBlockWrite_keeps {data : List Byte} {pecOk : Bool} {copy : Nat} {s : State} (hk : Keeps s₀ s) :
    KeepsOut s₀ (execSmbusBlockWrite data pecOk copy s) := by
  unfold execSmbusBlockWrite
  repeat' with_reducible first
    | assumption | exact Keeps.refl _ | apply keeps_when | (refine State.onHost_same ?_ (fun _ => ⟨rfl, rfl⟩)) | apply State.writeMbBytes_keeps
    | apply KeepsOut.next | intro _ | split
theorem execSmbusBlockRead_keeps {n : Nat} {pecOk : Bool} {s : State} (hk : Keeps s₀ s) : KeepsOut s₀ (execSmbusBlockRead n pecOk s) := by
  unfold execSmbusBlockRead
  repeat' with_reducible first
    | assumption | exact Keeps.refl _ | apply keeps_when | (refine State.onHost_same ?_ (fun _ => ⟨rfl, rfl⟩)) | apply KeepsOut.next | intro _
    | split
theorem execSmbusTimeout_keeps {s : State} (hk : Keeps s₀ s) : KeepsOut s₀ (execSmbusTimeout s) := by
  unfold execSmbusTimeout
  repeat' with_reducible first
    | assumption | exact Keeps.refl _ | (refine State.onHost_same ?_ (fun _ => ⟨rfl, rfl⟩)) | apply KeepsOut.next | intro _ | split
theorem execPerstN_keeps {low : Bool} {s : State} (hk : Keeps s₀ s) : KeepsOut s₀ (execPerstN low s) := by
  unfold execPerstN
  repeat' with_reducible first
    | assumption | exact Keeps.refl _ | (refine State.onHost_same ?_ (fun _ => ⟨rfl, rfl⟩)) | apply State.hostPathReset_keeps | apply Keeps.ite
    | apply KeepsOut.next | intro _ | split
theorem execFunctionLevelReset_keeps {s : State} (hk : Keeps s₀ s) : KeepsOut s₀ (execFunctionLevelReset s) := by
  unfold execFunctionLevelReset
  repeat' with_reducible first
    | assumption | exact Keeps.refl _ | apply State.hostPathReset_keeps | apply KeepsOut.next | intro _ | split
theorem execHostLinkLoss_keeps {s : State} (hk : Keeps s₀ s) : KeepsOut s₀ (execHostLinkLoss s) := by
  unfold execHostLinkLoss
  repeat' with_reducible first
    | assumption | exact Keeps.refl _ | apply State.hostPathReset_keeps | apply KeepsOut.next | intro _ | split
theorem execHostLinkReset_keeps {s : State} (hk : Keeps s₀ s) : KeepsOut s₀ (execHostLinkReset s) := by
  unfold execHostLinkReset
  repeat' with_reducible first
    | assumption | exact Keeps.refl _ | (refine State.onHost_same ?_ (fun _ => ⟨rfl, rfl⟩)) | apply State.report_keeps | apply State.post_keeps
    | apply Keeps.ite | apply KeepsOut.next | intro _ | split

/-! ### Machine/Rings.lean -/

theorem State.enableRing_keeps {s : State} {p : Nat} (hk : Keeps s₀ s) : Keeps s₀ (s.enableRing p) := by
  unfold State.enableRing
  repeat' with_reducible first
    | assumption | exact Keeps.refl _ | apply State.onRing_keeps | apply Keeps.ite | intro _ | split
theorem State.disableRing_keeps {s : State} {p : Nat} (hk : Keeps s₀ s) : Keeps s₀ (s.disableRing p) := by
  unfold State.disableRing
  repeat' with_reducible first
    | assumption | exact Keeps.refl _ | apply State.onRing_keeps | intro _ | split
theorem State.flushRing_keeps {s : State} {p : Nat} {cqOk : Bool} (hk : Keeps s₀ s) : Keeps s₀ (s.flushRing p cqOk) := by
  unfold State.flushRing
  repeat' with_reducible first
    | assumption | exact Keeps.refl _ | apply State.onRing_keeps | apply State.completeItem_keeps | apply keeps_foldl | apply Keeps.ite | intro _
    | split
theorem execRingEnable_keeps {p : Nat} {s : State} (hk : Keeps s₀ s) : KeepsOut s₀ (execRingEnable p s) := by
  unfold execRingEnable
  repeat' with_reducible first
    | assumption | exact Keeps.refl _ | apply State.enableRing_keeps | apply KeepsOut.unit | intro _ | split
theorem execRingDisable_keeps {p : Nat} {s : State} (hk : Keeps s₀ s) : KeepsOut s₀ (execRingDisable p s) := by
  unfold execRingDisable
  repeat' with_reducible first
    | assumption | exact Keeps.refl _ | apply State.disableRing_keeps | apply KeepsOut.unit | intro _ | split
theorem execRingFlush_keeps {p : Nat} {cqOk : Bool} {s : State} (hk : Keeps s₀ s) : KeepsOut s₀ (execRingFlush p cqOk s) := by
  unfold execRingFlush
  repeat' with_reducible first
    | assumption | exact Keeps.refl _ | apply State.flushRing_keeps | apply KeepsOut.unit | intro _ | split
theorem State.fetchEntry_keeps {s : State} {p : Nat} {e : List Byte} {cqOk : Bool} (hk : Keeps s₀ s) : Keeps s₀ (s.fetchEntry p e cqOk) := by
  unfold State.fetchEntry
  repeat' with_reducible first
    | assumption | exact Keeps.refl _ | apply State.onRing_keeps | apply State.completeId_keeps | apply Keeps.ite | intro _ | split
theorem State.fetchN_keeps {s : State} {p : Nat} {entries : List (List Byte)} {n : Nat} {cqOk : Bool} (hk : Keeps s₀ s) :
    Keeps s₀ (s.fetchN p entries n cqOk) := by
  unfold State.fetchN
  repeat' with_reducible first
    | assumption | exact Keeps.refl _ | apply keeps_forEach | apply State.fetchEntry_keeps | intro _ | split
theorem execRingPoll_keeps {p : Nat} {entries : List (List Byte)} {fetchOk cqOk : Bool} {s : State} (hk : Keeps s₀ s) :
    KeepsOut s₀ (execRingPoll p entries fetchOk cqOk s) := by
  unfold execRingPoll
  repeat' with_reducible first
    | assumption | exact Keeps.refl _ | apply keeps_when | apply State.onRing_keeps | apply State.ringError_keeps | apply State.fetchN_keeps
    | apply Keeps.ite | apply KeepsOut.unit | intro _ | split
theorem execFlushDone_keeps {p : Nat} {entries : List (List Byte)} {fetchOk cqOk : Bool} {s : State} (hk : Keeps s₀ s) :
    KeepsOut s₀ (execFlushDone p entries fetchOk cqOk s) := by
  unfold execFlushDone
  repeat' with_reducible first
    | assumption | exact Keeps.refl _ | apply State.ringError_keeps | apply State.fetchN_keeps | apply State.raiseIrq_keeps
    | apply State.onRing_keeps | apply Keeps.ite | apply KeepsOut.unit | intro _ | dsimp only | split
theorem State.dumpFill_keeps {s : State} {p : Nat} {dmaOk cqOk : Bool} (hk : Keeps s₀ s) : Keeps s₀ (s.dumpFill p dmaOk cqOk) := by
  unfold State.dumpFill
  repeat' with_reducible first
    | assumption | exact Keeps.refl _ | apply State.allocBuffer_keeps | apply State.completeItem_keeps | apply State.setItem_keeps
    | (refine State.onHost_same ?_ (fun _ => ⟨rfl, rfl⟩)) | apply State.moved_keeps | apply State.hostWrite_keeps | apply State.finishPlain_keeps
    | apply Keeps.ite | apply Keeps.of_snd ‹_› | intro _ | dsimp only | split
theorem execDumpFill_keeps {p : Nat} {dmaOk cqOk : Bool} {s : State} (hk : Keeps s₀ s) : KeepsOut s₀ (execDumpFill p dmaOk cqOk s) := by
  unfold execDumpFill
  repeat' with_reducible first
    | assumption | exact Keeps.refl _ | apply keeps_when | apply State.dumpFill_keeps | apply KeepsOut.unit | intro _ | split
theorem State.reclaim_keeps {s : State} {key : Nat} {b : Buffer} {cqOk : Bool} (hk : Keeps s₀ s) : Keeps s₀ (s.reclaim key b cqOk) := by
  unfold State.reclaim
  repeat' with_reducible first
    | assumption | exact Keeps.refl _ | apply State.onPools_keeps | apply State.freeBuffer_keeps | apply State.post_keeps | apply State.bump_keeps
    | apply State.completeItem_keeps | apply State.setItem_keeps | apply Keeps.ite | intro _ | dsimp only | split
theorem State.visitBuffer_keeps {s : State} {cqOk : Bool} {key : Nat} (hk : Keeps s₀ s) : Keeps s₀ (s.visitBuffer cqOk key) := by
  unfold State.visitBuffer
  repeat' with_reducible first
    | assumption | exact Keeps.refl _ | apply State.reclaim_keeps | apply State.post_keeps | apply State.onPools_keeps | apply Keeps.ite | intro _
    | dsimp only | split
theorem execSheepdogVisit_keeps {cqOk : Bool} {s : State} (hk : Keeps s₀ s) : KeepsOut s₀ (execSheepdogVisit cqOk s) := by
  unfold execSheepdogVisit
  repeat' with_reducible first
    | assumption | exact Keeps.refl _ | apply keeps_forEach | apply State.visitBuffer_keeps | apply KeepsOut.next | intro _ | split
theorem bodyRingAssign_keeps {m : Msg} {s : State} (hk : Keeps s₀ s) : Keeps s₀ (bodyRingAssign m s).state := by
  unfold bodyRingAssign
  repeat' with_reducible first
    | assumption | exact Keeps.refl _ | apply orDeny_keeps | apply done_keeps | apply State.onRing_keeps | intro _ | split
theorem execRingAssign_keeps {m : Msg} {s : State} (hk : Keeps s₀ s) : KeepsOut s₀ (execRingAssign m s) :=
  commandRow_keeps hk (fun _ h => bodyRingAssign_keeps h)
theorem bodyRingPools_keeps {m : Msg} {s : State} (hk : Keeps s₀ s) : Keeps s₀ (bodyRingPools m s).state := by
  unfold bodyRingPools
  repeat' with_reducible first
    | assumption | exact Keeps.refl _ | apply orDeny_keeps | apply done_keeps | apply State.onPools_keeps | intro _ | split
theorem execRingPools_keeps {m : Msg} {s : State} (hk : Keeps s₀ s) : KeepsOut s₀ (execRingPools m s) :=
  commandRow_keeps hk (fun _ h => bodyRingPools_keeps h)
theorem bodyRingQuota_keeps {m : Msg} {s : State} (hk : Keeps s₀ s) : Keeps s₀ (bodyRingQuota m s).state := by
  unfold bodyRingQuota
  repeat' with_reducible first
    | assumption | exact Keeps.refl _ | apply orDeny_keeps | apply done_keeps | apply State.onPools_keeps | intro _ | split
theorem execRingQuota_keeps {m : Msg} {s : State} (hk : Keeps s₀ s) : KeepsOut s₀ (execRingQuota m s) :=
  commandRow_keeps hk (fun _ h => bodyRingQuota_keeps h)
theorem bodyRingCap_keeps {m : Msg} {s : State} (hk : Keeps s₀ s) : Keeps s₀ (bodyRingCap m s).state := by
  unfold bodyRingCap
  repeat' with_reducible first
    | assumption | exact Keeps.refl _ | apply orDeny_keeps | apply done_keeps | apply State.onPools_keeps | intro _ | split
theorem execRingCap_keeps {m : Msg} {s : State} (hk : Keeps s₀ s) : KeepsOut s₀ (execRingCap m s) :=
  commandRow_keeps hk (fun _ h => bodyRingCap_keeps h)
theorem bodyRingRelease_keeps {m : Msg} {s : State} (hk : Keeps s₀ s) : Keeps s₀ (bodyRingRelease m s).state := by
  unfold bodyRingRelease
  repeat' with_reducible first
    | assumption | exact Keeps.refl _ | apply orDeny_keeps | apply done_keeps | apply State.freeBuffer_keeps | intro _ | split
theorem execRingRelease_keeps {m : Msg} {s : State} (hk : Keeps s₀ s) : KeepsOut s₀ (execRingRelease m s) :=
  commandRow_keeps hk (fun _ h => bodyRingRelease_keeps h)
theorem bodyRingStatusCmd_keeps {m : Msg} {s : State} (hk : Keeps s₀ s) : Keeps s₀ (bodyRingStatusCmd m s).state := by
  unfold bodyRingStatusCmd
  repeat' with_reducible first
    | assumption | exact Keeps.refl _ | apply orDeny_keeps | apply doneWith_keeps | intro _ | split
theorem execRingStatusCmd_keeps {m : Msg} {s : State} (hk : Keeps s₀ s) : KeepsOut s₀ (execRingStatusCmd m s) :=
  commandRow_keeps hk (fun _ h => bodyRingStatusCmd_keeps h)

/-! ### Machine/Control.lean -/

theorem State.onThread_keeps {s : State} {i : Nat} {f : Thread → Thread} (hk : Keeps s₀ s) : Keeps s₀ (s.onThread i f) := by
  unfold State.onThread
  repeat' with_reducible first
    | assumption | exact Keeps.refl _ | (refine State.onCtl_same ?_ (fun _ => rfl)) | intro _ | split
theorem State.restartOutst_keeps {s : State} {r : Nat} {o : Outst} (hk : Keeps s₀ s) : Keeps s₀ (s.restartOutst r o) := by
  unfold State.restartOutst
  repeat' with_reducible first
    | assumption | exact Keeps.refl _ | apply State.postDone_keeps | apply State.dropOut_keeps | intro _ | split
theorem State.restartHeld_keeps {s : State} {h : Held} (hk : Keeps s₀ s) : Keeps s₀ (s.restartHeld h) :=
  respond_keeps (deny_keeps (State.onCmd_same hk (fun _ => rfl)))
theorem State.completeInFlight_keeps {s : State} (hk : Keeps s₀ s) : Keeps s₀ s.completeInFlight := by
  unfold State.completeInFlight
  repeat' with_reducible first
    | assumption | exact Keeps.refl _ | apply State.restartHeld_keeps | apply keeps_forEach | apply State.restartOutst_keeps
    | apply State.abandonCommits_keeps | apply keeps_foldl | intro _ | split
theorem State.takeUp_keeps {s : State} (hk : Keeps s₀ s) : Keeps s₀ s.takeUp := by
  unfold State.takeUp
  repeat' with_reducible first
    | assumption | exact Keeps.refl _ | apply State.announceTakeover_keeps | apply State.newLeadAcks_keeps | apply State.failActivation_keeps
    | apply State.completeInFlight_keeps | intro _ | split
theorem State.controlLostNow_keeps {s : State} (hk : Keeps s₀ s) : Keeps s₀ s.controlLostNow := by
  unfold State.controlLostNow
  repeat' with_reducible first
    | assumption | exact Keeps.refl _ | apply State.report_keeps | (refine State.onCtl_same ?_ (fun _ => rfl)) | intro _ | split
theorem State.loseLead_keeps {s : State} (hk : Keeps s₀ s) : Keeps s₀ s.loseLead := by
  unfold State.loseLead; split
  · exact hk
  · split
    · refine State.takeUp_keeps (State.flipLead_keeps (State.onCtl_same hk (fun c => ?_)))
      split <;> rfl
    · exact State.controlLostNow_keeps hk
theorem execFrameSpill_keeps {i : Nat} {s : State} (hk : Keeps s₀ s) : KeepsOut s₀ (execFrameSpill i s) := by
  unfold execFrameSpill
  repeat' with_reducible first
    | assumption | exact Keeps.refl _ | apply keeps_when | apply State.onThread_keeps | apply KeepsOut.unit | intro _ | split
theorem execFrameFill_keeps {i : Nat} {s : State} (hk : Keeps s₀ s) : KeepsOut s₀ (execFrameFill i s) := by
  unfold execFrameFill
  repeat' with_reducible first
    | assumption | exact Keeps.refl _ | apply keeps_when | apply State.onThread_keeps | apply KeepsOut.unit | intro _ | split
theorem State.restartThread_keeps {s : State} {i cls : Nat} (hk : Keeps s₀ s) : Keeps s₀ (s.restartThread i cls) := by
  unfold State.restartThread
  repeat' with_reducible first
    | assumption | exact Keeps.refl _ | apply State.onFault_keeps | apply State.onThread_keeps | apply State.post_keeps | apply State.bump_keeps
    | (refine State.onCmd_same ?_ (fun _ => rfl)) | apply State.restartHeld_keeps | apply State.report_keeps | apply Keeps.ite | intro _ | dsimp only
    | split
theorem execFrameFault_keeps {i : Nat} {nested : Bool} {s : State} (hk : Keeps s₀ s) : KeepsOut s₀ (execFrameFault i nested s) := by
  unfold execFrameFault
  repeat' with_reducible first
    | assumption | exact Keeps.refl _ | apply keeps_when | apply State.restartThread_keeps | apply State.report_keeps | apply State.bump_keeps
    | apply State.onThread_keeps | apply KeepsOut.unit | intro _ | split
theorem execThreadWake_keeps {i reason : Nat} {halt : Bool} {s : State} (hk : Keeps s₀ s) : KeepsOut s₀ (execThreadWake i reason halt s) := by
  unfold execThreadWake
  repeat' with_reducible first
    | assumption | exact Keeps.refl _ | apply State.onThread_keeps | apply KeepsOut.unit | intro _ | split
theorem execRootWrite_keeps {i address : Nat} {write : Bool} {s : State} (hk : Keeps s₀ s) : KeepsOut s₀ (execRootWrite i address write s) := by
  unfold execRootWrite
  repeat' with_reducible first
    | assumption | exact Keeps.refl _ | apply keeps_when | apply State.restartThread_keeps | apply State.report_keeps | apply KeepsOut.unit | intro _
    | split
theorem execGenerationSeal_keeps {s : State} (hk : Keeps s₀ s) : KeepsOut s₀ (execGenerationSeal s) := by
  unfold execGenerationSeal
  repeat' with_reducible first
    | assumption | exact Keeps.refl _ | (refine State.onCtl_same ?_ (fun _ => rfl)) | apply State.bump_keeps | apply Keeps.ite | apply KeepsOut.next
    | intro _ | split
theorem execGenerationAdopt_keeps {crcOk : Bool} {s : State} (hk : Keeps s₀ s) : KeepsOut s₀ (execGenerationAdopt crcOk s) := by
  unfold execGenerationAdopt
  repeat' with_reducible first
    | assumption | exact Keeps.refl _ | apply keeps_when | (refine State.onCtl_same ?_ (fun _ => rfl)) | apply State.bump_keeps | apply Keeps.ite
    | apply KeepsOut.next | intro _ | split
theorem execHeartbeatWrite_keeps {complex : Nat} {s : State} (hk : Keeps s₀ s) : KeepsOut s₀ (execHeartbeatWrite complex s) := by
  unfold execHeartbeatWrite
  repeat' with_reducible first
    | assumption | exact Keeps.refl _ | (refine State.onCtl_same ?_ (fun _ => rfl)) | apply State.bump_keeps | apply Keeps.ite | apply KeepsOut.unit
    | intro _ | split
theorem execHeartbeatMiss_keeps {s : State} (hk : Keeps s₀ s) : KeepsOut s₀ (execHeartbeatMiss s) := by
  unfold execHeartbeatMiss
  repeat' with_reducible first
    | assumption | exact Keeps.refl _ | apply keeps_when | (refine State.onCtl_same ?_ (fun _ => rfl)) | apply State.loseLead_keeps | apply Keeps.ite
    | apply KeepsOut.next | intro _ | split
theorem execLeadYield_keeps {s : State} (hk : Keeps s₀ s) : KeepsOut s₀ (execLeadYield s) := by
  unfold execLeadYield
  repeat' with_reducible first
    | assumption | exact Keeps.refl _ | apply keeps_when | apply State.loseLead_keeps | apply KeepsOut.next | intro _ | split
theorem execUnderstudyReady_keeps {selfTestOk : Bool} {s : State} (hk : Keeps s₀ s) : KeepsOut s₀ (execUnderstudyReady selfTestOk s) := by
  unfold execUnderstudyReady
  repeat' with_reducible first
    | assumption | exact Keeps.refl _ | apply keeps_when | apply State.post_keeps | (refine State.onCtl_same ?_ (fun _ => rfl)) | apply Keeps.ite
    | apply KeepsOut.next | intro _ | split
theorem execControlRecoveryAttempt_keeps {started : Bool} {s : State} (hk : Keeps s₀ s) : KeepsOut s₀ (execControlRecoveryAttempt started s) := by
  unfold execControlRecoveryAttempt
  repeat' with_reducible first
    | assumption | exact Keeps.refl _ | apply keeps_when | apply State.takeUp_keeps | apply State.controlBack_keeps
    | (refine State.onCtl_same ?_ (fun _ => rfl)) | apply Keeps.ite | apply KeepsOut.next | intro _ | split
theorem bodyIdentityChain_keeps {m : Msg} {s : State} (hk : Keeps s₀ s) : Keeps s₀ (bodyIdentityChain m s).state := by
  unfold bodyIdentityChain
  repeat' with_reducible first
    | assumption | exact Keeps.refl _ | apply orDeny_keeps | apply doneWith_keeps | intro _ | split
theorem execIdentityChain_keeps {m : Msg} {s : State} (hk : Keeps s₀ s) : KeepsOut s₀ (execIdentityChain m s) :=
  commandRow_keeps hk (fun _ h => bodyIdentityChain_keeps h)
theorem bodyIdentityQuote_keeps {m : Msg} {s : State} (hk : Keeps s₀ s) : Keeps s₀ (bodyIdentityQuote m s).state := by
  unfold bodyIdentityQuote
  repeat' with_reducible first
    | assumption | exact Keeps.refl _ | apply orDeny_keeps | apply doneWith_keeps | intro _ | split
theorem execIdentityQuote_keeps {m : Msg} {s : State} (hk : Keeps s₀ s) : KeepsOut s₀ (execIdentityQuote m s) :=
  commandRow_keeps hk (fun _ h => bodyIdentityQuote_keeps h)
theorem bodyIdentityOwnerEnrol_keeps {m : Msg} {s : State} (hk : Keeps s₀ s) : Keeps s₀ (bodyIdentityOwnerEnrol m s).state := by
  unfold bodyIdentityOwnerEnrol
  repeat' with_reducible first
    | assumption | exact Keeps.refl _ | apply orDeny_keeps | apply done_keeps | apply State.ledgerWrite_keeps
    | (refine State.onCtl_same ?_ (fun _ => rfl)) | intro _ | split
theorem execIdentityOwnerEnrol_keeps {m : Msg} {s : State} (hk : Keeps s₀ s) : KeepsOut s₀ (execIdentityOwnerEnrol m s) :=
  commandRow_keeps hk (fun _ h => bodyIdentityOwnerEnrol_keeps h)
theorem bodyIdentityRollbackCommit_keeps {m : Msg} {s : State} (hk : Keeps s₀ s) : Keeps s₀ (bodyIdentityRollbackCommit m s).state := by
  unfold bodyIdentityRollbackCommit
  repeat' with_reducible first
    | assumption | exact Keeps.refl _ | apply orDeny_keeps | apply done_keeps | apply State.post_keeps | apply State.ledgerWrite_keeps
    | (refine State.onCtl_same ?_ (fun _ => rfl)) | intro _ | split
theorem execIdentityRollbackCommit_keeps {m : Msg} {s : State} (hk : Keeps s₀ s) : KeepsOut s₀ (execIdentityRollbackCommit m s) :=
  commandRow_keeps hk (fun _ h => bodyIdentityRollbackCommit_keeps h)

/-! ### Machine/RecordOps.lean -/

theorem State.onBookRing_keeps {s : State} {k kind : Nat} {f : BookRing → BookRing} (hk : Keeps s₀ s) : Keeps s₀ (s.onBookRing k kind f) := by
  unfold State.onBookRing
  repeat' with_reducible first
    | assumption | exact Keeps.refl _ | apply State.onBook_keeps | intro _ | split
theorem State.writeRecord_keeps {s : State} {k kind flags : Nat} {body : List Byte} (hk : Keeps s₀ s) :
    KeepsOpt s₀ (s.writeRecord k kind flags body) := by
  unfold State.writeRecord
  repeat' with_reducible first
    | assumption | exact Keeps.refl _ | apply State.onBookRing_keeps | apply State.post_keeps | apply Keeps.ite | exact KeepsOpt.none
    | apply KeepsOpt.some | apply KeepsOpt.ite | intro _ | dsimp only | split
theorem State.loseRecord_keeps {s : State} {k kind ev : Nat} (hk : Keeps s₀ s) : Keeps s₀ (s.loseRecord k kind ev) := by
  unfold State.loseRecord
  repeat' with_reducible first
    | assumption | exact Keeps.refl _ | apply State.onBookRing_keeps | apply State.bump_keeps | intro _ | split
theorem State.onCapture_keeps {s : State} {k j : Nat} {f : Capture → Capture} (hk : Keeps s₀ s) : Keeps s₀ (s.onCapture k j f) := by
  unfold State.onCapture
  repeat' with_reducible first
    | assumption | exact Keeps.refl _ | apply State.onBook_keeps | intro _ | split
theorem State.triggerCapture_keeps {s : State} {k j cause : Nat} (hk : Keeps s₀ s) : Keeps s₀ (s.triggerCapture k j cause) := by
  unfold State.triggerCapture
  repeat' with_reducible first
    | assumption | exact Keeps.refl _ | apply State.post_keeps | apply State.onCapture_keeps | apply State.bump_keeps | apply Keeps.ite | intro _
    | split
theorem State.onFlow_keeps {s : State} {k j : Nat} {f : FlowSession → FlowSession} (hk : Keeps s₀ s) : Keeps s₀ (s.onFlow k j f) := by
  unfold State.onFlow
  repeat' with_reducible first
    | assumption | exact Keeps.refl _ | apply State.onBook_keeps | intro _ | split
theorem State.sampleFlow_keeps {s : State} {k j inLport len : Nat} {frame : List Byte} (hk : Keeps s₀ s) :
    Keeps s₀ (s.sampleFlow k j inLport len frame) := by
  unfold State.sampleFlow
  repeat' with_reducible first
    | assumption | exact Keeps.refl _ | apply State.shareRefused_keeps | apply State.shareTraffic_keeps | apply State.onFlow_keeps
    | apply State.bump_keeps | apply Keeps.ite | intro _ | split
theorem State.exportFlow_keeps {s : State} {k j : Nat} {e : FlowEntry} {x : Nat} (hk : Keeps s₀ s) : Keeps s₀ (s.exportFlow k j e x) := by
  unfold State.exportFlow; dsimp only
  apply Keeps.getD
  · exact State.writeRecord_keeps (State.onFlow_keeps hk)
  · exact State.loseRecord_keeps (State.onFlow_keeps hk)

/-! ### Machine/Records.lean -/

theorem State.journalStep_keeps {s : State} (hk : Keeps s₀ s) : Keeps s₀ s.journalStep := by
  unfold State.journalStep
  repeat' with_reducible first
    | assumption | exact Keeps.refl _ | apply State.writeRecord_keeps | apply State.onBook_keeps | apply State.loseRecord_keeps | apply Keeps.ite
    | apply Keeps.of_opt ‹_› | intro _ | split
theorem execJournalRecordWrite_keeps {s : State} (hk : Keeps s₀ s) : KeepsOut s₀ (execJournalRecordWrite s) := by
  unfold execJournalRecordWrite
  repeat' with_reducible first
    | assumption | exact Keeps.refl _ | apply State.journalStep_keeps | apply KeepsOut.next | intro _ | split
theorem execSnapIntervalRecord_keeps {s : State} (hk : Keeps s₀ s) : KeepsOut s₀ (execSnapIntervalRecord s) := by
  unfold execSnapIntervalRecord
  repeat' with_reducible first
    | assumption | exact Keeps.refl _ | apply keeps_when | apply keeps_forEach | apply State.writeRecord_keeps | apply State.loseRecord_keeps
    | apply State.onBook_keeps | apply Keeps.getD | apply KeepsOut.next | intro _ | split
theorem execCaptureTriggered_keeps {k j code : Nat} {s : State} (hk : Keeps s₀ s) : KeepsOut s₀ (execCaptureTriggered k j code s) := by
  unfold execCaptureTriggered
  repeat' with_reducible first
    | assumption | exact Keeps.refl _ | apply keeps_when | apply State.triggerCapture_keeps | apply KeepsOut.unit | intro _ | split
theorem execCapturePostEnd_keeps {k j : Nat} {s : State} (hk : Keeps s₀ s) : KeepsOut s₀ (execCapturePostEnd k j s) := by
  unfold execCapturePostEnd
  repeat' with_reducible first
    | assumption | exact Keeps.refl _ | apply keeps_when | apply State.onCapture_keeps | apply KeepsOut.unit | intro _ | split
theorem execCaptureDone_keeps {k j : Nat} {ue : Option Nat} {s : State} (hk : Keeps s₀ s) : KeepsOut s₀ (execCaptureDone k j ue s) := by
  unfold execCaptureDone
  repeat' with_reducible first
    | assumption | exact Keeps.refl _ | apply keeps_when | apply State.dramUe_keeps | apply State.writeRecord_keeps | apply State.post_keeps
    | apply State.onCapture_keeps | apply Keeps.of_opt ‹_› | apply KeepsOut.unit | intro _ | dsimp only | split
theorem execFlowExport_keeps {k j i : Nat} {ue : Option Nat} {s : State} (hk : Keeps s₀ s) : KeepsOut s₀ (execFlowExport k j i ue s) := by
  unfold execFlowExport
  repeat' with_reducible first
    | assumption | exact Keeps.refl _ | apply State.dramUe_keeps | apply State.bump_keeps | apply State.onFlow_keeps | apply State.exportFlow_keeps
    | apply Keeps.ite | apply KeepsOut.unit | intro _ | split
theorem execDriveAdded_keeps {i label pct extents serial : Nat} {critical : Bool} {s : State} (hk : Keeps s₀ s) :
    KeepsOut s₀ (execDriveAdded i label pct extents serial critical s) := by
  unfold execDriveAdded
  repeat' with_reducible first
    | assumption | exact Keeps.refl _ | apply State.onBook_keeps | apply State.ledgerWrite_keeps | apply State.post_keeps | apply Keeps.ite
    | apply KeepsOut.unit | intro _ | split
theorem execDriveRemoved_keeps {i : Nat} {s : State} (hk : Keeps s₀ s) : KeepsOut s₀ (execDriveRemoved i s) := by
  unfold execDriveRemoved
  repeat' with_reducible first
    | assumption | exact Keeps.refl _ | apply keeps_when | apply State.post_keeps | apply State.ledgerWrite_keeps | apply State.onBook_keeps
    | apply KeepsOut.unit | intro _ | split
theorem execSmartRead_keeps {i pct : Nat} {critical : Bool} {s : State} (hk : Keeps s₀ s) : KeepsOut s₀ (execSmartRead i pct critical s) := by
  unfold execSmartRead
  repeat' with_reducible first
    | assumption | exact Keeps.refl _ | apply State.onBook_keeps | apply KeepsOut.unit | intro _ | split
theorem execLedgerCheckpoint_keeps {measured : List Byte} {energy : Nat} {s : State} (hk : Keeps s₀ s) :
    KeepsOut s₀ (execLedgerCheckpoint measured energy s) := by
  unfold execLedgerCheckpoint
  repeat' with_reducible first
    | assumption | exact Keeps.refl _ | apply keeps_when | apply State.onBook_keeps | apply State.accountSeconds_keeps
    | apply State.ledgerWrite_keeps | apply KeepsOut.next | intro _ | split
theorem execLaneTrend_keeps {trend : List Byte} {s : State} (hk : Keeps s₀ s) : KeepsOut s₀ (execLaneTrend trend s) := by
  unfold execLaneTrend
  repeat' with_reducible first
    | assumption | exact Keeps.refl _ | apply keeps_when | apply State.ledgerWrite_keeps | apply State.onBook_keeps | apply KeepsOut.next | intro _
    | split
theorem execDramEcs_keeps {counts : List Byte} {s : State} (hk : Keeps s₀ s) : KeepsOut s₀ (execDramEcs counts s) := by
  unfold execDramEcs
  repeat' with_reducible first
    | assumption | exact Keeps.refl _ | apply keeps_when | apply State.ledgerWrite_keeps | apply State.onBook_keeps | apply KeepsOut.next | intro _
    | split
theorem State.postWear_keeps {s : State} (hk : Keeps s₀ s) : Keeps s₀ s.postWear := by
  unfold State.postWear
  repeat' with_reducible first
    | assumption | exact Keeps.refl _ | apply State.post_keeps | intro _ | split
theorem State.compactLedger_keeps {s : State} {failed : List Nat} (hk : Keeps s₀ s) : Keeps s₀ (s.compactLedger failed) := by
  unfold State.compactLedger
  repeat' with_reducible first
    | assumption | exact Keeps.refl _ | apply State.onBook_keeps | apply State.ledgerWrite_keeps | apply State.postWear_keeps | apply keeps_foldl
    | apply Keeps.ite | intro _ | split
theorem execLedgerCompaction_keeps {failed : List Nat} {s : State} (hk : Keeps s₀ s) : KeepsOut s₀ (execLedgerCompaction failed s) := by
  unfold execLedgerCompaction
  repeat' with_reducible first
    | assumption | exact Keeps.refl _ | apply keeps_when | apply State.compactLedger_keeps | apply KeepsOut.next | intro _ | split
theorem State.backup_keeps {s : State} {k : State → Nat → List Byte → State} (hk : Keeps s₀ s)
    (h : ∀ u a b, Keeps s₀ u → Keeps s₀ (k u a b)) : Keeps s₀ (s.backup k) := by
  unfold State.backup; dsimp only
  apply h; apply State.onBook_keeps
  apply Keeps.ite
  · exact Keeps.getD (State.writeRecord_keeps hk) hk
  · exact hk
theorem execLedgerBackup_keeps {s : State} (hk : Keeps s₀ s) : KeepsOut s₀ (execLedgerBackup s) := by
  unfold execLedgerBackup
  repeat' with_reducible first
    | assumption | exact Keeps.refl _ | apply State.backup_keeps | apply State.finish_keeps | apply State.post_keeps | apply Keeps.ite
    | apply KeepsOut.next | intro _ | split
theorem State.recordSub_keeps {s : State} {k : Nat} {r : List Byte} (hk : Keeps s₀ s) : Keeps s₀ (s.recordSub k r) := by
  unfold State.recordSub
  repeat' with_reducible first
    | assumption | exact Keeps.refl _ | apply State.onBookRing_keeps | apply State.onCapture_keeps | apply State.exportFlow_keeps
    | apply State.onFlow_keeps | apply State.onBook_keeps | apply keeps_foldl | apply Keeps.ite | intro _ | split
theorem bodyRecordConfig_keeps {m : Msg} {s : State} (hk : Keeps s₀ s) : Keeps s₀ (bodyRecordConfig m s).state := by
  unfold bodyRecordConfig
  repeat' with_reducible first
    | assumption | exact Keeps.refl _ | apply orDeny_keeps | apply done_keeps | apply State.recordSub_keeps | apply keeps_foldl | intro _ | split
theorem execRecordConfig_keeps {m : Msg} {s : State} (hk : Keeps s₀ s) : KeepsOut s₀ (execRecordConfig m s) :=
  commandRow_keeps hk (fun _ h => bodyRecordConfig_keeps h)
theorem bodyRecordTrigger_keeps {m : Msg} {s : State} (hk : Keeps s₀ s) : Keeps s₀ (bodyRecordTrigger m s).state := by
  unfold bodyRecordTrigger
  repeat' with_reducible first
    | assumption | exact Keeps.refl _ | apply orDeny_keeps | apply done_keeps | apply State.triggerCapture_keeps | intro _ | split
theorem execRecordTrigger_keeps {m : Msg} {s : State} (hk : Keeps s₀ s) : KeepsOut s₀ (execRecordTrigger m s) :=
  commandRow_keeps hk (fun _ h => bodyRecordTrigger_keeps h)
theorem bodyRecordStatus_keeps {m : Msg} {s : State} (hk : Keeps s₀ s) : Keeps s₀ (bodyRecordStatus m s).state := by
  unfold bodyRecordStatus
  repeat' with_reducible first
    | assumption | exact Keeps.refl _ | apply orDeny_keeps | apply doneWith_keeps | intro _ | split
theorem execRecordStatus_keeps {m : Msg} {s : State} (hk : Keeps s₀ s) : KeepsOut s₀ (execRecordStatus m s) :=
  commandRow_keeps hk (fun _ h => bodyRecordStatus_keeps h)
theorem bodyRecordRead_keeps {m : Msg} {s : State} (hk : Keeps s₀ s) : Keeps s₀ (bodyRecordRead m s).state := by
  unfold bodyRecordRead
  repeat' with_reducible first
    | assumption | exact Keeps.refl _ | apply orDeny_keeps | apply accept_keeps | apply State.startDump_keeps | intro _ | split
theorem execRecordRead_keeps {m : Msg} {s : State} (hk : Keeps s₀ s) : KeepsOut s₀ (execRecordRead m s) :=
  commandRow_keeps hk (fun _ h => bodyRecordRead_keeps h)
theorem bodyRecordDrive_keeps {m : Msg} {s : State} (hk : Keeps s₀ s) : Keeps s₀ (bodyRecordDrive m s).state := by
  unfold bodyRecordDrive
  repeat' with_reducible first
    | assumption | exact Keeps.refl _ | apply orDeny_keeps | apply done_keeps | apply State.onBook_keeps | intro _ | split
theorem execRecordDrive_keeps {m : Msg} {s : State} (hk : Keeps s₀ s) : KeepsOut s₀ (execRecordDrive m s) :=
  commandRow_keeps hk (fun _ h => bodyRecordDrive_keeps h)
theorem bodyLifeRead_keeps {m : Msg} {s : State} (hk : Keeps s₀ s) : Keeps s₀ (bodyLifeRead m s).state := by
  unfold bodyLifeRead
  repeat' with_reducible first
    | assumption | exact Keeps.refl _ | apply orDeny_keeps | apply accept_keeps | apply done_keeps | apply State.startDump_keeps
    | apply doneWith_keeps | intro _ | split
theorem execLifeRead_keeps {m : Msg} {s : State} (hk : Keeps s₀ s) : KeepsOut s₀ (execLifeRead m s) :=
  commandRow_keeps hk (fun _ h => bodyLifeRead_keeps h)
theorem bodyLifeStatus_keeps {m : Msg} {s : State} (hk : Keeps s₀ s) : Keeps s₀ (bodyLifeStatus m s).state := by
  unfold bodyLifeStatus
  repeat' with_reducible first
    | assumption | exact Keeps.refl _ | apply orDeny_keeps | apply doneWith_keeps | intro _ | split
theorem execLifeStatus_keeps {m : Msg} {s : State} (hk : Keeps s₀ s) : KeepsOut s₀ (execLifeStatus m s) :=
  commandRow_keeps hk (fun _ h => bodyLifeStatus_keeps h)
theorem bodyLifeBackup_keeps {m : Msg} {s : State} (hk : Keeps s₀ s) : Keeps s₀ (bodyLifeBackup m s).state := by
  unfold bodyLifeBackup
  repeat' with_reducible first
    | assumption | exact Keeps.refl _ | apply orDeny_keeps | apply accept_keeps | intro _ | split
theorem execLifeBackup_keeps {m : Msg} {s : State} (hk : Keeps s₀ s) : KeepsOut s₀ (execLifeBackup m s) :=
  commandRow_keeps hk (fun _ h => bodyLifeBackup_keeps h)

end Sys2Proof.Machine
end

