-- ==== Sys2Proof/Laws/KeepsTables.lean ====
section
/-! SUPPORT. What each operation keeps (Laws/Keeps.lean):
ports, modules, tables, rules and versions. -/
namespace Sys2Proof.Machine
open Sys2Proof
set_option Elab.async false
set_option linter.unusedTactic false
set_option linter.unreachableTactic false

variable {s₀ : State}

/-! ### Machine/Ports.lean -/

theorem State.reconfigure_keeps {s : State} {l : Nat} {new : Option Nat} (hk : Keeps s₀ s) : Keeps s₀ (s.reconfigure l new) := by
  unfold State.reconfigure
  repeat' with_reducible first
    | assumption | exact Keeps.refl _ | apply State.onLport_keeps | apply State.peerDown_keeps | apply State.downLport_keeps
    | apply State.settleLport_keeps | apply Keeps.ite | intro _ | split
theorem bodyPortConfig_keeps {m : Msg} {s : State} (hk : Keeps s₀ s) : Keeps s₀ (bodyPortConfig m s).state := by
  unfold bodyPortConfig
  repeat' with_reducible first
    | assumption | exact Keeps.refl _ | apply orDeny_keeps | apply done_keeps | apply State.recompute_keeps | apply State.reselectModule_keeps
    | apply keeps_forEach | apply State.reconfigure_keeps | intro _ | split
theorem execPortConfig_keeps {m : Msg} {s : State} (hk : Keeps s₀ s) : KeepsOut s₀ (execPortConfig m s) :=
  commandRow_keeps hk (fun _ h => bodyPortConfig_keeps h)
theorem bodyPortStatus_keeps {m : Msg} {s : State} (hk : Keeps s₀ s) : Keeps s₀ (bodyPortStatus m s).state := by
  unfold bodyPortStatus
  repeat' with_reducible first
    | assumption | exact Keeps.refl _ | apply orDeny_keeps | apply doneWith_keeps | intro _ | split
theorem execPortStatus_keeps {m : Msg} {s : State} (hk : Keeps s₀ s) : KeepsOut s₀ (execPortStatus m s) :=
  commandRow_keeps hk (fun _ h => bodyPortStatus_keeps h)
theorem bodyPortHealth_keeps {m : Msg} {s : State} (hk : Keeps s₀ s) : Keeps s₀ (bodyPortHealth m s).state := by
  unfold bodyPortHealth
  repeat' with_reducible first
    | assumption | exact Keeps.refl _ | apply orDeny_keeps | apply doneWith_keeps | intro _ | split
theorem execPortHealth_keeps {m : Msg} {s : State} (hk : Keeps s₀ s) : KeepsOut s₀ (execPortHealth m s) :=
  commandRow_keeps hk (fun _ h => bodyPortHealth_keeps h)
theorem bodyPortSerdesBounds_keeps {m : Msg} {s : State} (hk : Keeps s₀ s) : Keeps s₀ (bodyPortSerdesBounds m s).state := by
  unfold bodyPortSerdesBounds
  repeat' with_reducible first
    | assumption | exact Keeps.refl _ | apply orDeny_keeps | apply done_keeps | apply keeps_forEach | apply State.onLane_keeps | apply keeps_foldl
    | intro _ | split
theorem execPortSerdesBounds_keeps {m : Msg} {s : State} (hk : Keeps s₀ s) : KeepsOut s₀ (execPortSerdesBounds m s) :=
  commandRow_keeps hk (fun _ h => bodyPortSerdesBounds_keeps h)
theorem execSerdesAdaptation_keeps {lane field want : Nat} {s : State} (hk : Keeps s₀ s) : KeepsOut s₀ (execSerdesAdaptation lane field want s) := by
  unfold execSerdesAdaptation
  repeat' with_reducible first
    | assumption | exact Keeps.refl _ | apply State.onLane_keeps | apply State.post_keeps | apply Keeps.ite | apply KeepsOut.unit | intro _ | split
theorem State.startProbation_keeps {s : State} {l : Nat} (hk : Keeps s₀ s) : Keeps s₀ (s.startProbation l) := by
  unfold State.startProbation
  repeat' with_reducible first
    | assumption | exact Keeps.refl _ | apply State.postPort_keeps | apply State.flushClasses_keeps | apply State.onLport_keeps | intro _ | split
theorem execLinkUp_keeps {l : Nat} {s : State} (hk : Keeps s₀ s) : KeepsOut s₀ (execLinkUp l s) := by
  unfold execLinkUp
  repeat' with_reducible first
    | assumption | exact Keeps.refl _ | apply keeps_when | apply State.onLport_keeps | apply State.postPort_keeps | apply State.startProbation_keeps
    | apply Keeps.ite | apply KeepsOut.unit | intro _ | split
theorem execLinkDown_keeps {l cause : Nat} {s : State} (hk : Keeps s₀ s) : KeepsOut s₀ (execLinkDown l cause s) := by
  unfold execLinkDown
  repeat' with_reducible first
    | assumption | exact Keeps.refl _ | apply keeps_when | apply State.downLport_keeps | apply KeepsOut.unit | intro _ | split
theorem execLaneRateFallback_keeps {l : Nat} {s : State} (hk : Keeps s₀ s) : KeepsOut s₀ (execLaneRateFallback l s) := by
  unfold execLaneRateFallback
  repeat' with_reducible first
    | assumption | exact Keeps.refl _ | apply keeps_when | apply State.downLport_keeps | apply State.onLport_keeps | apply State.postPort_keeps
    | apply Keeps.ite | apply KeepsOut.unit | intro _ | split
theorem execPeerHelloSend_keeps {l : Nat} {s : State} (hk : Keeps s₀ s) : KeepsOut s₀ (execPeerHelloSend l s) := by
  unfold execPeerHelloSend
  repeat' with_reducible first
    | assumption | exact Keeps.refl _ | apply keeps_when | apply State.statN_keeps | apply State.stat_keeps | apply State.onLport_keeps
    | apply KeepsOut.unit | intro _ | split
theorem execPeerHelloReceive_keeps {l flags : Nat} {s : State} (hk : Keeps s₀ s) : KeepsOut s₀ (execPeerHelloReceive l flags s) := by
  unfold execPeerHelloReceive
  repeat' with_reducible first
    | assumption | exact Keeps.refl _ | apply keeps_when | apply State.stat_keeps | apply State.onLport_keeps | apply State.postPort_keeps
    | apply Keeps.ite | apply KeepsOut.unit | intro _ | split
theorem execPeerTimeout_keeps {l : Nat} {s : State} (hk : Keeps s₀ s) : KeepsOut s₀ (execPeerTimeout l s) := by
  unfold execPeerTimeout
  repeat' with_reducible first
    | assumption | exact Keeps.refl _ | apply keeps_when | apply State.peerDown_keeps | apply KeepsOut.unit | intro _ | split
theorem execLaneFault_keeps {lane : Nat} {s : State} (hk : Keeps s₀ s) : KeepsOut s₀ (execLaneFault lane s) := by
  unfold execLaneFault
  repeat' with_reducible first
    | assumption | exact Keeps.refl _ | apply State.report_keeps | apply State.downLport_keeps | apply State.onLport_keeps | apply Keeps.ite
    | apply KeepsOut.unit | intro _ | dsimp only | split
theorem execWidthChangeOrderedSet_keeps {l pair : Nat} {s : State} (hk : Keeps s₀ s) : KeepsOut s₀ (execWidthChangeOrderedSet l pair s) := by
  unfold execWidthChangeOrderedSet
  repeat' with_reducible first
    | assumption | exact Keeps.refl _ | apply keeps_when | apply State.downLport_keeps | apply State.onLport_keeps | apply Keeps.ite
    | apply KeepsOut.unit | intro _ | split
theorem execWidthChange_keeps {l : Nat} {s : State} (hk : Keeps s₀ s) : KeepsOut s₀ (execWidthChange l s) := by
  unfold execWidthChange
  repeat' with_reducible first
    | assumption | exact Keeps.refl _ | apply State.onLport_keeps | apply State.postPort_keeps | apply KeepsOut.unit | intro _ | dsimp only | split
theorem execRestoreHoldExpiry_keeps {l pair : Nat} {s : State} (hk : Keeps s₀ s) : KeepsOut s₀ (execRestoreHoldExpiry l pair s) := by
  unfold execRestoreHoldExpiry
  repeat' with_reducible first
    | assumption | exact Keeps.refl _ | apply keeps_when | apply State.onLport_keeps | apply KeepsOut.unit | intro _ | split
theorem execHealthWindowEnd_keeps {l cw corr sym unc : Nat} {s : State} (hk : Keeps s₀ s) :
    KeepsOut s₀ (execHealthWindowEnd l cw corr sym unc s) := by
  unfold execHealthWindowEnd
  repeat' with_reducible first
    | assumption | exact Keeps.refl _ | apply keeps_when | apply State.fecCount_keeps | apply State.onLport_keeps | apply State.setDegraded_keeps
    | apply KeepsOut.unit | intro _ | split
theorem execProbationStart_keeps {l cw corr sym unc : Nat} {s : State} (hk : Keeps s₀ s) : KeepsOut s₀ (execProbationStart l cw corr sym unc s) := by
  unfold execProbationStart
  repeat' with_reducible first
    | assumption | exact Keeps.refl _ | apply keeps_when | apply State.fecCount_keeps | apply State.startProbation_keeps
    | apply State.setDegraded_keeps | apply Keeps.ite | apply KeepsOut.unit | intro _ | split
theorem execProbationEnd_keeps {l : Nat} {s : State} (hk : Keeps s₀ s) : KeepsOut s₀ (execProbationEnd l s) := by
  unfold execProbationEnd
  repeat' with_reducible first
    | assumption | exact Keeps.refl _ | apply keeps_when | apply State.downLport_keeps | apply State.postPort_keeps | apply State.onLport_keeps
    | apply Keeps.ite | apply KeepsOut.unit | intro _ | split
theorem execRefclkLaneLoss_keeps {k : Nat} {s : State} (hk : Keeps s₀ s) : KeepsOut s₀ (execRefclkLaneLoss k s) := by
  unfold execRefclkLaneLoss
  repeat' with_reducible first
    | assumption | exact Keeps.refl _ | apply keeps_forEach | apply State.downPort_keeps | apply State.onPower_keeps | apply KeepsOut.unit | intro _
    | split
theorem execRefclkLaneReturn_keeps {k : Nat} {s : State} (hk : Keeps s₀ s) : KeepsOut s₀ (execRefclkLaneReturn k s) := by
  unfold execRefclkLaneReturn
  repeat' with_reducible first
    | assumption | exact Keeps.refl _ | apply keeps_when | apply keeps_forEach | apply State.trainLport_keeps | apply State.onPower_keeps
    | apply Keeps.ite | apply KeepsOut.unit | intro _ | split
theorem State.enterTest_keeps {s : State} {l : Nat} (hk : Keeps s₀ s) : Keeps s₀ (s.enterTest l) := by
  unfold State.enterTest
  repeat' with_reducible first
    | assumption | exact Keeps.refl _ | apply State.onLport_keeps | apply State.stopLport_keeps | apply Keeps.ite | intro _ | split
theorem bodyTestLoopback_keeps {m : Msg} {s : State} (hk : Keeps s₀ s) : Keeps s₀ (bodyTestLoopback m s).state := by
  unfold bodyTestLoopback
  repeat' with_reducible first
    | assumption | exact Keeps.refl _ | apply orDeny_keeps | apply done_keeps | apply State.endLoop_keeps | apply State.onLport_keeps
    | apply State.enterTest_keeps | apply Keeps.ite | intro _ | split
theorem execTestLoopback_keeps {m : Msg} {s : State} (hk : Keeps s₀ s) : KeepsOut s₀ (execTestLoopback m s) :=
  commandRow_keeps hk (fun _ h => bodyTestLoopback_keeps h)
theorem bodyTestPrbs_keeps {m : Msg} {s : State} (hk : Keeps s₀ s) : Keeps s₀ (bodyTestPrbs m s).state := by
  unfold bodyTestPrbs
  repeat' with_reducible first
    | assumption | exact Keeps.refl _ | apply orDeny_keeps | apply done_keeps | apply State.endPattern_keeps | apply State.onLane_keeps
    | apply State.enterTest_keeps | apply Keeps.ite | intro _ | dsimp only | split
theorem execTestPrbs_keeps {m : Msg} {s : State} (hk : Keeps s₀ s) : KeepsOut s₀ (execTestPrbs m s) :=
  commandRow_keeps hk (fun _ h => bodyTestPrbs_keeps h)
theorem execPrbsLocked_keeps {lane : Nat} {s : State} (hk : Keeps s₀ s) : KeepsOut s₀ (execPrbsLocked lane s) := by
  unfold execPrbsLocked
  repeat' with_reducible first
    | assumption | exact Keeps.refl _ | apply keeps_when | apply State.onLane_keeps | apply KeepsOut.unit | intro _ | split
theorem execPrbsLockLost_keeps {lane : Nat} {s : State} (hk : Keeps s₀ s) : KeepsOut s₀ (execPrbsLockLost lane s) := by
  unfold execPrbsLockLost
  repeat' with_reducible first
    | assumption | exact Keeps.refl _ | apply keeps_when | apply State.onLane_keeps | apply KeepsOut.unit | intro _ | split
theorem bodyTestStatus_keeps {m : Msg} {s : State} (hk : Keeps s₀ s) : Keeps s₀ (bodyTestStatus m s).state := by
  unfold bodyTestStatus
  repeat' with_reducible first
    | assumption | exact Keeps.refl _ | apply State.onLane_keeps | apply orDeny_keeps | apply doneWith_keeps | apply keeps_foldl | intro _ | split
theorem execTestStatus_keeps {m : Msg} {s : State} (hk : Keeps s₀ s) : KeepsOut s₀ (execTestStatus m s) :=
  commandRow_keeps hk (fun _ h => bodyTestStatus_keeps h)

/-! ### Machine/Modules.lean -/

theorem State.moduleFault_keeps {s : State} {c cause : Nat} (hk : Keeps s₀ s) : Keeps s₀ (s.moduleFault c cause) := by
  unfold State.moduleFault
  repeat' with_reducible first
    | assumption | exact Keeps.refl _ | apply State.postModule_keeps | apply State.onModule_keeps | intro _ | split
theorem State.downCage_keeps {s : State} {c : Nat} (hk : Keeps s₀ s) : Keeps s₀ (s.downCage c) := by
  unfold State.downCage
  repeat' with_reducible first
    | assumption | exact Keeps.refl _ | apply State.downPort_keeps | intro _ | split
theorem State.insertModule_keeps {s : State} {c : Nat} (hk : Keeps s₀ s) : Keeps s₀ (s.insertModule c) := by
  unfold State.insertModule
  repeat' with_reducible first
    | assumption | exact Keeps.refl _ | apply State.postModule_keeps | apply State.onModule_keeps | apply State.moduleFault_keeps | intro _
    | dsimp only | split
theorem State.removeModule_keeps {s : State} {c : Nat} (hk : Keeps s₀ s) : Keeps s₀ (s.removeModule c) := by
  unfold State.removeModule
  repeat' with_reducible first
    | assumption | exact Keeps.refl _ | apply State.onModule_keeps | apply State.downCage_keeps | apply State.ledgerWrite_keeps
    | apply State.postModule_keeps | intro _ | split
theorem execModuleInserted_keeps {c : Nat} {s : State} (hk : Keeps s₀ s) : KeepsOut s₀ (execModuleInserted c s) := by
  unfold execModuleInserted
  repeat' with_reducible first
    | assumption | exact Keeps.refl _ | apply keeps_when | apply State.onModule_keeps | apply State.insertModule_keeps | apply Keeps.ite
    | apply KeepsOut.unit | intro _ | split
theorem execCgRstNRelease_keeps {c : Nat} {s : State} (hk : Keeps s₀ s) : KeepsOut s₀ (execCgRstNRelease c s) := by
  unfold execCgRstNRelease
  repeat' with_reducible first
    | assumption | exact Keeps.refl _ | apply keeps_when | apply State.onModule_keeps | apply KeepsOut.unit | intro _ | split
theorem execModuleLowPower_keeps {c identifier : Nat} {cmis : Bool} {vendor part : List Byte} {serial firmware power : Nat}
    {apps : List (Nat × Nat × Nat)} {pwrUpMs dpInitMs : Nat} {s : State} (hk : Keeps s₀ s) : KeepsOut s₀ (execModuleLowPower c identifier cmis vendor part serial firmware power apps pwrUpMs dpInitMs s) := by
  unfold execModuleLowPower
  repeat' with_reducible first
    | assumption | exact Keeps.refl _ | apply keeps_when | apply State.onModule_keeps | apply State.ledgerWrite_keeps | apply State.moduleFault_keeps
    | apply State.settleModule_keeps | apply Keeps.ite | apply KeepsOut.unit | intro _ | split
theorem execModulePowerUp_keeps {c : Nat} {s : State} (hk : Keeps s₀ s) : KeepsOut s₀ (execModulePowerUp c s) := by
  unfold execModulePowerUp
  repeat' with_reducible first
    | assumption | exact Keeps.refl _ | apply keeps_when | apply State.onModule_keeps | apply KeepsOut.unit | intro _ | split
theorem execModuleReady_keeps {c : Nat} {s : State} (hk : Keeps s₀ s) : KeepsOut s₀ (execModuleReady c s) := by
  unfold execModuleReady
  repeat' with_reducible first
    | assumption | exact Keeps.refl _ | apply keeps_when | apply State.postModule_keeps | apply State.onModule_keeps | apply keeps_forEach
    | apply State.trainLport_keeps | apply Keeps.ite | apply KeepsOut.unit | intro _ | dsimp only | split
theorem execModuleTimeout_keeps {c : Nat} {s : State} (hk : Keeps s₀ s) : KeepsOut s₀ (execModuleTimeout c s) := by
  unfold execModuleTimeout
  repeat' with_reducible first
    | assumption | exact Keeps.refl _ | apply State.moduleFault_keeps | apply State.onModule_keeps | apply Keeps.ite | apply KeepsOut.unit | intro _
    | split
theorem State.moduleFlags_keeps {s : State} {c : Nat} {fault alarm : Bool} (hk : Keeps s₀ s) : Keeps s₀ (s.moduleFlags c fault alarm) := by
  unfold State.moduleFlags
  repeat' with_reducible first
    | assumption | exact Keeps.refl _ | apply State.moduleFault_keeps | apply State.onModule_keeps | apply State.downCage_keeps | apply Keeps.ite
    | intro _ | split
theorem execModuleInterrupt_keeps {c : Nat} {fault alarm : Bool} {s : State} (hk : Keeps s₀ s) :
    KeepsOut s₀ (execModuleInterrupt c fault alarm s) := by
  unfold execModuleInterrupt
  repeat' with_reducible first
    | assumption | exact Keeps.refl _ | apply State.moduleFlags_keeps | apply KeepsOut.unit | intro _ | split
theorem State.checkZones_keeps {s : State} (hk : Keeps s₀ s) : Keeps s₀ s.checkZones := by
  unfold State.checkZones
  repeat' with_reducible first
    | assumption | exact Keeps.refl _ | apply State.onSurr_keeps | apply State.post_keeps | apply keeps_foldl | apply Keeps.ite | intro _ | split
theorem execModulePoll_keeps {c : Nat} {answers : Bool} {serial : Nat} {temp : Int} {fault alarm : Bool} {s : State} (hk : Keeps s₀ s) :
    KeepsOut s₀ (execModulePoll c answers serial temp fault alarm s) := by
  unfold execModulePoll
  repeat' with_reducible first
    | assumption | exact Keeps.refl _ | apply State.moduleFault_keeps | apply State.onModule_keeps | apply State.downCage_keeps
    | apply State.postModule_keeps | apply State.insertModule_keeps | apply State.removeModule_keeps | apply State.checkZones_keeps
    | apply State.moduleFlags_keeps | apply Keeps.ite | apply KeepsOut.unit | intro _ | split
theorem execModuleRemoved_keeps {c : Nat} {s : State} (hk : Keeps s₀ s) : KeepsOut s₀ (execModuleRemoved c s) := by
  unfold execModuleRemoved
  repeat' with_reducible first
    | assumption | exact Keeps.refl _ | apply keeps_when | apply State.onModule_keeps | apply State.removeModule_keeps | apply Keeps.ite
    | apply KeepsOut.unit | intro _ | split
theorem execMgmtBusRecover_keeps {bus : Nat} {s : State} (hk : Keeps s₀ s) : KeepsOut s₀ (execMgmtBusRecover bus s) := by
  unfold execMgmtBusRecover
  repeat' with_reducible first
    | assumption | exact Keeps.refl _ | apply State.onSurr_keeps | apply KeepsOut.unit | intro _ | split
theorem bodyModuleStatus_keeps {m : Msg} {s : State} (hk : Keeps s₀ s) : Keeps s₀ (bodyModuleStatus m s).state := by
  unfold bodyModuleStatus
  repeat' with_reducible first
    | assumption | exact Keeps.refl _ | apply orDeny_keeps | apply doneWith_keeps | intro _ | split
theorem execModuleStatus_keeps {m : Msg} {s : State} (hk : Keeps s₀ s) : KeepsOut s₀ (execModuleStatus m s) :=
  commandRow_keeps hk (fun _ h => bodyModuleStatus_keeps h)
theorem bodyModuleRead_keeps {m : Msg} {s : State} (hk : Keeps s₀ s) : Keeps s₀ (bodyModuleRead m s).state := by
  unfold bodyModuleRead
  repeat' with_reducible first
    | assumption | exact Keeps.refl _ | apply orDeny_keeps | apply doneWith_keeps | intro _ | split
theorem execModuleRead_keeps {m : Msg} {s : State} (hk : Keeps s₀ s) : KeepsOut s₀ (execModuleRead m s) :=
  commandRow_keeps hk (fun _ h => bodyModuleRead_keeps h)
theorem bodyModuleWrite_keeps {m : Msg} {s : State} (hk : Keeps s₀ s) : Keeps s₀ (bodyModuleWrite m s).state := by
  unfold bodyModuleWrite
  repeat' with_reducible first
    | assumption | exact Keeps.refl _ | apply orDeny_keeps | apply done_keeps | apply State.onModule_keeps | intro _ | split
theorem execModuleWrite_keeps {m : Msg} {s : State} (hk : Keeps s₀ s) : KeepsOut s₀ (execModuleWrite m s) :=
  commandRow_keeps hk (fun _ h => bodyModuleWrite_keeps h)
theorem bodyModuleReset_keeps {m : Msg} {s : State} (hk : Keeps s₀ s) : Keeps s₀ (bodyModuleReset m s).state := by
  unfold bodyModuleReset
  repeat' with_reducible first
    | assumption | exact Keeps.refl _ | apply orDeny_keeps | apply done_keeps | apply State.onModule_keeps | apply State.downCage_keeps | intro _
    | dsimp only | split
theorem execModuleReset_keeps {m : Msg} {s : State} (hk : Keeps s₀ s) : KeepsOut s₀ (execModuleReset m s) :=
  commandRow_keeps hk (fun _ h => bodyModuleReset_keeps h)

/-! ### Machine/LearnOps.lean -/

theorem State.putSlot_keeps {s : State} {i : Inst} {t b j raw : Nat} (hk : Keeps s₀ s) : Keeps s₀ (s.putSlot i t b j raw) := by
  unfold State.putSlot
  repeat' with_reducible first
    | assumption | exact Keeps.refl _ | apply State.writeLoc_keeps | intro _ | split
theorem State.stationMove_keeps {s : State} {t k : Nat} (hk : Keeps s₀ s) : Keeps s₀ (s.stationMove t k) := by
  unfold State.stationMove
  repeat' with_reducible first
    | assumption | exact Keeps.refl _ | apply State.onTab_keeps | apply State.bump_keeps | intro _ | split
theorem State.learnFull_keeps {s : State} {t k : Nat} (hk : Keeps s₀ s) : Keeps s₀ (s.learnFull t k) := by
  unfold State.learnFull
  repeat' with_reducible first
    | assumption | exact Keeps.refl _ | apply State.onset_keeps | apply State.bump_keeps | apply State.post_keeps | apply Keeps.ite | intro _ | split
theorem State.addProv_keeps {s : State} {p : Prov} (hk : Keeps s₀ s) : Keeps s₀ (s.addProv p) := by
  unfold State.addProv
  repeat' with_reducible first
    | assumption | exact Keeps.refl _ | apply State.onTab_keeps | intro _ | split
theorem State.learnSource_keeps {s : State} {t k v vid mac lport seq : Nat} {room : Bool} (hk : Keeps s₀ s) :
    Keeps s₀ (s.learnSource t k v vid mac lport seq room).state := by
  unfold State.learnSource
  repeat' with_reducible first
    | assumption | exact Keeps.refl _ | apply State.putSlot_keeps | apply State.bump_keeps | apply State.addProv_keeps | apply State.insertEnt_keeps
    | apply State.learnFull_keeps | apply Keeps.of_opt ‹_› | intro _ | dsimp only | split
theorem State.learnTalk_keeps {s : State} {t k v vid mac lport : Nat} {room : Bool} (hk : Keeps s₀ s) :
    Keeps s₀ (s.learnTalk t k v vid mac lport room) := by
  unfold State.learnTalk
  repeat' with_reducible first
    | assumption | exact Keeps.refl _ | apply State.putSlot_keeps | apply State.bump_keeps | apply State.stationMove_keeps
    | apply State.insertEnt_keeps | apply State.learnFull_keeps | apply Keeps.ite | apply Keeps.of_opt ‹_› | intro _ | dsimp only | split
theorem State.giveVerdict_keeps {s : State} {t lport seq : Nat} {good : Bool} (hk : Keeps s₀ s) : Keeps s₀ (s.giveVerdict t lport seq good) := by
  unfold State.giveVerdict
  repeat' with_reducible first
    | assumption | exact Keeps.refl _ | apply State.onTab_keeps | intro _ | split
theorem State.judgeProvIn_keeps {s : State} {i : Inst} {p : Prov} {good : Bool} (hk : Keeps s₀ s) : Keeps s₀ (s.judgeProvIn i p good) := by
  unfold State.judgeProvIn
  repeat' with_reducible first
    | assumption | exact Keeps.refl _ | apply State.putSlot_keeps | apply State.stationMove_keeps | apply State.bump_keeps | apply Keeps.ite
    | intro _ | dsimp only | split

/-! ### Machine/Tables.lean -/

theorem orDenyAt_keeps {s : State} {b : Option (Nat × Nat)} {a : Answer} (hk : Keeps s₀ s) (ha : Keeps s₀ a.state) :
    Keeps s₀ (orDenyAt b s a).state := by
  unfold orDenyAt; split
  · exact hk
  · exact ha
theorem stageAll_keeps {α : Type} {f : α → State → Sum State Nat} (hf : ∀ a u, Keeps s₀ u → KeepsSum s₀ (f a u)) :
    ∀ {l : List α} {n : Nat} {s : State}, Keeps s₀ s → KeepsSum s₀ (stageAll f l n s)
  | [], _, _, hk => KeepsSum.inl hk
  | a :: l, n, s, hk => by
    unfold stageAll; split
    · rename_i x e; exact stageAll_keeps hf (Keeps.of_sum e (hf a s hk))
    · exact KeepsSum.inr
theorem stagedAnswer_keeps {α : Type} {s : State} {f : α → State → Sum State Nat} {l : List α} (hk : Keeps s₀ s)
    (hf : ∀ a u, Keeps s₀ u → KeepsSum s₀ (f a u)) : Keeps s₀ (stagedAnswer f l s).state := by
  unfold stagedAnswer; split
  · rename_i x e; exact Keeps.of_sum e (stageAll_keeps hf hk)
  · exact hk
theorem State.finishFor_keeps {s : State} {r : Nat} {p : Outst → Bool} {code level unit status : Nat} {payload : List Byte} (hk : Keeps s₀ s) :
    Keeps s₀ (s.finishFor r p code level unit status payload) := by
  unfold State.finishFor
  repeat' with_reducible first
    | assumption | exact Keeps.refl _ | apply State.postDone_keeps | apply State.dropOut_keeps | intro _ | split
theorem bodyTableCreate_keeps {m : Msg} {s : State} (hk : Keeps s₀ s) : Keeps s₀ (bodyTableCreate m s).state := by
  unfold bodyTableCreate
  repeat' with_reducible first
    | assumption | exact Keeps.refl _ | apply orDeny_keeps | apply accept_keeps | apply State.setBatch_keeps | apply State.onInsts_keeps | intro _
    | split
theorem execTableCreate_keeps {m : Msg} {s : State} (hk : Keeps s₀ s) : KeepsOut s₀ (execTableCreate m s) :=
  commandRow_keeps hk (fun _ h => bodyTableCreate_keeps h)
theorem State.fillHash_keeps {s : State} {k : Nat} {i : Inst} (hk : Keeps s₀ s) : Keeps s₀ (s.fillHash k i) :=
  keeps_foldl (fun _ _ => keeps_foldl (fun u _ => Keeps.getD (insertTiles_keeps (Keeps.refl u)) (Keeps.refl u)) (Keeps.refl _)) hk
theorem State.fillDirect_keeps {s : State} {k : Nat} {i : Inst} (hk : Keeps s₀ s) : Keeps s₀ (s.fillDirect k i) := by
  unfold State.fillDirect
  repeat' with_reducible first
    | assumption | exact Keeps.refl _ | apply keeps_forEach | apply State.writeLoc_keeps | apply keeps_foldl | intro _ | split
theorem State.fillHalves_keeps {s : State} {k : Nat} {i : Inst} (hk : Keeps s₀ s) : Keeps s₀ (s.fillHalves k i) := by
  unfold State.fillHalves
  repeat' with_reducible first
    | assumption | exact Keeps.refl _ | apply keeps_forEach | apply State.writeLoc_keeps | apply keeps_foldl | intro _ | split
theorem State.fillInst_keeps {s : State} {k : Nat} {i : Inst} (hk : Keeps s₀ s) : Keeps s₀ (s.fillInst k i) := by
  unfold State.fillInst
  repeat' with_reducible first
    | assumption | exact Keeps.refl _ | apply State.fillHalves_keeps | apply State.setFilter4In_keeps | apply keeps_forEach
    | apply State.addFilter6_keeps | apply State.fillDirect_keeps | apply State.fillHash_keeps | apply keeps_foldl | apply Keeps.ite | intro _
    | split
theorem execInstanceReady_keeps {k kind : Nat} {s : State} (hk : Keeps s₀ s) : KeepsOut s₀ (execInstanceReady k kind s) := by
  unfold execInstanceReady
  repeat' with_reducible first
    | assumption | exact Keeps.refl _ | apply State.finishFor_keeps | apply State.onInsts_keeps | apply State.fillInst_keeps
    | apply State.zeroInst_keeps | apply Keeps.ite | apply KeepsOut.unit | intro _ | split
theorem bodyTableProfile_keeps {m : Msg} {s : State} (hk : Keeps s₀ s) : Keeps s₀ (bodyTableProfile m s).state := by
  unfold bodyTableProfile
  repeat' with_reducible first
    | assumption | exact Keeps.refl _ | apply orDeny_keeps | apply done_keeps | apply State.stageCfg_keeps | intro _ | split
theorem execTableProfile_keeps {m : Msg} {s : State} (hk : Keeps s₀ s) : KeepsOut s₀ (execTableProfile m s) :=
  commandRow_keeps hk (fun _ h => bodyTableProfile_keeps h)
theorem bodyTableDomain_keeps {m : Msg} {s : State} (hk : Keeps s₀ s) : Keeps s₀ (bodyTableDomain m s).state := by
  unfold bodyTableDomain
  repeat' with_reducible first
    | assumption | exact Keeps.refl _ | apply orDeny_keeps | apply orDenyAt_keeps | apply done_keeps | apply State.stageCfg_keeps | intro _ | split
theorem execTableDomain_keeps {m : Msg} {s : State} (hk : Keeps s₀ s) : KeepsOut s₀ (execTableDomain m s) :=
  commandRow_keeps hk (fun _ h => bodyTableDomain_keeps h)
theorem stagePfx_keeps {k : Nat} {add : Bool} {r : List Byte} {s : State} (hk : Keeps s₀ s) : KeepsSum s₀ (stagePfx k add r s) := by
  unfold stagePfx
  repeat' with_reducible first
    | assumption | exact Keeps.refl _ | apply State.addPrefix_keeps | apply State.dropPrefix_keeps | apply Keeps.of_opt ‹_› | apply KeepsSum.inl
    | exact KeepsSum.inr | apply KeepsSum.ite | intro _ | split
theorem State.directHeld_keeps {s : State} {k : Nat} {rs : List (List Byte)} (hk : Keeps s₀ s) : Keeps s₀ (s.directHeld k rs) := by
  unfold State.directHeld
  repeat' with_reducible first
    | assumption | exact Keeps.refl _ | apply keeps_forEach | apply State.bumpN_keeps | intro _ | split
theorem bodyPfx_keeps {opcode : Nat} {add : Bool} {m : Msg} {s : State} (hk : Keeps s₀ s) : Keeps s₀ (bodyPfx opcode add m s).state := by
  unfold bodyPfx
  repeat' with_reducible first
    | assumption | exact Keeps.refl _ | apply orDeny_keeps | apply orDenyAt_keeps | apply hold_keeps | apply State.holdCommand_keeps
    | apply State.directHeld_keeps | apply stagedAnswer_keeps | apply stagePfx_keeps | intro _ | split
theorem bodyTablePfxAdd_keeps {m : Msg} {s : State} (hk : Keeps s₀ s) : Keeps s₀ (bodyTablePfxAdd m s).state := by
  unfold bodyTablePfxAdd
  repeat' with_reducible first
    | assumption | exact Keeps.refl _ | apply bodyPfx_keeps | intro _ | split
theorem execTablePfxAdd_keeps {m : Msg} {s : State} (hk : Keeps s₀ s) : KeepsOut s₀ (execTablePfxAdd m s) :=
  commandRow_keeps hk (fun _ h => bodyTablePfxAdd_keeps h)
theorem bodyTablePfxDelete_keeps {m : Msg} {s : State} (hk : Keeps s₀ s) : Keeps s₀ (bodyTablePfxDelete m s).state := by
  unfold bodyTablePfxDelete
  repeat' with_reducible first
    | assumption | exact Keeps.refl _ | apply bodyPfx_keeps | intro _ | split
theorem execTablePfxDelete_keeps {m : Msg} {s : State} (hk : Keeps s₀ s) : KeepsOut s₀ (execTablePfxDelete m s) :=
  commandRow_keeps hk (fun _ h => bodyTablePfxDelete_keeps h)
theorem State.putDirect_keeps {s : State} {k kind key : Nat} {l : List BEnt} (hk : Keeps s₀ s) : Keeps s₀ (s.putDirect k kind key l) := by
  unfold State.putDirect
  repeat' with_reducible first
    | assumption | exact Keeps.refl _ | apply State.setBatch_keeps | apply State.putBacks_keeps | apply State.writeDirect_keeps | intro _ | split
theorem stageEntry_keeps {k : Nat} {r : EntRec} {s : State} (hk : Keeps s₀ s) : KeepsSum s₀ (stageEntry k r s) := by
  unfold stageEntry
  repeat' with_reducible first
    | assumption | exact Keeps.refl _ | apply State.stageHash_keeps | apply State.putDirect_keeps | apply Keeps.of_opt ‹_› | apply KeepsSum.inl
    | exact KeepsSum.inr | apply KeepsSum.ite | intro _ | split
theorem unstageEntry_keeps {k : Nat} {r : EntRec} {s : State} (hk : Keeps s₀ s) : KeepsSum s₀ (unstageEntry k r s) := by
  unfold unstageEntry
  repeat' with_reducible first
    | assumption | exact Keeps.refl _ | apply State.unstageHash_keeps | apply State.putDirect_keeps | apply Keeps.of_opt ‹_› | apply KeepsSum.inl
    | exact KeepsSum.inr | apply KeepsSum.ite | intro _ | split
theorem bodyEntries_keeps {opcode : Nat} {delete : Bool} {m : Msg} {s : State} (hk : Keeps s₀ s) :
    Keeps s₀ (bodyEntries opcode delete m s).state := by
  unfold bodyEntries
  repeat' with_reducible first
    | assumption | exact Keeps.refl _ | apply deny_keeps | apply orDeny_keeps | apply orDenyAt_keeps | apply hold_keeps
    | apply State.holdCommand_keeps | apply stagedAnswer_keeps | apply unstageEntry_keeps | apply stageEntry_keeps | intro _ | dsimp only | split
theorem bodyTableEntryWrite_keeps {m : Msg} {s : State} (hk : Keeps s₀ s) : Keeps s₀ (bodyTableEntryWrite m s).state := by
  unfold bodyTableEntryWrite
  repeat' with_reducible first
    | assumption | exact Keeps.refl _ | apply bodyEntries_keeps | intro _ | split
theorem execTableEntryWrite_keeps {m : Msg} {s : State} (hk : Keeps s₀ s) : KeepsOut s₀ (execTableEntryWrite m s) :=
  commandRow_keeps hk (fun _ h => bodyTableEntryWrite_keeps h)
theorem bodyTableEntryDelete_keeps {m : Msg} {s : State} (hk : Keeps s₀ s) : Keeps s₀ (bodyTableEntryDelete m s).state := by
  unfold bodyTableEntryDelete
  repeat' with_reducible first
    | assumption | exact Keeps.refl _ | apply bodyEntries_keeps | intro _ | split
theorem execTableEntryDelete_keeps {m : Msg} {s : State} (hk : Keeps s₀ s) : KeepsOut s₀ (execTableEntryDelete m s) :=
  commandRow_keeps hk (fun _ h => bodyTableEntryDelete_keeps h)
theorem State.walkMoved_keeps {s : State} {k kind t cursor : Nat} (hk : Keeps s₀ s) : Keeps s₀ (s.walkMoved k kind t cursor).2 := by
  unfold State.walkMoved
  repeat' with_reducible first
    | assumption | exact Keeps.refl _ | apply State.onTab_keeps | intro _ | dsimp only | split
theorem bodyTableRead_keeps {m : Msg} {s : State} (hk : Keeps s₀ s) : Keeps s₀ (bodyTableRead m s).state := by
  unfold bodyTableRead
  repeat' with_reducible first
    | assumption | exact Keeps.refl _ | apply orDeny_keeps | apply State.walkMoved_keeps | apply doneWith_keeps | apply deny_keeps | intro _
    | dsimp only | split
theorem execTableRead_keeps {m : Msg} {s : State} (hk : Keeps s₀ s) : KeepsOut s₀ (execTableRead m s) :=
  commandRow_keeps hk (fun _ h => bodyTableRead_keeps h)
theorem State.flushLearned_keeps {s : State} {k how lport vid : Nat} (hk : Keeps s₀ s) : Keeps s₀ (s.flushLearned k how lport vid).2 := by
  unfold State.flushLearned
  repeat' with_reducible first
    | assumption | exact Keeps.refl _ | apply State.putWord_keeps | apply keeps_foldl | intro _ | split
theorem bodyTableFlushLearned_keeps {m : Msg} {s : State} (hk : Keeps s₀ s) : Keeps s₀ (bodyTableFlushLearned m s).state := by
  unfold bodyTableFlushLearned
  repeat' with_reducible first
    | assumption | exact Keeps.refl _ | apply State.flushLearned_keeps | apply orDeny_keeps | apply doneWith_keeps | intro _ | split
theorem execTableFlushLearned_keeps {m : Msg} {s : State} (hk : Keeps s₀ s) : KeepsOut s₀ (execTableFlushLearned m s) :=
  commandRow_keeps hk (fun _ h => bodyTableFlushLearned_keeps h)

/-! ### Machine/RuleOps.lean -/

theorem State.onBlock_keeps {s : State} {b : Nat} {f : Block → Block} (hk : Keeps s₀ s) : Keeps s₀ (s.onBlock b f) := by
  unfold State.onBlock
  repeat' with_reducible first
    | assumption | exact Keeps.refl _ | apply State.onTab_keeps | intro _ | split
theorem State.checkHoles_keeps {s : State} {b : Nat} (hk : Keeps s₀ s) : Keeps s₀ (s.checkHoles b) := by
  unfold State.checkHoles
  repeat' with_reducible first
    | assumption | exact Keeps.refl _ | apply State.post_keeps | apply State.onBlock_keeps | apply Keeps.ite | intro _ | split
theorem State.cleanBlock_keeps {s : State} {b : Nat} (hk : Keeps s₀ s) : Keeps s₀ (s.cleanBlock b) := by
  unfold State.cleanBlock
  repeat' with_reducible first
    | assumption | exact Keeps.refl _ | apply State.onTab_keeps | intro _ | split

/-! ### Machine/Rules.lean -/

theorem bodyRuleBlock_keeps {m : Msg} {s : State} (hk : Keeps s₀ s) : Keeps s₀ (bodyRuleBlock m s).state := by
  unfold bodyRuleBlock
  repeat' with_reducible first
    | assumption | exact Keeps.refl _ | apply orDeny_keeps | apply done_keeps | apply State.onBlock_keeps | apply State.cleanBlock_keeps | intro _
    | split
theorem execRuleBlock_keeps {m : Msg} {s : State} (hk : Keeps s₀ s) : KeepsOut s₀ (execRuleBlock m s) :=
  commandRow_keeps hk (fun _ h => bodyRuleBlock_keeps h)
theorem bodyRuleLayout_keeps {m : Msg} {s : State} (hk : Keeps s₀ s) : Keeps s₀ (bodyRuleLayout m s).state := by
  unfold bodyRuleLayout
  repeat' with_reducible first
    | assumption | exact Keeps.refl _ | apply orDeny_keeps | apply done_keeps | apply State.stageCfg_keeps | intro _ | split
theorem execRuleLayout_keeps {m : Msg} {s : State} (hk : Keeps s₀ s) : KeepsOut s₀ (execRuleLayout m s) :=
  commandRow_keeps hk (fun _ h => bodyRuleLayout_keeps h)
theorem bodyRuleRange_keeps {m : Msg} {s : State} (hk : Keeps s₀ s) : Keeps s₀ (bodyRuleRange m s).state := by
  unfold bodyRuleRange
  repeat' with_reducible first
    | assumption | exact Keeps.refl _ | apply orDeny_keeps | apply done_keeps | apply State.stageCfg_keeps | intro _ | split
theorem execRuleRange_keeps {m : Msg} {s : State} (hk : Keeps s₀ s) : KeepsOut s₀ (execRuleRange m s) :=
  commandRow_keeps hk (fun _ h => bodyRuleRange_keeps h)
theorem bodyRulePreselect_keeps {m : Msg} {s : State} (hk : Keeps s₀ s) : Keeps s₀ (bodyRulePreselect m s).state := by
  unfold bodyRulePreselect
  repeat' with_reducible first
    | assumption | exact Keeps.refl _ | apply orDeny_keeps | apply done_keeps | apply State.stageCfg_keeps | intro _ | split
theorem execRulePreselect_keeps {m : Msg} {s : State} (hk : Keeps s₀ s) : KeepsOut s₀ (execRulePreselect m s) :=
  commandRow_keeps hk (fun _ h => bodyRulePreselect_keeps h)
theorem bodyRuleDefault_keeps {m : Msg} {s : State} (hk : Keeps s₀ s) : Keeps s₀ (bodyRuleDefault m s).state := by
  unfold bodyRuleDefault
  repeat' with_reducible first
    | assumption | exact Keeps.refl _ | apply orDeny_keeps | apply done_keeps | apply State.stageCfg_keeps | intro _ | split
theorem execRuleDefault_keeps {m : Msg} {s : State} (hk : Keeps s₀ s) : KeepsOut s₀ (execRuleDefault m s) :=
  commandRow_keeps hk (fun _ h => bodyRuleDefault_keeps h)
theorem State.addRule_keeps {s : State} {k b : Nat} {m : Msg} (hk : Keeps s₀ s) : Keeps s₀ (s.addRule k b m).state := by
  unfold State.addRule
  repeat' with_reducible first
    | assumption | exact Keeps.refl _ | apply done_keeps | apply State.checkHoles_keeps | apply State.setBatch_keeps | apply State.onTab_keeps
    | apply State.cleanBlock_keeps | apply State.onBlock_keeps | apply deny_keeps | intro _ | split
theorem bodyRuleAdd_keeps {m : Msg} {s : State} (hk : Keeps s₀ s) : Keeps s₀ (bodyRuleAdd m s).state := by
  unfold bodyRuleAdd
  repeat' with_reducible first
    | assumption | exact Keeps.refl _ | apply orDeny_keeps | apply hold_keeps | apply State.holdCommand_keeps | apply deny_keeps
    | apply State.addRule_keeps | intro _ | split
theorem execRuleAdd_keeps {m : Msg} {s : State} (hk : Keeps s₀ s) : KeepsOut s₀ (execRuleAdd m s) :=
  commandRow_keeps hk (fun _ h => bodyRuleAdd_keeps h)
theorem State.dropRule_keeps {s : State} {k b p : Nat} {r : Rule} (hk : Keeps s₀ s) : Keeps s₀ (s.dropRule k b p r) := by
  unfold State.dropRule
  repeat' with_reducible first
    | assumption | exact Keeps.refl _ | apply State.setBatch_keeps | apply State.onBlock_keeps | intro _ | split
theorem bodyRuleDelete_keeps {m : Msg} {s : State} (hk : Keeps s₀ s) : Keeps s₀ (bodyRuleDelete m s).state := by
  unfold bodyRuleDelete
  repeat' with_reducible first
    | assumption | exact Keeps.refl _ | apply orDeny_keeps | apply hold_keeps | apply State.holdCommand_keeps | apply done_keeps
    | apply State.dropRule_keeps | apply deny_keeps | intro _ | split
theorem execRuleDelete_keeps {m : Msg} {s : State} (hk : Keeps s₀ s) : KeepsOut s₀ (execRuleDelete m s) :=
  commandRow_keeps hk (fun _ h => bodyRuleDelete_keeps h)
theorem bodyRuleRead_keeps {m : Msg} {s : State} (hk : Keeps s₀ s) : Keeps s₀ (bodyRuleRead m s).state := by
  unfold bodyRuleRead
  repeat' with_reducible first
    | assumption | exact Keeps.refl _ | apply orDeny_keeps | apply doneWith_keeps | intro _ | split
theorem execRuleRead_keeps {m : Msg} {s : State} (hk : Keeps s₀ s) : KeepsOut s₀ (execRuleRead m s) :=
  commandRow_keeps hk (fun _ h => bodyRuleRead_keeps h)
theorem execRespaced_keeps {b : Nat} {s : State} (hk : Keeps s₀ s) : KeepsOut s₀ (execRespaced b s) := by
  unfold execRespaced
  repeat' with_reducible first
    | assumption | exact Keeps.refl _ | apply State.checkHoles_keeps | apply keeps_when | apply State.post_keeps | apply State.cleanBlock_keeps
    | apply State.onBlock_keeps | apply Keeps.ite | apply KeepsOut.unit | intro _ | split

/-! ### Machine/SweepOps.lean -/

theorem State.sweepFix_keeps {s : State} {t k kind key : Nat} (hk : Keeps s₀ s) : Keeps s₀ (s.sweepFix t k kind key) := by
  unfold State.sweepFix
  repeat' with_reducible first
    | assumption | exact Keeps.refl _ | apply State.bump_keeps | apply State.onTab_keeps | apply State.post_keeps | apply Keeps.ite | intro _ | split
theorem State.sweepStrays_keeps {s : State} {k : Nat} {i : Inst} {t : Nat} (hk : Keeps s₀ s) : Keeps s₀ (s.sweepStrays k i t) := by
  unfold State.sweepStrays
  repeat' with_reducible first
    | assumption | exact Keeps.refl _ | apply keeps_forEach | apply State.sweepFix_keeps | apply State.clearEnt_keeps | apply Keeps.ite | intro _
    | split
theorem State.sweepMissing_keeps {s : State} {k : Nat} {i : Inst} {t : Nat} (hk : Keeps s₀ s) : Keeps s₀ (s.sweepMissing k i t) := by
  unfold State.sweepMissing
  repeat' with_reducible first
    | assumption | exact Keeps.refl _ | apply State.insertEnt_keeps | apply State.sweepFix_keeps | apply keeps_foldl | apply Keeps.ite
    | apply Keeps.of_opt ‹_› | intro _ | split
theorem State.sweepDirect_keeps {s : State} {k : Nat} {i : Inst} {t : Nat} (hk : Keeps s₀ s) : Keeps s₀ (s.sweepDirect k i t) := by
  unfold State.sweepDirect
  repeat' with_reducible first
    | assumption | exact Keeps.refl _ | apply State.sweepFix_keeps | apply State.writeLoc_keeps | apply keeps_foldl | apply Keeps.ite | intro _
    | dsimp only | split
theorem State.sweepHalves_keeps {s : State} {k : Nat} {i : Inst} {t : Nat} (hk : Keeps s₀ s) : Keeps s₀ (s.sweepHalves k i t) := by
  unfold State.sweepHalves
  repeat' with_reducible first
    | assumption | exact Keeps.refl _ | apply keeps_forEach | apply State.sweepFix_keeps | apply State.writeLoc_keeps | apply Keeps.ite | intro _
    | split
theorem State.sweepFilter4_keeps {s : State} {k : Nat} {i : Inst} {t : Nat} (hk : Keeps s₀ s) : Keeps s₀ (s.sweepFilter4 k i t) := by
  unfold State.sweepFilter4
  repeat' with_reducible first
    | assumption | exact Keeps.refl _ | apply State.sweepFix_keeps | apply State.writeLoc_keeps | apply keeps_foldl | apply Keeps.ite | intro _
    | split
theorem State.sweepFilter6_keeps {s : State} {k : Nat} {i : Inst} {t : Nat} (hk : Keeps s₀ s) : Keeps s₀ (s.sweepFilter6 k i t) := by
  unfold State.sweepFilter6
  repeat' with_reducible first
    | assumption | exact Keeps.refl _ | apply State.sweepFix_keeps | apply State.writeLoc_keeps | apply keeps_forEach | apply keeps_foldl
    | apply Keeps.ite | intro _ | split
theorem State.sweepInst_keeps {s : State} {k : Nat} {i : Inst} {t : Nat} (hk : Keeps s₀ s) : Keeps s₀ (s.sweepInst k i t) := by
  unfold State.sweepInst
  repeat' with_reducible first
    | assumption | exact Keeps.refl _ | apply State.sweepHalves_keeps | apply State.sweepFilter4_keeps | apply State.sweepFilter6_keeps
    | apply State.sweepDirect_keeps | apply State.sweepMissing_keeps | apply State.sweepStrays_keeps | apply Keeps.ite | intro _ | split
theorem State.sweepArrays_keeps {s : State} {k t : Nat} (hk : Keeps s₀ s) : Keeps s₀ (s.sweepArrays k t) := by
  unfold State.sweepArrays
  repeat' with_reducible first
    | assumption | exact Keeps.refl _ | apply State.sweepFix_keeps | apply State.onTab_keeps | apply keeps_foldl | intro _ | split
theorem State.sweepStage_keeps {s : State} {k : Nat} (hk : Keeps s₀ s) : Keeps s₀ (s.sweepStage k) := by
  unfold State.sweepStage
  repeat' with_reducible first
    | assumption | exact Keeps.refl _ | apply State.onTab_keeps | apply keeps_forEach | apply State.sweepArrays_keeps | apply State.sweepInst_keeps
    | apply keeps_foldl | intro _ | split

/-! ### Machine/Versions.lean -/

theorem bodyTableCommit_keeps {m : Msg} {s : State} (hk : Keeps s₀ s) : Keeps s₀ (bodyTableCommit m s).state := by
  unfold bodyTableCommit
  repeat' with_reducible first
    | assumption | exact Keeps.refl _ | apply orDeny_keeps | apply State.onVer_keeps | intro _ | split
theorem execTableCommit_keeps {m : Msg} {s : State} (hk : Keeps s₀ s) : KeepsOut s₀ (execTableCommit m s) :=
  commandRow_keeps hk (fun _ h => bodyTableCommit_keeps h)
theorem execCommitArming_keeps {k : Nat} {failed : Bool} {s : State} (hk : Keeps s₀ s) : KeepsOut s₀ (execCommitArming k failed s) := by
  unfold execCommitArming
  repeat' with_reducible first
    | assumption | exact Keeps.refl _ | apply keeps_when | apply State.finish_keeps | apply State.onVer_keeps | apply Keeps.ite | apply KeepsOut.unit
    | intro _ | split
theorem execVersionFlip_keeps {k : Nat} {s : State} (hk : Keeps s₀ s) : KeepsOut s₀ (execVersionFlip k s) := by
  unfold execVersionFlip
  repeat' with_reducible first
    | assumption | exact Keeps.refl _ | apply keeps_when | apply State.finish_keeps | apply State.flip_keeps | apply KeepsOut.unit | intro _ | split
theorem bodyTableCommitCancel_keeps {m : Msg} {s : State} (hk : Keeps s₀ s) : Keeps s₀ (bodyTableCommitCancel m s).state := by
  unfold bodyTableCommitCancel
  repeat' with_reducible first
    | assumption | exact Keeps.refl _ | apply orDeny_keeps | apply done_keeps | apply State.cancelCommit_keeps | intro _ | split
theorem execTableCommitCancel_keeps {m : Msg} {s : State} (hk : Keeps s₀ s) : KeepsOut s₀ (execTableCommitCancel m s) :=
  commandRow_keeps hk (fun _ h => bodyTableCommitCancel_keeps h)
theorem bodyTableAbort_keeps {m : Msg} {s : State} (hk : Keeps s₀ s) : Keeps s₀ (bodyTableAbort m s).state := by
  unfold bodyTableAbort
  repeat' with_reducible first
    | assumption | exact Keeps.refl _ | apply orDeny_keeps | apply hold_keeps | apply State.holdCommand_keeps | apply done_keeps
    | apply State.abortBatch_keeps | intro _ | split
theorem execTableAbort_keeps {m : Msg} {s : State} (hk : Keeps s₀ s) : KeepsOut s₀ (execTableAbort m s) :=
  commandRow_keeps hk (fun _ h => bodyTableAbort_keeps h)
theorem bodyTableVstatus_keeps {m : Msg} {s : State} (hk : Keeps s₀ s) : Keeps s₀ (bodyTableVstatus m s).state := by
  unfold bodyTableVstatus
  repeat' with_reducible first
    | assumption | exact Keeps.refl _ | apply orDeny_keeps | apply doneWith_keeps | intro _ | split
theorem execTableVstatus_keeps {m : Msg} {s : State} (hk : Keeps s₀ s) : KeepsOut s₀ (execTableVstatus m s) :=
  commandRow_keeps hk (fun _ h => bodyTableVstatus_keeps h)
theorem State.beginSettle_keeps {s : State} {k : Nat} {expired : Bool} (hk : Keeps s₀ s) : Keeps s₀ (s.beginSettle k expired) := by
  unfold State.beginSettle
  repeat' with_reducible first
    | assumption | exact Keeps.refl _ | apply State.onVer_keeps | intro _ | split
theorem execDrainComplete_keeps {k : Nat} {s : State} (hk : Keeps s₀ s) : KeepsOut s₀ (execDrainComplete k s) := by
  unfold execDrainComplete
  repeat' with_reducible first
    | assumption | exact Keeps.refl _ | apply keeps_when | apply State.beginSettle_keeps | apply KeepsOut.unit | intro _ | split
theorem heldBody_keeps {opcode : Nat} {x1 : Msg} {x2 : State} (hk : Keeps s₀ x2) : Keeps s₀ (heldBody opcode x1 x2).state := by
  unfold heldBody
  repeat' with_reducible first
    | assumption | exact Keeps.refl _ | apply bodyTablePfxAdd_keeps | apply bodyTablePfxDelete_keeps | apply bodyTableEntryWrite_keeps
    | apply bodyTableEntryDelete_keeps | apply bodyTableAbort_keeps | apply bodyRuleAdd_keeps | apply bodyRuleDelete_keeps | intro _ | split
theorem State.releaseHeld_keeps {s : State} {k : Nat} (hk : Keeps s₀ s) : Keeps s₀ (s.releaseHeld k) := by
  unfold State.releaseHeld
  apply keeps_foldl _ hk
  intro u x
  exact respond_keeps (heldBody_keeps (State.onCmd_same (Keeps.refl u) (fun _ => rfl)))
theorem execVersionRetired_keeps {k : Nat} {s : State} (hk : Keeps s₀ s) : KeepsOut s₀ (execVersionRetired k s) := by
  unfold execVersionRetired
  repeat' with_reducible first
    | assumption | exact Keeps.refl _ | apply keeps_when | apply State.retire_keeps | apply State.releaseHeld_keeps | apply State.post_keeps
    | apply KeepsOut.unit | intro _ | split
theorem execSweepPass_keeps {k : Nat} {s : State} (hk : Keeps s₀ s) : KeepsOut s₀ (execSweepPass k s) := by
  unfold execSweepPass
  repeat' with_reducible first
    | assumption | exact Keeps.refl _ | apply keeps_when | apply State.sweepStage_keeps | apply KeepsOut.unit | intro _ | split

/-! ### Machine/TableEvents.lean -/

theorem execProvisionVerdict_keeps {t : Nat} {s : State} (hk : Keeps s₀ s) : KeepsOut s₀ (execProvisionVerdict t s) := by
  unfold execProvisionVerdict
  repeat' with_reducible first
    | assumption | exact Keeps.refl _ | apply State.onTab_keeps | apply State.judgeProvIn_keeps | apply keeps_foldl | apply KeepsOut.unit | intro _
    | dsimp only | split
theorem execStaticLearnedRemoval_keeps {k : Nat} {s : State} (hk : Keeps s₀ s) : KeepsOut s₀ (execStaticLearnedRemoval k s) := by
  unfold execStaticLearnedRemoval
  repeat' with_reducible first
    | assumption | exact Keeps.refl _ | apply State.onTab_keeps | apply State.putWord_keeps | apply keeps_foldl | apply KeepsOut.unit | intro _
    | split
theorem execMoveStorm_keeps {t k : Nat} {s : State} (hk : Keeps s₀ s) : KeepsOut s₀ (execMoveStorm t k s) := by
  unfold execMoveStorm
  repeat' with_reducible first
    | assumption | exact Keeps.refl _ | apply keeps_when | apply State.post_keeps | apply State.onTab_keeps | apply KeepsOut.unit | intro _ | split
theorem execAgeingVisit_keeps {t pad line word : Nat} {hit : Bool} {s : State} (hk : Keeps s₀ s) :
    KeepsOut s₀ (execAgeingVisit t pad line word hit s) := by
  unfold execAgeingVisit
  repeat' with_reducible first
    | assumption | exact Keeps.refl _ | apply keeps_when | apply State.putWord_keeps | apply State.bump_keeps | apply Keeps.ite | apply KeepsOut.unit
    | intro _ | split
theorem execPaddockScrub_keeps {t pad line word found : Nat} {s : State} (hk : Keeps s₀ s) :
    KeepsOut s₀ (execPaddockScrub t pad line word found s) := by
  unfold execPaddockScrub
  repeat' with_reducible first
    | assumption | exact Keeps.refl _ | apply State.report_keeps | apply State.bump_keeps | apply State.putWord_keeps | apply State.onTab_keeps
    | apply Keeps.ite | apply KeepsOut.unit | intro _ | split
theorem State.rewriteWord_keeps {s : State} {k : Nat} {i : Inst} {t : Nat} {w : Nat × Nat × Nat} (hk : Keeps s₀ s) :
    Keeps s₀ (s.rewriteWord k i t w) := by
  unfold State.rewriteWord
  repeat' with_reducible first
    | assumption | exact Keeps.refl _ | apply keeps_forEach | apply State.clearEnt_keeps | apply State.writeLoc_keeps | apply keeps_foldl
    | apply Keeps.ite | intro _ | split
theorem State.repairWord_keeps {s : State} {t pad line word : Nat} (hk : Keeps s₀ s) : Keeps s₀ (s.repairWord t pad line word) := by
  unfold State.repairWord
  repeat' with_reducible first
    | assumption | exact Keeps.refl _ | apply State.onTab_keeps | apply State.putWord_keeps | apply State.rewriteWord_keeps | apply Keeps.ite
    | intro _ | dsimp only | split
theorem execPoisonRepair_keeps {t pad line word : Nat} {ok : Bool} {s : State} (hk : Keeps s₀ s) :
    KeepsOut s₀ (execPoisonRepair t pad line word ok s) := by
  unfold execPoisonRepair
  repeat' with_reducible first
    | assumption | exact Keeps.refl _ | apply keeps_when | apply State.repairWord_keeps | apply State.onTab_keeps | apply State.post_keeps
    | apply Keeps.ite | apply KeepsOut.unit | intro _ | split

/-! ### Machine/LoadOps.lean -/

theorem State.keepChunk_keeps {s : State} {k kind : Nat} {a : Assembly} (hk : Keeps s₀ s) : Keeps s₀ (s.keepChunk k kind a) := by
  unfold State.keepChunk
  repeat' with_reducible first
    | assumption | exact Keeps.refl _ | apply State.onTab_keeps | intro _ | split
theorem loadChunk_keeps {s : State} {kind : Nat} {conds : State → Nat → List (Bool × Nat)} {m : Msg} (hk : Keeps s₀ s) :
    Keeps s₀ (loadChunk kind conds m s).state := by
  unfold loadChunk; dsimp only; split
  · exact hk
  · split
    · exact hk
    · apply orDeny_keeps hk; split
      · exact State.keepChunk_keeps hk
      · exact State.keepChunk_keeps hk
theorem State.popChecking_keeps {s : State} {k kind : Nat} (hk : Keeps s₀ s) : Keeps s₀ (s.popChecking k kind) := by
  unfold State.popChecking
  repeat' with_reducible first
    | assumption | exact Keeps.refl _ | apply State.onTab_keeps | intro _ | split

end Sys2Proof.Machine
end

