-- ==== Sys2Proof/Laws/KeepsPipe.lean ====
section
/-! SUPPORT. What each operation keeps (Laws/Keeps.lean):
parse graphs, patterns, edits, and a packet from its arrival to its departure. -/
namespace Sys2Proof.Machine
open Sys2Proof
set_option Elab.async false
set_option linter.unusedTactic false
set_option linter.unreachableTactic false

variable {s₀ : State}

/-! ### Machine/ParseOps.lean -/

theorem State.writeNodes_keeps {s : State} {words : SMap (List Nat)} (hk : Keeps s₀ s) : Keeps s₀ (s.writeNodes words) := by
  unfold State.writeNodes
  repeat' with_reducible first
    | assumption | exact Keeps.refl _ | apply State.onTab_keeps | intro _ | split

/-! ### Machine/Parse.lean -/

theorem bodyParseLoad_keeps {m : Msg} {s : State} (hk : Keeps s₀ s) : Keeps s₀ (bodyParseLoad m s).state := by
  unfold bodyParseLoad
  repeat' with_reducible first
    | assumption | exact Keeps.refl _ | apply loadChunk_keeps | intro _ | split
theorem execParseLoad_keeps {m : Msg} {s : State} (hk : Keeps s₀ s) : KeepsOut s₀ (execParseLoad m s) :=
  commandRow_keeps hk (fun _ h => bodyParseLoad_keeps h)
theorem State.rejectGraph_keeps {s : State} {k st node : Nat} (hk : Keeps s₀ s) : Keeps s₀ (s.rejectGraph k st node) := by
  unfold State.rejectGraph
  repeat' with_reducible first
    | assumption | exact Keeps.refl _ | apply State.finish_keeps | intro _ | split
theorem State.stageGraph_keeps {s : State} {k : Nat} {img : List Byte} (hk : Keeps s₀ s) : Keeps s₀ (s.stageGraph k img) := by
  unfold State.stageGraph
  repeat' with_reducible first
    | assumption | exact Keeps.refl _ | apply State.finish_keeps | apply State.setBatch_keeps | apply State.writeNodes_keeps
    | apply State.onGraphs_keeps | intro _ | split
theorem execGraphStaged_keeps {k : Nat} {written : Bool} {s : State} (hk : Keeps s₀ s) : KeepsOut s₀ (execGraphStaged k written s) := by
  unfold execGraphStaged
  repeat' with_reducible first
    | assumption | exact Keeps.refl _ | apply State.popChecking_keeps | apply State.rejectGraph_keeps | apply State.onGraphs_keeps
    | apply State.stageGraph_keeps | apply Keeps.ite | apply KeepsOut.unit | intro _ | dsimp only | split
theorem bodyParseDiscard_keeps {m : Msg} {s : State} (hk : Keeps s₀ s) : Keeps s₀ (bodyParseDiscard m s).state := by
  unfold bodyParseDiscard
  repeat' with_reducible first
    | assumption | exact Keeps.refl _ | apply orDeny_keeps | apply done_keeps | apply State.onGraphs_keeps | intro _ | split
theorem execParseDiscard_keeps {m : Msg} {s : State} (hk : Keeps s₀ s) : KeepsOut s₀ (execParseDiscard m s) :=
  commandRow_keeps hk (fun _ h => bodyParseDiscard_keeps h)
theorem bodyParseRead_keeps {m : Msg} {s : State} (hk : Keeps s₀ s) : Keeps s₀ (bodyParseRead m s).state := by
  unfold bodyParseRead
  repeat' with_reducible first
    | assumption | exact Keeps.refl _ | apply deny_keeps | apply orDeny_keeps | apply doneWith_keeps | intro _ | dsimp only | split
theorem execParseRead_keeps {m : Msg} {s : State} (hk : Keeps s₀ s) : KeepsOut s₀ (execParseRead m s) :=
  commandRow_keeps hk (fun _ h => bodyParseRead_keeps h)
theorem bodyParseStatus_keeps {m : Msg} {s : State} (hk : Keeps s₀ s) : Keeps s₀ (bodyParseStatus m s).state := by
  unfold bodyParseStatus
  repeat' with_reducible first
    | assumption | exact Keeps.refl _ | apply orDeny_keeps | apply doneWith_keeps | intro _ | split
theorem execParseStatus_keeps {m : Msg} {s : State} (hk : Keeps s₀ s) : KeepsOut s₀ (execParseStatus m s) :=
  commandRow_keeps hk (fun _ h => bodyParseStatus_keeps h)
theorem execGraphNodeRepair_keeps {t w : Nat} {s : State} (hk : Keeps s₀ s) : KeepsOut s₀ (execGraphNodeRepair t w s) := by
  unfold execGraphNodeRepair
  repeat' with_reducible first
    | assumption | exact Keeps.refl _ | apply keeps_when | apply State.onTab_keeps | apply State.post_keeps | apply KeepsOut.unit | intro _
    | dsimp only | split

/-! ### Machine/Pattern.lean -/

theorem bodyPatternLoad_keeps {m : Msg} {s : State} (hk : Keeps s₀ s) : Keeps s₀ (bodyPatternLoad m s).state := by
  unfold bodyPatternLoad
  repeat' with_reducible first
    | assumption | exact Keeps.refl _ | apply loadChunk_keeps | intro _ | split
theorem execPatternLoad_keeps {m : Msg} {s : State} (hk : Keeps s₀ s) : KeepsOut s₀ (execPatternLoad m s) :=
  commandRow_keeps hk (fun _ h => bodyPatternLoad_keeps h)
theorem State.rejectSet_keeps {s : State} {k st : Nat} (hk : Keeps s₀ s) : Keeps s₀ (s.rejectSet k st) := by
  unfold State.rejectSet
  repeat' with_reducible first
    | assumption | exact Keeps.refl _ | apply State.finish_keeps | intro _ | split
theorem State.stageSet_keeps {s : State} {k : Nat} {img : List Byte} (hk : Keeps s₀ s) : Keeps s₀ (s.stageSet k img) := by
  unfold State.stageSet
  repeat' with_reducible first
    | assumption | exact Keeps.refl _ | apply State.finish_keeps | apply State.setBatch_keeps | apply State.onSets_keeps | intro _ | split
theorem execPatternStaged_keeps {k : Nat} {written : Bool} {s : State} (hk : Keeps s₀ s) : KeepsOut s₀ (execPatternStaged k written s) := by
  unfold execPatternStaged
  repeat' with_reducible first
    | assumption | exact Keeps.refl _ | apply State.popChecking_keeps | apply State.rejectSet_keeps | apply State.onSets_keeps
    | apply State.stageSet_keeps | apply Keeps.ite | apply KeepsOut.unit | intro _ | dsimp only | split
theorem bodyPatternDiscard_keeps {m : Msg} {s : State} (hk : Keeps s₀ s) : Keeps s₀ (bodyPatternDiscard m s).state := by
  unfold bodyPatternDiscard
  repeat' with_reducible first
    | assumption | exact Keeps.refl _ | apply orDeny_keeps | apply done_keeps | apply State.onSets_keeps | intro _ | split
theorem execPatternDiscard_keeps {m : Msg} {s : State} (hk : Keeps s₀ s) : KeepsOut s₀ (execPatternDiscard m s) :=
  commandRow_keeps hk (fun _ h => bodyPatternDiscard_keeps h)
theorem bodyPatternRead_keeps {m : Msg} {s : State} (hk : Keeps s₀ s) : Keeps s₀ (bodyPatternRead m s).state := by
  unfold bodyPatternRead
  repeat' with_reducible first
    | assumption | exact Keeps.refl _ | apply deny_keeps | apply orDeny_keeps | apply doneWith_keeps | intro _ | dsimp only | split
theorem execPatternRead_keeps {m : Msg} {s : State} (hk : Keeps s₀ s) : KeepsOut s₀ (execPatternRead m s) :=
  commandRow_keeps hk (fun _ h => bodyPatternRead_keeps h)
theorem bodyPatternStatus_keeps {m : Msg} {s : State} (hk : Keeps s₀ s) : Keeps s₀ (bodyPatternStatus m s).state := by
  unfold bodyPatternStatus
  repeat' with_reducible first
    | assumption | exact Keeps.refl _ | apply orDeny_keeps | apply doneWith_keeps | intro _ | split
theorem execPatternStatus_keeps {m : Msg} {s : State} (hk : Keeps s₀ s) : KeepsOut s₀ (execPatternStatus m s) :=
  commandRow_keeps hk (fun _ h => bodyPatternStatus_keeps h)
theorem bodyPatternBounds_keeps {m : Msg} {s : State} (hk : Keeps s₀ s) : Keeps s₀ (bodyPatternBounds m s).state := by
  unfold bodyPatternBounds
  repeat' with_reducible first
    | assumption | exact Keeps.refl _ | apply orDeny_keeps | apply done_keeps | apply State.retune_keeps | apply State.onTab_keeps | intro _ | split
theorem execPatternBounds_keeps {m : Msg} {s : State} (hk : Keeps s₀ s) : KeepsOut s₀ (execPatternBounds m s) :=
  commandRow_keeps hk (fun _ h => bodyPatternBounds_keeps h)
theorem execThrottleReading_keeps {die : Nat} {tj : Int} {s : State} (hk : Keeps s₀ s) : KeepsOut s₀ (execThrottleReading die tj s) := by
  unfold execThrottleReading
  repeat' with_reducible first
    | assumption | exact Keeps.refl _ | apply State.pinThrottle_keeps | apply State.retuneDie_keeps | apply State.onPower_keeps
    | apply State.onTab_keeps | apply KeepsOut.unit | intro _ | split
theorem execPatternRepair_keeps {t e : Nat} {s : State} (hk : Keeps s₀ s) : KeepsOut s₀ (execPatternRepair t e s) := by
  unfold execPatternRepair
  repeat' with_reducible first
    | assumption | exact Keeps.refl _ | apply keeps_when | apply State.onTab_keeps | apply State.postAll_keeps | apply KeepsOut.unit | intro _
    | split
theorem bodyPatternQuery_keeps {m : Msg} {s : State} (hk : Keeps s₀ s) : Keeps s₀ (bodyPatternQuery m s).state := by
  unfold bodyPatternQuery
  repeat' with_reducible first
    | assumption | exact Keeps.refl _ | apply orDeny_keeps | apply State.allocBuffer_keeps | apply deny_keeps | apply accept_keeps
    | apply State.addSurvey_keeps | apply State.retainBuffer_keeps | apply Keeps.of_snd ‹_› | intro _ | dsimp only | split
theorem execPatternQuery_keeps {m : Msg} {s : State} (hk : Keeps s₀ s) : KeepsOut s₀ (execPatternQuery m s) :=
  commandRow_keeps hk (fun _ h => bodyPatternQuery_keeps h)
theorem State.surveyResult_keeps {s : State} {j : Survey} {status : Nat} {rec_ : List Byte} (hk : Keeps s₀ s) :
    Keeps s₀ (s.surveyResult j status rec_) := by
  unfold State.surveyResult
  repeat' with_reducible first
    | assumption | exact Keeps.refl _ | apply State.finishFor_keeps | intro _ | split
theorem State.endSurvey_keeps {s : State} {j : Survey} {rec_ : List Byte} (hk : Keeps s₀ s) : Keeps s₀ (s.endSurvey j rec_) := by
  unfold State.endSurvey
  repeat' with_reducible first
    | assumption | exact Keeps.refl _ | apply State.onTab_keeps | intro _ | split
theorem execSurveyJob_keeps {handle : Nat} {s : State} (hk : Keeps s₀ s) : KeepsOut s₀ (execSurveyJob handle s) := by
  unfold execSurveyJob
  repeat' with_reducible first
    | assumption | exact Keeps.refl _ | apply State.bump_keeps | apply State.bumpN_keeps | apply State.endSurvey_keeps
    | apply State.surveyResult_keeps | apply Keeps.ite | apply KeepsOut.next | intro _ | dsimp only | split
theorem execSurveyWaitExpiry_keeps {handle : Nat} {s : State} (hk : Keeps s₀ s) : KeepsOut s₀ (execSurveyWaitExpiry handle s) := by
  unfold execSurveyWaitExpiry
  repeat' with_reducible first
    | assumption | exact Keeps.refl _ | apply State.surveyResult_keeps | apply State.bump_keeps | apply State.endSurvey_keeps | apply Keeps.ite
    | apply KeepsOut.next | intro _ | dsimp only | split
theorem bodyPatternStep_keeps {m : Msg} {s : State} (hk : Keeps s₀ s) : Keeps s₀ (bodyPatternStep m s).state := by
  unfold bodyPatternStep
  repeat' with_reducible first
    | assumption | exact Keeps.refl _ | apply deny_keeps | apply orDeny_keeps | apply doneWith_keeps | intro _ | dsimp only | split
theorem execPatternStep_keeps {m : Msg} {s : State} (hk : Keeps s₀ s) : KeepsOut s₀ (execPatternStep m s) :=
  commandRow_keeps hk (fun _ h => bodyPatternStep_keeps h)

/-! ### Machine/EditOps.lean -/

theorem State.putUword_keeps {s : State} {bank a v : Nat} (hk : Keeps s₀ s) : Keeps s₀ (s.putUword bank a v) := by
  unfold State.putUword
  repeat' with_reducible first
    | assumption | exact Keeps.refl _ | apply State.onTab_keeps | intro _ | split

/-! ### Machine/Edit.lean -/

theorem bodyEditLoad_keeps {m : Msg} {s : State} (hk : Keeps s₀ s) : Keeps s₀ (bodyEditLoad m s).state := by
  unfold bodyEditLoad
  repeat' with_reducible first
    | assumption | exact Keeps.refl _ | apply loadChunk_keeps | intro _ | split
theorem execEditLoad_keeps {m : Msg} {s : State} (hk : Keeps s₀ s) : KeepsOut s₀ (execEditLoad m s) :=
  commandRow_keeps hk (fun _ h => bodyEditLoad_keeps h)
theorem State.writeImage_keeps {s : State} {k bank : Nat} {img : List Byte} (hk : Keeps s₀ s) : Keeps s₀ (s.writeImage k bank img) := by
  unfold State.writeImage
  repeat' with_reducible first
    | assumption | exact Keeps.refl _ | apply State.onEdit_keeps | apply State.putUword_keeps | apply keeps_foldl | intro _ | split
theorem State.rejectEdit_keeps {s : State} {k st word : Nat} (hk : Keeps s₀ s) : Keeps s₀ (s.rejectEdit k st word) := by
  unfold State.rejectEdit
  repeat' with_reducible first
    | assumption | exact Keeps.refl _ | apply State.finish_keeps | intro _ | split
theorem State.stageEdit_keeps {s : State} {k bank : Nat} {img : List Byte} (hk : Keeps s₀ s) : Keeps s₀ (s.stageEdit k bank img) := by
  unfold State.stageEdit
  repeat' with_reducible first
    | assumption | exact Keeps.refl _ | apply State.putUword_keeps | apply State.copyBank_keeps | apply State.finish_keeps
    | apply State.setBatch_keeps | apply State.onEdit_keeps | apply State.writeImage_keeps | apply keeps_foldl | apply Keeps.ite | intro _ | split
theorem execEditStaged_keeps {k : Nat} {written : Bool} {s : State} (hk : Keeps s₀ s) : KeepsOut s₀ (execEditStaged k written s) := by
  unfold execEditStaged
  repeat' with_reducible first
    | assumption | exact Keeps.refl _ | apply State.popChecking_keeps | apply State.rejectEdit_keeps | apply State.stageEdit_keeps | apply Keeps.ite
    | apply KeepsOut.unit | intro _ | dsimp only | split
theorem bodyEditSwap_keeps {m : Msg} {s : State} (hk : Keeps s₀ s) : Keeps s₀ (bodyEditSwap m s).state := by
  unfold bodyEditSwap
  repeat' with_reducible first
    | assumption | exact Keeps.refl _ | apply orDeny_keeps | apply done_keeps | apply State.setBatch_keeps | apply State.onEdit_keeps | intro _
    | split
theorem execEditSwap_keeps {m : Msg} {s : State} (hk : Keeps s₀ s) : KeepsOut s₀ (execEditSwap m s) :=
  commandRow_keeps hk (fun _ h => bodyEditSwap_keeps h)
theorem bodyEditRead_keeps {m : Msg} {s : State} (hk : Keeps s₀ s) : Keeps s₀ (bodyEditRead m s).state := by
  unfold bodyEditRead
  repeat' with_reducible first
    | assumption | exact Keeps.refl _ | apply orDeny_keeps | apply doneWith_keeps | intro _ | split
theorem execEditRead_keeps {m : Msg} {s : State} (hk : Keeps s₀ s) : KeepsOut s₀ (execEditRead m s) :=
  commandRow_keeps hk (fun _ h => bodyEditRead_keeps h)
theorem bodyEditStatus_keeps {m : Msg} {s : State} (hk : Keeps s₀ s) : Keeps s₀ (bodyEditStatus m s).state := by
  unfold bodyEditStatus
  repeat' with_reducible first
    | assumption | exact Keeps.refl _ | apply orDeny_keeps | apply doneWith_keeps | intro _ | split
theorem execEditStatus_keeps {m : Msg} {s : State} (hk : Keeps s₀ s) : KeepsOut s₀ (execEditStatus m s) :=
  commandRow_keeps hk (fun _ h => bodyEditStatus_keeps h)
theorem bodyEditRegion_keeps {m : Msg} {s : State} (hk : Keeps s₀ s) : Keeps s₀ (bodyEditRegion m s).state := by
  unfold bodyEditRegion
  repeat' with_reducible first
    | assumption | exact Keeps.refl _ | apply orDeny_keeps | apply done_keeps | apply State.onEdit_keeps | intro _ | split
theorem execEditRegion_keeps {m : Msg} {s : State} (hk : Keeps s₀ s) : KeepsOut s₀ (execEditRegion m s) :=
  commandRow_keeps hk (fun _ h => bodyEditRegion_keeps h)
theorem execEditRepair_keeps {t bank w : Nat} {s : State} (hk : Keeps s₀ s) : KeepsOut s₀ (execEditRepair t bank w s) := by
  unfold execEditRepair
  repeat' with_reducible first
    | assumption | exact Keeps.refl _ | apply keeps_when | apply State.postAll_keeps | apply State.onTab_keeps | apply KeepsOut.unit | intro _
    | split

/-! ### Machine/AdmitOps.lean -/

theorem State.injFate_keeps {s : State} {id : Nat} {p : Pkt} {fate : Nat} (hk : Keeps s₀ s) : Keeps s₀ (s.injFate id p fate) := by
  unfold State.injFate
  repeat' with_reducible first
    | assumption | exact Keeps.refl _ | apply State.onPkt_keeps | apply State.setItem_keeps | intro _ | split
theorem State.onSource_keeps {s : State} {t src : Nat} {f : Source → Source} (hk : Keeps s₀ s) : Keeps s₀ (s.onSource t src f) := by
  unfold State.onSource
  repeat' with_reducible first
    | assumption | exact Keeps.refl _ | apply State.onSw_keeps | intro _ | split
theorem State.returnNumber_keeps {s : State} {t src seq : Nat} (hk : Keeps s₀ s) : Keeps s₀ (s.returnNumber t src seq) := by
  unfold State.returnNumber
  repeat' with_reducible first
    | assumption | exact Keeps.refl _ | apply State.onSource_keeps | intro _ | split
theorem State.takeBack_keeps {s : State} {r : GrantBack} (hk : Keeps s₀ s) : Keeps s₀ (s.takeBack r) := by
  unfold State.takeBack
  repeat' with_reducible first
    | assumption | exact Keeps.refl _ | apply State.onQueue_keeps | apply State.onEg_keeps | apply State.bump_keeps | apply State.settleQueue_keeps
    | apply Keeps.ite | intro _ | split
theorem State.sendBack_keeps {s : State} {r : GrantBack} (hk : Keeps s₀ s) : Keeps s₀ (s.sendBack r) := by
  unfold State.sendBack
  repeat' with_reducible first
    | assumption | exact Keeps.refl _ | apply State.onSw_keeps | intro _ | split
theorem State.cancelSpec_keeps {s : State} {id : Nat} {p : Pkt} {cause : Nat} (hk : Keeps s₀ s) : Keeps s₀ (s.cancelSpec id p cause) := by
  unfold State.cancelSpec
  repeat' with_reducible first
    | assumption | exact Keeps.refl _ | apply State.onPkt_keeps | apply State.pipeSlot_keeps | apply State.bump_keeps | apply State.sendBack_keeps
    | apply Keeps.ite | intro _ | split
theorem State.pipeDrop_keeps {s : State} {id : Nat} {p : Pkt} (hk : Keeps s₀ s) : Keeps s₀ (s.pipeDrop id p) := by
  unfold State.pipeDrop
  repeat' with_reducible first
    | assumption | exact Keeps.refl _ | apply State.bump_keeps | apply State.pipeSlot_keeps | apply State.settleQueue_keeps
    | apply State.erasePkt_keeps | apply State.injFate_keeps | apply State.returnNumber_keeps | apply Keeps.ite | intro _ | split
theorem State.sendXoff_keeps {s : State} {l c : Nat} (hk : Keeps s₀ s) : Keeps s₀ (s.sendXoff l c) := by
  unfold State.sendXoff
  repeat' with_reducible first
    | assumption | exact Keeps.refl _ | apply State.onSw_keeps | apply State.stat_keeps | apply Keeps.ite | intro _ | split
theorem State.thresholdLoop_keeps {s : State} {t k c : Nat} (hk : Keeps s₀ s) : Keeps s₀ (s.thresholdLoop t k c) := by
  unfold State.thresholdLoop
  repeat' with_reducible first
    | assumption | exact Keeps.refl _ | apply State.onSw_keeps | apply State.post_keeps | apply Keeps.ite | intro _ | split
theorem State.refuse_keeps {s : State} {id : Nat} {p : Pkt} {fate : Nat} (hk : Keeps s₀ s) : Keeps s₀ (s.refuse id p fate) := by
  unfold State.refuse
  repeat' with_reducible first
    | assumption | exact Keeps.refl _ | apply State.takeBack_keeps | apply State.settleQueue_keeps | apply State.erasePkt_keeps
    | apply State.injFate_keeps | apply Keeps.ite | intro _ | split
theorem State.countR279_keeps {s : State} {p : Pkt} {e : Nat} (hk : Keeps s₀ s) : Keeps s₀ (s.countR279 p e) := by
  unfold State.countR279
  repeat' with_reducible first
    | assumption | exact Keeps.refl _ | apply State.bump_keeps | apply Keeps.ite | intro _ | split
theorem State.countRefused_keeps {s : State} {p : Pkt} {cause : Nat} (hk : Keeps s₀ s) : Keeps s₀ (s.countRefused p cause) := by
  unfold State.countRefused
  repeat' with_reducible first
    | assumption | exact Keeps.refl _ | apply State.bump_keeps | apply State.onset_keeps | apply State.post_keeps | apply Keeps.ite | intro _ | split
theorem State.enqueue_keeps {s : State} {id : Nat} {p : Pkt} (hk : Keeps s₀ s) : Keeps s₀ (s.enqueue id p) := by
  unfold State.enqueue
  repeat' with_reducible first
    | assumption | exact Keeps.refl _ | apply keeps_forEach | apply State.onVoq_keeps | apply State.onPkt_keeps | apply State.arr_keeps
    | apply Keeps.ite | intro _ | split
theorem State.place_keeps {s : State} {id : Nat} {p : Pkt} {x : Charge} (hk : Keeps s₀ s) : Keeps s₀ (s.place id p x) := by
  unfold State.place
  repeat' with_reducible first
    | assumption | exact Keeps.refl _ | apply State.onPkt_keeps | apply State.sendXoff_keeps | apply State.enqueue_keeps | apply State.injFate_keeps
    | apply Keeps.ite | intro _ | split
theorem State.spillFrame_keeps {s : State} {id : Nat} {p : Pkt} (hk : Keeps s₀ s) : Keeps s₀ (s.spillFrame id p) := by
  unfold State.spillFrame
  repeat' with_reducible first
    | assumption | exact Keeps.refl _ | apply State.onSw_keeps | apply State.onset_keeps | apply State.bump_keeps | apply State.spillWrite_keeps
    | apply State.post_keeps | apply State.onPkt_keeps | apply State.onVoq_keeps | apply State.injFate_keeps | apply State.refuse_keeps
    | apply Keeps.ite | intro _ | split
theorem State.admitPkt_keeps {s : State} {id : Nat} (hk : Keeps s₀ s) : Keeps s₀ (s.admitPkt id) := by
  unfold State.admitPkt
  repeat' with_reducible first
    | assumption | exact Keeps.refl _ | apply State.erasePkt_keeps | apply State.injFate_keeps | apply State.refuse_keeps
    | apply State.countR279_keeps | apply State.stat_keeps | apply State.spillFrame_keeps | apply State.thresholdLoop_keeps | apply State.place_keeps
    | apply State.countRefused_keeps | apply Keeps.ite | intro _ | dsimp only | split

/-! ### Machine/MacOps.lean -/

theorem State.stampRx_keeps {s : State} {l : Nat} {f : List Byte} (hk : Keeps s₀ s) : Keeps s₀ (s.stampRx l f) := by
  unfold State.stampRx
  repeat' with_reducible first
    | assumption | exact Keeps.refl _ | apply State.stamp_keeps | apply Keeps.ite | intro _ | split

/-! ### Machine/Arrive.lean -/

theorem State.countRx_keeps {s : State} {l : Nat} {wire frame : List Byte} (hk : Keeps s₀ s) : Keeps s₀ (s.countRx l wire frame) := by
  unfold State.countRx
  repeat' with_reducible first
    | assumption | exact Keeps.refl _ | apply State.stat_keeps | apply State.statN_keeps | intro _ | split
theorem State.peerTag_keeps {s : State} {l tag : Nat} (hk : Keeps s₀ s) : Keeps s₀ (s.peerTag l tag) := by
  unfold State.peerTag
  repeat' with_reducible first
    | assumption | exact Keeps.refl _ | apply State.onLport_keeps | intro _ | split
theorem State.fifoXoff_keeps {s : State} {l : Nat} (hk : Keeps s₀ s) : Keeps s₀ (s.fifoXoff l) := by
  unfold State.fifoXoff
  repeat' with_reducible first
    | assumption | exact Keeps.refl _ | apply State.onSw_keeps | apply keeps_forEach | apply State.sendXoff_keeps | apply State.stat_keeps
    | apply Keeps.ite | intro _ | split
theorem State.takeFrame_keeps {s : State} {l : Nat} {wire frame : List Byte} {peer : Option Nat} {bad full high : Bool} (hk : Keeps s₀ s) :
    Keeps s₀ (s.takeFrame l wire frame peer bad full high) := by
  unfold State.takeFrame
  repeat' with_reducible first
    | assumption | exact Keeps.refl _ | apply State.stat_keeps | apply State.countRx_keeps | apply State.stampRx_keeps | apply State.peerTag_keeps
    | apply State.bump_keeps | apply State.addPkt_keeps | apply State.fifoXoff_keeps | apply Keeps.ite | intro _ | split
theorem execFrameReceive_keeps {l : Nat} {wire : List Byte} {rxErr full high : Bool} {s : State} (hk : Keeps s₀ s) :
    KeepsOut s₀ (execFrameReceive l wire rxErr full high s) := by
  unfold execFrameReceive
  repeat' with_reducible first
    | assumption | exact Keeps.refl _ | apply State.stat_keeps | apply State.takeFrame_keeps | apply Keeps.ite | apply KeepsOut.unit | intro _
    | split
theorem State.placeSource_keeps {t held src : Nat} : ∀ {n : Nat} {s : State}, Keeps s₀ s → Keeps s₀ (s.placeSource t held src n)
  | 0, _, hk => hk
  | n + 1, s, hk => by
    unfold State.placeSource; split
    · dsimp only; apply State.placeSource_keeps
      exact State.bump_keeps (State.onPkt_keeps (State.onSw_keeps (State.onSource_keeps hk)))
    · exact hk
theorem State.settleFifo_keeps {s : State} {t : Nat} (hk : Keeps s₀ s) : Keeps s₀ (s.settleFifo t) := by
  unfold State.settleFifo
  repeat' with_reducible first
    | assumption | exact Keeps.refl _ | apply State.onSw_keeps | intro _ | split
theorem execPipePlacement_keeps {t held : Nat} {s : State} (hk : Keeps s₀ s) : KeepsOut s₀ (execPipePlacement t held s) := by
  unfold execPipePlacement
  repeat' with_reducible first
    | assumption | exact Keeps.refl _ | apply State.settleFifo_keeps | apply keeps_forEach | apply State.placeSource_keeps | apply KeepsOut.unit
    | intro _ | split
theorem State.nodeDamage_keeps {s : State} {p : Pkt} {g : Graph} {n : Nat} (hk : Keeps s₀ s) : Keeps s₀ (s.nodeDamage p g n) := by
  unfold State.nodeDamage
  repeat' with_reducible first
    | assumption | exact Keeps.refl _ | apply State.report_keeps | apply State.onTab_keeps | intro _ | split
theorem State.nodeCorr_keeps {p : Pkt} : ∀ {n : Nat} {s : State}, Keeps s₀ s → Keeps s₀ (s.nodeCorr p n)
  | 0, _, hk => hk
  | n + 1, s, hk => by
    unfold State.nodeCorr; apply State.nodeCorr_keeps; exact State.report_keeps (State.bump_keeps hk)
theorem State.parsed_keeps {s : State} {id : Nat} {p : Pkt} {w : Walk} (hk : Keeps s₀ s) : Keeps s₀ (s.parsed id p w) := by
  unfold State.parsed
  repeat' with_reducible first
    | assumption | exact Keeps.refl _ | apply State.bump_keeps | apply State.onPkt_keeps | apply State.delayPkt_keeps | apply State.bumpN_keeps
    | apply Keeps.ite | intro _ | split
theorem execParseWalk_keeps {id corr ue : Nat} {s : State} (hk : Keeps s₀ s) : KeepsOut s₀ (execParseWalk id corr ue s) := by
  unfold execParseWalk
  repeat' with_reducible first
    | assumption | exact Keeps.refl _ | apply State.onPkt_keeps | apply State.parsed_keeps | apply State.nodeCorr_keeps
    | apply State.nodeDamage_keeps | apply Keeps.ite | apply KeepsOut.next | intro _ | dsimp only | split
theorem execPaddockRead_keeps {id n : Nat} {s : State} (hk : Keeps s₀ s) : KeepsOut s₀ (execPaddockRead id n s) := by
  unfold execPaddockRead
  repeat' with_reducible first
    | assumption | exact Keeps.refl _ | apply State.delayPkt_keeps | apply State.bumpN_keeps | apply Keeps.ite | apply KeepsOut.next | intro _
    | split
theorem execXoffRefresh_keeps {l c : Nat} {s : State} (hk : Keeps s₀ s) : KeepsOut s₀ (execXoffRefresh l c s) := by
  unfold execXoffRefresh
  repeat' with_reducible first
    | assumption | exact Keeps.refl _ | apply keeps_when | apply State.onSw_keeps | apply State.stat_keeps | apply KeepsOut.unit | intro _ | split
theorem execXonSend_keeps {l c : Nat} {s : State} (hk : Keeps s₀ s) : KeepsOut s₀ (execXonSend l c s) := by
  unfold execXonSend
  repeat' with_reducible first
    | assumption | exact Keeps.refl _ | apply keeps_when | apply State.onSw_keeps | apply State.stat_keeps | apply Keeps.ite | apply KeepsOut.unit
    | intro _ | split
theorem State.setPause_keeps {s : State} {l c : Nat} {p : Pause} (hk : Keeps s₀ s) : Keeps s₀ (s.setPause l c p) := by
  unfold State.setPause
  repeat' with_reducible first
    | assumption | exact Keeps.refl _ | apply State.onSw_keeps | intro _ | split
theorem State.endPause_keeps {s : State} {l c : Nat} (hk : Keeps s₀ s) : Keeps s₀ (s.endPause l c) := by
  unfold State.endPause
  repeat' with_reducible first
    | assumption | exact Keeps.refl _ | apply State.onSw_keeps | apply State.post_keeps | apply Keeps.ite | intro _ | dsimp only | split
theorem State.pauseClass_keeps {s : State} {l c quanta : Nat} (hk : Keeps s₀ s) : Keeps s₀ (s.pauseClass l c quanta) := by
  unfold State.pauseClass
  repeat' with_reducible first
    | assumption | exact Keeps.refl _ | apply State.endPause_keeps | apply State.setPause_keeps | apply Keeps.ite | intro _ | split
theorem execPauseFrameReceive_keeps {l : Nat} {pfc : Bool} {enabled : Nat} {quanta : List Nat} {s : State} (hk : Keeps s₀ s) :
    KeepsOut s₀ (execPauseFrameReceive l pfc enabled quanta s) := by
  unfold execPauseFrameReceive
  repeat' with_reducible first
    | assumption | exact Keeps.refl _ | apply keeps_forEach | apply State.stat_keeps | apply State.pauseClass_keeps | apply Keeps.ite
    | apply KeepsOut.unit | intro _ | split
theorem execPauseExpiry_keeps {l c : Nat} {s : State} (hk : Keeps s₀ s) : KeepsOut s₀ (execPauseExpiry l c s) := by
  unfold execPauseExpiry
  repeat' with_reducible first
    | assumption | exact Keeps.refl _ | apply keeps_when | apply State.endPause_keeps | apply KeepsOut.unit | intro _ | split
theorem State.watchdogPkt_keeps {s : State} {id : Nat} (hk : Keeps s₀ s) : Keeps s₀ (s.watchdogPkt id) := by
  unfold State.watchdogPkt
  repeat' with_reducible first
    | assumption | exact Keeps.refl _ | apply State.discard_keeps | apply State.arr_keeps | apply State.onPkt_keeps | intro _ | split
theorem execPauseWatchdog_keeps {l c : Nat} {s : State} (hk : Keeps s₀ s) : KeepsOut s₀ (execPauseWatchdog l c s) := by
  unfold execPauseWatchdog
  repeat' with_reducible first
    | assumption | exact Keeps.refl _ | apply keeps_when | apply State.post_keeps | apply keeps_forEach | apply State.watchdogPkt_keeps
    | apply State.setPause_keeps | apply KeepsOut.unit | intro _ | split

/-! ### Machine/PipeOps.lean -/

theorem State.countIn_keeps {s : State} {t k v idx len : Nat} (hk : Keeps s₀ s) : Keeps s₀ (s.countIn t k v idx len) := by
  unfold State.countIn
  repeat' with_reducible first
    | assumption | exact Keeps.refl _ | apply State.writeLoc_keeps | apply Keeps.ite | intro _ | dsimp only | split
theorem State.countEntry_keeps {s : State} {p : Pkt} {lk : LookRes} {en : Bool} {idx : Nat} (hk : Keeps s₀ s) :
    Keeps s₀ (s.countEntry p lk en idx).1 := by
  unfold State.countEntry
  repeat' with_reducible first
    | assumption | exact Keeps.refl _ | apply State.countIn_keeps | intro _ | split
theorem Hop.none_keeps {s : State} {twins : Nat} (hk : Keeps s₀ s) : Keeps s₀ (Hop.none s twins).state := by
  unfold Hop.none
  repeat' with_reducible first
    | assumption | exact Keeps.refl _ | intro _ | split
theorem State.nextHop_keeps {s : State} {t k v n tc : Nat} (hk : Keeps s₀ s) : Keeps s₀ (s.nextHop t k v n tc).state := by
  unfold State.nextHop
  repeat' with_reducible first
    | assumption | exact Keeps.refl _ | apply Hop.none_keeps | apply State.lookDirect_keeps | apply State.bump_keeps | intro _ | dsimp only | split
theorem State.resolve_keeps {s : State} {t k v rkind idx tc : Nat} {slots : SMap Nat} (hk : Keeps s₀ s) :
    Keeps s₀ (s.resolve t k v rkind idx tc slots).state := by
  unfold State.resolve
  repeat' with_reducible first
    | assumption | exact Keeps.refl _ | apply State.nextHop_keeps | apply State.resolveGroup_keeps | apply Hop.none_keeps | intro _ | dsimp only
    | split
theorem State.probeRound_keeps {t k v kind : Nat} {key : Nat → Nat} : ∀ {ls : List Nat} {s : State} {tw : Bool}, Keeps s₀ s →
    Keeps s₀ (s.probeRound t k v kind key ls tw).2.2
  | [], _, _, hk => hk
  | len :: ls, s, tw, hk => by
    unfold State.probeRound; dsimp only
    have h1 : Keeps s₀ (s.lookHash t k v kind (key len)).2.2 := State.lookHash_keeps hk
    split
    · exact keeps_foldl (fun u x => State.lookHash_keeps (Keeps.refl u)) h1
    · exact State.probeRound_keeps h1
theorem State.probe_keeps {t k v kind : Nat} {key : Nat → Nat} : ∀ {fuel : Nat} {s : State} {ls : List Nat} {n tw : Nat}, Keeps s₀ s →
    Keeps s₀ (s.probe t k v kind key fuel ls n tw).state
  | 0, _, _, _, _, hk => hk
  | f + 1, s, ls, n, tw, hk => by
    unfold State.probe; split
    · exact hk
    · dsimp only
      have h1 : Keeps s₀ (s.probeRound t k v kind key (ls.take 4) false).2.2 := State.probeRound_keeps hk
      split
      · exact h1
      · exact State.probe_keeps (State.bump_keeps h1)
theorem State.countRounds_keeps {s : State} {t k n : Nat} (hk : Keeps s₀ s) : Keeps s₀ (s.countRounds t k n) := by
  unfold State.countRounds
  repeat' with_reducible first
    | assumption | exact Keeps.refl _ | apply State.bump_keeps | apply Keeps.ite | intro _ | split
theorem State.map4_keeps {s : State} {t k v d top : Nat} (hk : Keeps s₀ s) : Keeps s₀ (s.map4 t k v d top).2.2 := by
  unfold State.map4
  repeat' with_reducible first
    | assumption | exact Keeps.refl _ | apply State.bump_keeps | intro _ | dsimp only | split
theorem State.directHalf_keeps {s : State} {t k v d top : Nat} (hk : Keeps s₀ s) : Keeps s₀ (s.directHalf t k v d top).2.2 := by
  unfold State.directHalf
  repeat' with_reducible first
    | assumption | exact Keeps.refl _ | apply State.lookLoc_keeps | intro _ | dsimp only | split
theorem State.route4_keeps {s : State} {p : Pkt} {pf : List Byte} {rd da : Nat} (hk : Keeps s₀ s) : Keeps s₀ (s.route4 p pf rd da).state := by
  unfold State.route4
  repeat' with_reducible first
    | assumption | exact Keeps.refl _ | apply State.lookHash_keeps | apply State.bump_keeps | apply State.directHalf_keeps | apply State.map4_keeps
    | apply State.probe_keeps | apply State.countRounds_keeps | intro _ | dsimp only | split
theorem State.mapOf6_keeps {s : State} {t k v d top : Nat} (hk : Keeps s₀ s) : Keeps s₀ (s.mapOf6 t k v d top).2.2 := by
  unfold State.mapOf6
  repeat' with_reducible first
    | assumption | exact Keeps.refl _ | apply State.bump_keeps | apply Keeps.ite | intro _ | dsimp only | split
theorem State.route6_keeps {s : State} {p : Pkt} {pf : List Byte} {rd da : Nat} (hk : Keeps s₀ s) : Keeps s₀ (s.route6 p pf rd da).state := by
  unfold State.route6
  repeat' with_reducible first
    | assumption | exact Keeps.refl _ | apply State.lookHash_keeps | apply State.bump_keeps | apply State.mapOf6_keeps | apply State.probe_keeps
    | apply State.countRounds_keeps | intro _ | dsimp only | split
theorem State.scanMissed_keeps {s : State} {id cause : Nat} {p : Pkt} (hk : Keeps s₀ s) : Keeps s₀ (s.scanMissed id cause p) := by
  unfold State.scanMissed
  repeat' with_reducible first
    | assumption | exact Keeps.refl _ | apply State.onPkt_keeps | apply State.bump_keeps | apply State.onset_keeps | apply State.post_keeps
    | apply Keeps.ite | intro _ | split
theorem State.scanDecide_keeps {s : State} {id : Nat} {p : Pkt} (hk : Keeps s₀ s) : Keeps s₀ (s.scanDecide id p) := by
  unfold State.scanDecide
  repeat' with_reducible first
    | assumption | exact Keeps.refl _ | apply State.onPkt_keeps | apply State.delayPkt_keeps | apply State.bump_keeps | apply State.bumpN_keeps
    | apply State.scanMissed_keeps | apply Keeps.ite | intro _ | dsimp only | split
theorem State.searchBlock_keeps {s : State} {p : Pkt} {rng b : Nat} (hk : Keeps s₀ s) : Keeps s₀ (s.searchBlock p rng b).state := by
  unfold State.searchBlock
  repeat' with_reducible first
    | assumption | exact Keeps.refl _ | apply State.bump_keeps | apply Keeps.ite | intro _ | dsimp only | split
theorem State.matchPkt_keeps {s : State} {p : Pkt} (hk : Keeps s₀ s) : Keeps s₀ (s.matchPkt p).2.2 := by
  unfold State.matchPkt
  repeat' with_reducible first
    | assumption | exact Keeps.refl _ | apply State.bump_keeps | apply State.searchBlock_keeps | intro _ | dsimp only | split

/-! ### Machine/Pipe.lean -/

theorem State.specIssue_keeps {s : State} {id : Nat} (hk : Keeps s₀ s) : Keeps s₀ (s.specIssue id) := by
  unfold State.specIssue
  repeat' with_reducible first
    | assumption | exact Keeps.refl _ | apply State.onPkt_keeps | apply State.bump_keeps | apply Keeps.ite | intro _ | dsimp only | split
theorem Hop.put_keeps {h : Hop} {id : Nat} {r : Route} {tc : Nat} (hk : Keeps s₀ h.state) : Keeps s₀ (h.put id r tc) :=
  State.onPkt_keeps (State.delayPkt_keeps hk)
theorem State.routePkt_keeps {s : State} {id : Nat} {p : Pkt} {pf : List Byte} (hk : Keeps s₀ s) : Keeps s₀ (s.routePkt id p pf) := by
  unfold State.routePkt
  extract_lets rd r tc c h h1 orig
  have hr : Keeps s₀ r.state := by
    show Keeps s₀ (Route.state (if _ then _ else _))
    split
    · exact State.route4_keeps hk
    · exact State.route6_keeps hk
  have hc : Keeps s₀ c.1 := by
    simp only [c]
    split
    · exact State.countEntry_keeps hr
    · exact hr
  exact State.onPkt_keeps (Hop.put_keeps (h := h1) (State.onPkt_keeps (State.resolve_keeps hc)))
theorem State.groupPkt_keeps {s : State} {id : Nat} {p : Pkt} {g hitKind : Nat} (hk : Keeps s₀ s) : Keeps s₀ (s.groupPkt id p g hitKind) := by
  unfold State.groupPkt
  repeat' with_reducible first
    | assumption | exact Keeps.refl _ | apply State.lookDirect_keeps | apply State.onPkt_keeps | apply State.delayPkt_keeps | apply State.bump_keeps
    | apply Keeps.ite | intro _ | dsimp only | split
theorem State.bridgePkt_keeps {s : State} {id : Nat} {p : Pkt} {pf : List Byte} (hk : Keeps s₀ s) : Keeps s₀ (s.bridgePkt id p pf) := by
  unfold State.bridgePkt
  repeat' with_reducible first
    | assumption | exact Keeps.refl _ | apply State.groupPkt_keeps | apply State.lookHash_keeps | apply State.onPkt_keeps
    | apply State.delayPkt_keeps | apply Keeps.ite | intro _ | dsimp only | split
theorem State.sourceLookup_keeps {s : State} {id : Nat} {p : Pkt} {pf : List Byte} {room : Bool} (hk : Keeps s₀ s) :
    Keeps s₀ (s.sourceLookup id p pf room) := by
  unfold State.sourceLookup
  repeat' with_reducible first
    | assumption | exact Keeps.refl _ | apply State.learnSource_keeps | apply State.onPkt_keeps | apply Keeps.ite | intro _ | split
theorem State.lookUpPkt_keeps {s : State} {id : Nat} {room : Bool} {q : Pkt} (hk : Keeps s₀ s) : Keeps s₀ (s.lookUpPkt id room q) := by
  unfold State.lookUpPkt
  repeat' with_reducible first
    | assumption | exact Keeps.refl _ | apply State.sourceLookup_keeps | apply State.onPkt_keeps | apply State.bridgePkt_keeps
    | apply State.routePkt_keeps | apply State.specIssue_keeps | apply State.scanDecide_keeps | apply Keeps.ite | intro _ | split
theorem execClassifyAndLookUp_keeps {id : Nat} {room : Bool} {s : State} (hk : Keeps s₀ s) : KeepsOut s₀ (execClassifyAndLookUp id room s) := by
  unfold execClassifyAndLookUp
  repeat' with_reducible first
    | assumption | exact Keeps.refl _ | apply State.specIssue_keeps | apply State.onPkt_keeps | apply State.lookUpPkt_keeps | apply Keeps.ite
    | apply KeepsOut.next | intro _ | dsimp only | split
theorem State.engineError_keeps {s : State} {id : Nat} {p : Pkt} {engine : Nat} (hk : Keeps s₀ s) : Keeps s₀ (s.engineError id p engine) := by
  unfold State.engineError
  repeat' with_reducible first
    | assumption | exact Keeps.refl _ | apply State.scanMissed_keeps | apply State.report_keeps | apply State.onTab_keeps | intro _ | split
theorem State.runScan_keeps {s : State} {t id : Nat} {p : Pkt} (hk : Keeps s₀ s) : Keeps s₀ (s.runScan t id p) := by
  unfold State.runScan
  repeat' with_reducible first
    | assumption | exact Keeps.refl _ | apply State.bump_keeps | apply State.bumpN_keeps | apply State.onPkt_keeps | apply Keeps.ite | intro _
    | split
theorem execPatternScan_keeps {t id start engine err : Nat} {s : State} (hk : Keeps s₀ s) :
    KeepsOut s₀ (execPatternScan t id start engine err s) := by
  unfold execPatternScan
  repeat' with_reducible first
    | assumption | exact Keeps.refl _ | apply keeps_when | apply State.report_keeps | apply State.bump_keeps | apply State.engineError_keeps
    | apply State.runScan_keeps | apply State.specIssue_keeps | apply Keeps.ite | apply KeepsOut.unit | intro _ | dsimp only | split
theorem execScanFallback_keeps {id : Nat} {s : State} (hk : Keeps s₀ s) : KeepsOut s₀ (execScanFallback id s) := by
  unfold execScanFallback
  repeat' with_reducible first
    | assumption | exact Keeps.refl _ | apply keeps_when | apply State.scanMissed_keeps | apply State.specIssue_keeps | apply Keeps.ite
    | apply KeepsOut.next | intro _ | dsimp only | split
theorem State.applyFwd_keeps {s : State} {p : Pkt} {a : Nat} (hk : Keeps s₀ s) : Keeps s₀ (s.applyFwd p a).state := by
  unfold State.applyFwd
  repeat' with_reducible first
    | assumption | exact Keeps.refl _ | apply State.resolve_keeps | intro _ | dsimp only | split
theorem State.police_keeps {s : State} {p : Pkt} {a : Nat} {c : Ctx} {lk : LookRes} (hk : Keeps s₀ s) : Keeps s₀ (s.police p a c lk).1 := by
  unfold State.police
  repeat' with_reducible first
    | assumption | exact Keeps.refl _ | apply State.meter_keeps | intro _ | dsimp only | split
theorem State.matchAndAct_keeps {s : State} {id wait : Nat} {p : Pkt} (hk : Keeps s₀ s) : Keeps s₀ (s.matchAndAct id wait p) := by
  unfold State.matchAndAct
  repeat' with_reducible first
    | assumption | exact Keeps.refl _ | apply State.matchPkt_keeps | apply State.bumpN_keeps | apply State.applyFwd_keeps
    | apply State.countEntry_keeps | apply State.police_keeps | apply State.onPkt_keeps | apply State.delayPkt_keeps | intro _ | split
theorem execOrderedMatchSearch_keeps {id wait : Nat} {s : State} (hk : Keeps s₀ s) : KeepsOut s₀ (execOrderedMatchSearch id wait s) := by
  unfold execOrderedMatchSearch
  repeat' with_reducible first
    | assumption | exact Keeps.refl _ | apply State.onPkt_keeps | apply State.matchAndAct_keeps | apply Keeps.ite | apply KeepsOut.next | intro _
    | split
theorem execSpecGrant_keeps {id : Nat} {s : State} (hk : Keeps s₀ s) : KeepsOut s₀ (execSpecGrant id s) := by
  unfold execSpecGrant
  repeat' with_reducible first
    | assumption | exact Keeps.refl _ | apply State.onQueue_keeps | apply State.onEg_keeps | apply State.onPkt_keeps | apply State.bump_keeps
    | apply Keeps.ite | apply KeepsOut.next | intro _ | dsimp only | split
theorem State.addCopy_keeps {s : State} {p : Pkt} (hk : Keeps s₀ s) : Keeps s₀ (s.addCopy p) := by
  unfold State.addCopy
  repeat' with_reducible first
    | assumption | exact Keeps.refl _ | apply State.admitPkt_keeps | apply State.addPkt_keeps | intro _ | split
theorem State.sessionCopy_keeps {s : State} {id : Nat} {p : Pkt} {kind n : Nat} (hk : Keeps s₀ s) : Keeps s₀ (s.sessionCopy id p kind n) := by
  unfold State.sessionCopy
  repeat' with_reducible first
    | assumption | exact Keeps.refl _ | apply State.addCopy_keeps | apply Keeps.ite | intro _ | split
theorem State.hostCopy_keeps {s : State} {id : Nat} {p : Pkt} {x : Nat} (hk : Keeps s₀ s) : Keeps s₀ (s.hostCopy id p x) := by
  unfold State.hostCopy
  repeat' with_reducible first
    | assumption | exact Keeps.refl _ | apply State.addCopy_keeps | intro _ | split
theorem State.makeCopies_keeps {s : State} {id : Nat} {p : Pkt} {sel : Bool} (hk : Keeps s₀ s) : Keeps s₀ (s.makeCopies id p sel) := by
  unfold State.makeCopies
  repeat' with_reducible first
    | assumption | exact Keeps.refl _ | apply State.sessionCopy_keeps | apply State.hostCopy_keeps | apply Keeps.ite | intro _ | dsimp only | split
theorem State.applyVerdict_keeps {s : State} {id : Nat} {p : Pkt} (hk : Keeps s₀ s) : Keeps s₀ (s.applyVerdict id p) := by
  unfold State.applyVerdict
  repeat' with_reducible first
    | assumption | exact Keeps.refl _ | apply State.giveVerdict_keeps | apply State.tailAdjust_keeps | apply State.onPkt_keeps | apply Keeps.ite
    | intro _ | split
theorem State.badTail_keeps {s : State} {id : Nat} {p : Pkt} (hk : Keeps s₀ s) : Keeps s₀ (s.badTail id p) := by
  unfold State.badTail
  repeat' with_reducible first
    | assumption | exact Keeps.refl _ | apply State.discard_keeps | apply State.bump_keeps | apply State.stompPkt_keeps | apply State.onSw_keeps
    | apply Keeps.ite | intro _ | split
theorem State.returnExcess_keeps {s : State} {id : Nat} (hk : Keeps s₀ s) : Keeps s₀ (s.returnExcess id) := by
  unfold State.returnExcess
  repeat' with_reducible first
    | assumption | exact Keeps.refl _ | apply State.onPkt_keeps | intro _ | split
theorem State.tailOf_keeps {s : State} {id : Nat} (hk : Keeps s₀ s) : Keeps s₀ (s.tailOf id) := by
  unfold State.tailOf
  repeat' with_reducible first
    | assumption | exact Keeps.refl _ | apply State.returnExcess_keeps | apply State.applyVerdict_keeps | apply State.badTail_keeps
    | apply State.onSw_keeps | apply Keeps.ite | intro _ | dsimp only | split
theorem execTailVerdict_keeps {id : Nat} {s : State} (hk : Keeps s₀ s) : KeepsOut s₀ (execTailVerdict id s) := by
  unfold execTailVerdict
  repeat' with_reducible first
    | assumption | exact Keeps.refl _ | apply keeps_when | apply keeps_forEach | apply State.tailOf_keeps | apply KeepsOut.next | intro _ | split
theorem State.settle_keeps {s : State} {id : Nat} {p : Pkt} {drop : Nat} (hk : Keeps s₀ s) : Keeps s₀ (s.settle id p drop) := by
  unfold State.settle
  repeat' with_reducible first
    | assumption | exact Keeps.refl _ | apply State.cancelSpec_keeps | apply State.pipeDrop_keeps | apply State.onPkt_keeps | apply Keeps.ite
    | intro _ | dsimp only | split
theorem execConfirm_keeps {id : Nat} {sel : Bool} {s : State} (hk : Keeps s₀ s) : KeepsOut s₀ (execConfirm id sel s) := by
  unfold execConfirm
  repeat' with_reducible first
    | assumption | exact Keeps.refl _ | apply State.bump_keeps | apply State.applyVerdict_keeps | apply State.makeCopies_keeps
    | apply State.settle_keeps | apply Keeps.ite | apply KeepsOut.next | intro _ | dsimp only | split
theorem execSpecReturn_keeps {x : Nat} {s : State} (hk : Keeps s₀ s) : KeepsOut s₀ (execSpecReturn x s) := by
  unfold execSpecReturn
  repeat' with_reducible first
    | assumption | exact Keeps.refl _ | apply State.takeBack_keeps | apply State.onSw_keeps | apply KeepsOut.unit | intro _ | split
theorem State.releasePkt_keeps {s : State} {id : Nat} {late : Bool} (hk : Keeps s₀ s) : Keeps s₀ (s.releasePkt id late) := by
  unfold State.releasePkt
  repeat' with_reducible first
    | assumption | exact Keeps.refl _ | apply State.pipeSlot_keeps | apply State.settleQueue_keeps | apply State.erasePkt_keeps
    | apply State.admitPkt_keeps | apply State.onPkt_keeps | apply Keeps.ite | intro _ | dsimp only | split
theorem State.releaseRun_keeps {t src : Nat} : ∀ {n : Nat} {s : State}, Keeps s₀ s → Keeps s₀ (s.releaseRun t src n)
  | 0, _, hk => hk
  | n + 1, s, hk => by
    unfold State.releaseRun; dsimp only; split
    · exact State.releaseRun_keeps (State.onSource_keeps hk)
    · split
      · exact State.releaseRun_keeps (State.releasePkt_keeps (State.onSource_keeps hk))
      · exact hk
theorem State.releaseLate_keeps {s : State} {t src : Nat} (hk : Keeps s₀ s) : Keeps s₀ (s.releaseLate t src) := by
  unfold State.releaseLate
  repeat' with_reducible first
    | assumption | exact Keeps.refl _ | apply keeps_forEach | apply State.releasePkt_keeps | apply State.bump_keeps | apply State.onSource_keeps
    | intro _ | split
theorem execReorderRelease_keeps {t src : Nat} {s : State} (hk : Keeps s₀ s) : KeepsOut s₀ (execReorderRelease t src s) := by
  unfold execReorderRelease
  repeat' with_reducible first
    | assumption | exact Keeps.refl _ | apply State.releaseLate_keeps | apply State.releaseRun_keeps | apply KeepsOut.unit | intro _ | split
theorem State.closeGap_keeps {t src : Nat} : ∀ {n : Nat} {s : State}, Keeps s₀ s → Keeps s₀ (s.closeGap t src n)
  | 0, _, hk => hk
  | n + 1, s, hk => by
    unfold State.closeGap; dsimp only; split
    · exact hk
    · exact State.closeGap_keeps (State.onSource_keeps hk)
theorem execLateRelease_keeps {t src : Nat} {s : State} (hk : Keeps s₀ s) : KeepsOut s₀ (execLateRelease t src s) := by
  unfold execLateRelease
  repeat' with_reducible first
    | assumption | exact Keeps.refl _ | apply State.releaseLate_keeps | apply State.releaseRun_keeps | apply keeps_when | apply State.closeGap_keeps
    | apply KeepsOut.unit | intro _ | split

/-! ### Machine/EgressOps.lean -/

theorem State.dropTooLong_keeps {x c : Nat} : ∀ {n : Nat} {s : State}, Keeps s₀ s → Keeps s₀ (s.dropTooLong x c n)
  | 0, _, hk => hk
  | n + 1, s, hk => by
    unfold State.dropTooLong; split
    · exact hk
    · split
      · exact hk
      · split
        · dsimp only
          have h1 := State.onset_keeps (s := s.arr 6 (tileOfExit x) x c 1) (kind := 9) (unit := x) (State.arr_keeps hk)
          apply State.dropTooLong_keeps; apply State.discard_keeps
          apply Keeps.ite
          · exact State.post_keeps h1
          · exact h1
        · exact hk
theorem State.choose_keeps {s : State} {x level : Nat} (hk : Keeps s₀ s) : KeepsSnd s₀ (s.choose x level) := by
  unfold State.choose
  repeat' with_reducible first
    | assumption | exact Keeps.refl _ | apply State.onQueue_keeps | apply State.onEg_keeps | apply keeps_foldl | exact KeepsSnd.none
    | apply KeepsSnd.some | intro _ | dsimp only | split
theorem State.chooseQueue_keeps {s : State} {x : Nat} (hk : Keeps s₀ s) : KeepsSnd s₀ (s.chooseQueue x) :=
  KeepsSnd.findSome (fun _ => State.choose_keeps hk) _
theorem State.chargeCell_keeps {s : State} {p : Pkt} (hk : Keeps s₀ s) : Keeps s₀ (s.chargeCell p) := by
  unfold State.chargeCell
  repeat' with_reducible first
    | assumption | exact Keeps.refl _ | apply State.onQueue_keeps | apply State.chargeShapers_keeps | apply Keeps.ite | intro _ | split
theorem State.quarantine_keeps {s : State} {t cell stage access : Nat} (hk : Keeps s₀ s) : Keeps s₀ (s.quarantine t cell stage access) := by
  unfold State.quarantine
  repeat' with_reducible first
    | assumption | exact Keeps.refl _ | apply State.onSw_keeps | apply State.post_keeps | apply State.report_keeps | apply Keeps.ite | intro _
    | split
theorem State.finishExc_keeps {s : State} {id : Nat} {p : Pkt} (hk : Keeps s₀ s) : Keeps s₀ (s.finishExc id p) := by
  unfold State.finishExc
  repeat' with_reducible first
    | assumption | exact Keeps.refl _ | apply State.dressSlots_keeps | apply State.leaveEgress_keeps | apply State.dropHold_keeps
    | apply State.settleQueue_keeps | apply State.erasePkt_keeps | apply State.onPkt_keeps | apply State.admitPkt_keeps | apply Keeps.ite | intro _
    | split
theorem State.ucodeError_keeps {s : State} {p : Pkt} {bank a : Nat} (hk : Keeps s₀ s) : Keeps s₀ (s.ucodeError p bank a) := by
  unfold State.ucodeError
  repeat' with_reducible first
    | assumption | exact Keeps.refl _ | apply State.report_keeps | apply State.onTab_keeps | intro _ | split

/-! ### Machine/Egress.lean -/

theorem State.grantHead_keeps {s : State} {x c i id : Nat} {p : Pkt} {wait : Nat} (hk : Keeps s₀ s) : Keeps s₀ (s.grantHead x c i id p wait) := by
  unfold State.grantHead
  repeat' with_reducible first
    | assumption | exact Keeps.refl _ | apply State.bumpN_keeps | apply State.onEg_keeps | apply State.onQueue_keeps | apply State.onPkt_keeps
    | apply State.arr_keeps | intro _ | split
theorem execEgressGrant_keeps {x wait : Nat} {room : Bool} {s : State} (hk : Keeps s₀ s) : KeepsOut s₀ (execEgressGrant x wait room s) := by
  unfold execEgressGrant
  repeat' with_reducible first
    | assumption | exact Keeps.refl _ | apply keeps_forEach | apply State.dropTooLong_keeps | apply State.chooseQueue_keeps
    | apply State.grantHead_keeps | apply Keeps.ite | apply Keeps.of_snd ‹_› | apply KeepsOut.unit | intro _ | split
theorem State.cellError_keeps {s : State} {id : Nat} {p : Pkt} {cell : Nat} (hk : Keeps s₀ s) : Keeps s₀ (s.cellError id p cell) := by
  unfold State.cellError
  repeat' with_reducible first
    | assumption | exact Keeps.refl _ | apply State.quarantine_keeps | apply State.discard_keeps | apply State.bump_keeps | apply keeps_forEach
    | apply State.freeExit_keeps | apply State.onPkt_keeps | apply State.stompPkt_keeps | apply State.releaseCells_keeps | apply Keeps.ite | intro _
    | dsimp only | split
theorem State.stageRefuse_keeps {s : State} {id : Nat} {p : Pkt} (hk : Keeps s₀ s) : Keeps s₀ (s.stageRefuse id p) := by
  unfold State.stageRefuse
  repeat' with_reducible first
    | assumption | exact Keeps.refl _ | apply State.report_keeps | apply State.bump_keeps | apply State.discard_keeps | apply State.post_keeps
    | intro _ | split
theorem State.launchCell_keeps {s : State} {id : Nat} {p : Pkt} (hk : Keeps s₀ s) : Keeps s₀ (s.launchCell id p) := by
  unfold State.launchCell
  repeat' with_reducible first
    | assumption | exact Keeps.refl _ | apply State.bump_keeps | apply State.leaveVoqs_keeps | apply State.onPkt_keeps | apply State.chargeCell_keeps
    | apply State.settleSpill_keeps | apply State.freeExit_keeps | apply State.finishExc_keeps | apply Keeps.ite | intro _ | dsimp only | split
theorem execCellLaunch_keeps {id err cell : Nat} {s : State} (hk : Keeps s₀ s) : KeepsOut s₀ (execCellLaunch id err cell s) := by
  unfold execCellLaunch
  repeat' with_reducible first
    | assumption | exact Keeps.refl _ | apply State.stageRefuse_keeps | apply State.cellError_keeps | apply State.report_keeps
    | apply State.bump_keeps | apply State.launchCell_keeps | apply Keeps.ite | apply KeepsOut.next | intro _ | dsimp only | split
theorem execCellArrival_keeps {id : Nat} {s : State} (hk : Keeps s₀ s) : KeepsOut s₀ (execCellArrival id s) := by
  unfold execCellArrival
  repeat' with_reducible first
    | assumption | exact Keeps.refl _ | apply keeps_when | apply State.onPkt_keeps | apply State.discard_keeps | apply State.arr_keeps
    | apply Keeps.ite | apply KeepsOut.next | intro _ | dsimp only | split
theorem State.replHop_keeps {s : State} {p : Pkt} {k n : Nat} (hk : Keeps s₀ s) : Keeps s₀ (s.replHop p k n).state := by
  unfold State.replHop
  repeat' with_reducible first
    | assumption | exact Keeps.refl _ | apply State.lookDirect_keeps | intro _ | dsimp only | split
theorem State.replicate_keeps {s : State} {p : Pkt} {k h e : Nat} (hk : Keeps s₀ s) : Keeps s₀ (s.replicate p k h e) := by
  unfold State.replicate
  repeat' with_reducible first
    | assumption | exact Keeps.refl _ | apply State.replHop_keeps | apply State.admitPkt_keeps | apply State.addPkt_keeps | apply State.bump_keeps
    | apply State.stat_keeps | apply State.onSw_keeps | apply State.onQueue_keeps | apply Keeps.ite | intro _ | split
theorem State.takeMulticast_keeps {s : State} {k id : Nat} {p : Pkt} (hk : Keeps s₀ s) : Keeps s₀ (s.takeMulticast k id p) := by
  unfold State.takeMulticast
  repeat' with_reducible first
    | assumption | exact Keeps.refl _ | apply State.lookDirect_keeps | apply State.onSw_keeps | apply State.bump_keeps | apply State.replicate_keeps
    | apply State.onVoq_keeps | apply State.dropHold_keeps | apply State.erasePkt_keeps | apply State.onPkt_keeps | apply keeps_foldl
    | apply Keeps.ite | intro _ | split
theorem execMulticastReplication_keeps {k wait : Nat} {s : State} (hk : Keeps s₀ s) : KeepsOut s₀ (execMulticastReplication k wait s) := by
  unfold execMulticastReplication
  repeat' with_reducible first
    | assumption | exact Keeps.refl _ | apply keeps_when | apply State.takeMulticast_keeps | apply State.onSw_keeps | apply State.bumpN_keeps
    | apply KeepsOut.unit | intro _ | dsimp only | split
theorem execReentryRead_keeps {key : Nat} {ue : Option Nat} {s : State} (hk : Keeps s₀ s) : KeepsOut s₀ (execReentryRead key ue s) := by
  unfold execReentryRead
  repeat' with_reducible first
    | assumption | exact Keeps.refl _ | apply keeps_when | apply State.spillRead_keeps | apply State.dramUe_keeps | apply State.settleSpill_keeps
    | apply State.erasePkt_keeps | apply State.leaveVoqs_keeps | apply State.bump_keeps | apply State.onPkt_keeps | apply Keeps.ite
    | apply KeepsOut.next | intro _ | dsimp only | split
theorem execDresserAssign_keeps {id wait : Nat} {s : State} (hk : Keeps s₀ s) : KeepsOut s₀ (execDresserAssign id wait s) := by
  unfold execDresserAssign
  repeat' with_reducible first
    | assumption | exact Keeps.refl _ | apply keeps_when | apply State.arr_keeps | apply State.onSw_keeps | apply State.bumpN_keeps
    | apply State.onPkt_keeps | apply State.onEg_keeps | apply KeepsOut.next | intro _ | dsimp only | split
theorem State.editException_keeps {s : State} {id : Nat} {p : Pkt} {cycles code sub : Nat} (hk : Keeps s₀ s) :
    Keeps s₀ (s.editException id p cycles code sub) := by
  unfold State.editException
  repeat' with_reducible first
    | assumption | exact Keeps.refl _ | apply State.onset_keeps | apply State.bump_keeps | apply State.post_keeps | apply State.onPkt_keeps
    | apply State.finishExc_keeps | apply Keeps.ite | intro _ | dsimp only | split
theorem State.ucodeCorr_keeps {p : Pkt} : ∀ {n : Nat} {s : State}, Keeps s₀ s → Keeps s₀ (s.ucodeCorr p n)
  | 0, _, hk => hk
  | n + 1, s, hk => by
    unfold State.ucodeCorr; apply State.ucodeCorr_keeps; exact State.report_keeps (State.bump_keeps hk)
theorem State.countRun_keeps {s : State} {p : Pkt} {wait corr cycles : Nat} (hk : Keeps s₀ s) : Keeps s₀ (s.countRun p wait corr cycles) := by
  unfold State.countRun
  repeat' with_reducible first
    | assumption | exact Keeps.refl _ | apply State.onTab_keeps | apply State.onSw_keeps | apply State.bumpN_keeps | apply State.ucodeCorr_keeps
    | intro _ | split
theorem execEditProgram_keeps {id wait corr ue : Nat} {s : State} (hk : Keeps s₀ s) : KeepsOut s₀ (execEditProgram id wait corr ue s) := by
  unfold execEditProgram
  repeat' with_reducible first
    | assumption | exact Keeps.refl _ | apply State.countRun_keeps | apply State.ucodeError_keeps | apply State.editException_keeps
    | apply State.bump_keeps | apply State.onPkt_keeps | apply Keeps.ite | apply KeepsOut.next | intro _ | dsimp only | split
theorem State.reenter_keeps {s : State} {id : Nat} {p : Pkt} (hk : Keeps s₀ s) : Keeps s₀ (s.reenter id p) := by
  unfold State.reenter
  repeat' with_reducible first
    | assumption | exact Keeps.refl _ | apply State.onPkt_keeps | intro _ | split
theorem State.handOff_keeps {s : State} {id : Nat} {p : Pkt} (hk : Keeps s₀ s) : Keeps s₀ (s.handOff id p) := by
  unfold State.handOff
  repeat' with_reducible first
    | assumption | exact Keeps.refl _ | apply State.onEg_keeps | apply State.chargeShapers_keeps | apply State.dressSlots_keeps
    | apply State.dropHold_keeps | apply State.onPkt_keeps | apply State.reenter_keeps | apply State.settleQueue_keeps | apply Keeps.ite | intro _
    | split
theorem execHandOff_keeps {id : Nat} {s : State} (hk : Keeps s₀ s) : KeepsOut s₀ (execHandOff id s) := by
  unfold execHandOff
  repeat' with_reducible first
    | assumption | exact Keeps.refl _ | apply keeps_when | apply State.handOff_keeps | apply KeepsOut.next | intro _ | split
theorem State.stampTx_keeps {s : State} {l : Nat} {f : List Byte} (hk : Keeps s₀ s) : Keeps s₀ (s.stampTx l f).2 := by
  unfold State.stampTx
  repeat' with_reducible first
    | assumption | exact Keeps.refl _ | apply State.stamp_keeps | intro _ | dsimp only | split
theorem State.countTx_keeps {s : State} {p : Pkt} {frame : List Byte} (hk : Keeps s₀ s) : Keeps s₀ (s.countTx p frame) := by
  unfold State.countTx
  repeat' with_reducible first
    | assumption | exact Keeps.refl _ | apply State.stat_keeps | apply State.statN_keeps | apply State.bump_keeps | apply Keeps.ite | intro _ | split
theorem State.talk_keeps {s : State} {p : Pkt} {room : Bool} (hk : Keeps s₀ s) : Keeps s₀ (s.talk p room) := by
  unfold State.talk
  repeat' with_reducible first
    | assumption | exact Keeps.refl _ | apply State.learnTalk_keeps | apply Keeps.ite | intro _ | split
theorem State.gateOverrun_keeps {s : State} {x c k : Nat} (hk : Keeps s₀ s) : Keeps s₀ (s.gateOverrun x c k) := by
  unfold State.gateOverrun
  repeat' with_reducible first
    | assumption | exact Keeps.refl _ | apply State.onset_keeps | apply State.arr_keeps | apply State.post_keeps | apply Keeps.ite | intro _ | split
theorem State.sendFrame_keeps {s : State} {id : Nat} {p : Pkt} {room : Bool} (hk : Keeps s₀ s) : Keeps s₀ (s.sendFrame id p room) := by
  unfold State.sendFrame
  repeat' with_reducible first
    | assumption | exact Keeps.refl _ | apply State.stampTx_keeps | apply State.gateOverrun_keeps | apply State.talk_keeps
    | apply State.countTx_keeps | apply State.erasePkt_keeps | apply State.onLport_keeps | intro _ | split
theorem execTransmitFrame_keeps {id : Nat} {room : Bool} {s : State} (hk : Keeps s₀ s) : KeepsOut s₀ (execTransmitFrame id room s) := by
  unfold execTransmitFrame
  repeat' with_reducible first
    | assumption | exact Keeps.refl _ | apply keeps_when | apply State.sendFrame_keeps | apply KeepsOut.next | intro _ | split
theorem execLportFlush_keeps {l : Nat} {s : State} (hk : Keeps s₀ s) : KeepsOut s₀ (execLportFlush l s) := by
  unfold execLportFlush
  repeat' with_reducible first
    | assumption | exact Keeps.refl _ | apply State.flushLport_keeps | apply State.flushClasses_keeps | apply Keeps.ite | apply KeepsOut.unit
    | intro _ | split
theorem execFlushCellsFreed_keeps {t k : Nat} {s : State} (hk : Keeps s₀ s) : KeepsOut s₀ (execFlushCellsFreed t k s) := by
  unfold execFlushCellsFreed
  repeat' with_reducible first
    | assumption | exact Keeps.refl _ | apply State.onSw_keeps | apply KeepsOut.unit | intro _ | split
theorem execFoldScrub_keeps {t cell found : Nat} {s : State} (hk : Keeps s₀ s) : KeepsOut s₀ (execFoldScrub t cell found s) := by
  unfold execFoldScrub
  repeat' with_reducible first
    | assumption | exact Keeps.refl _ | apply State.report_keeps | apply State.bump_keeps | apply State.quarantine_keeps | apply Keeps.ite
    | apply KeepsOut.unit | intro _ | split

end Sys2Proof.Machine
end

