-- ==== Sys2Proof/Laws/KeepsRest.lean ====
section
/-! SUPPORT. What each operation keeps (Laws/Keeps.lean):
queues, buffers, memory, punts, stages, taking commands, boot, diagnosis, registers and the clock. -/
namespace Sys2Proof.Machine
open Sys2Proof
set_option Elab.async false
set_option linter.unusedTactic false
set_option linter.unreachableTactic false

variable {s₀ : State}

/-! ### Machine/Queue.lean -/

theorem State.writePolicer_keeps {s : State} {pol rec_ : Nat} (hk : Keeps s₀ s) : Keeps s₀ (s.writePolicer pol rec_) := by
  unfold State.writePolicer
  repeat' with_reducible first
    | assumption | exact Keeps.refl _ | apply State.onSw_keeps | apply keeps_forEach | apply State.onBucket_keeps | intro _ | split
theorem bodyQueuePolicer_keeps {m : Msg} {s : State} (hk : Keeps s₀ s) : Keeps s₀ (bodyQueuePolicer m s).state := by
  unfold bodyQueuePolicer
  repeat' with_reducible first
    | assumption | exact Keeps.refl _ | apply orDeny_keeps | apply done_keeps | apply State.writePolicer_keeps | apply keeps_foldl | intro _ | split
theorem execQueuePolicer_keeps {m : Msg} {s : State} (hk : Keeps s₀ s) : KeepsOut s₀ (execQueuePolicer m s) :=
  commandRow_keeps hk (fun _ h => bodyQueuePolicer_keeps h)
theorem bodyQueuePolicerRead_keeps {m : Msg} {s : State} (hk : Keeps s₀ s) : Keeps s₀ (bodyQueuePolicerRead m s).state := by
  unfold bodyQueuePolicerRead
  repeat' with_reducible first
    | assumption | exact Keeps.refl _ | apply orDeny_keeps | apply doneWith_keeps | intro _ | split
theorem execQueuePolicerRead_keeps {m : Msg} {s : State} (hk : Keeps s₀ s) : KeepsOut s₀ (execQueuePolicerRead m s) :=
  commandRow_keeps hk (fun _ h => bodyQueuePolicerRead_keeps h)
theorem bodyQueuePolicerRange_keeps {m : Msg} {s : State} (hk : Keeps s₀ s) : Keeps s₀ (bodyQueuePolicerRange m s).state := by
  unfold bodyQueuePolicerRange
  repeat' with_reducible first
    | assumption | exact Keeps.refl _ | apply orDeny_keeps | apply done_keeps | apply State.onSw_keeps | intro _ | split
theorem execQueuePolicerRange_keeps {m : Msg} {s : State} (hk : Keeps s₀ s) : KeepsOut s₀ (execQueuePolicerRange m s) :=
  commandRow_keeps hk (fun _ h => bodyQueuePolicerRange_keeps h)
theorem bodyQueuePrecolour_keeps {m : Msg} {s : State} (hk : Keeps s₀ s) : Keeps s₀ (bodyQueuePrecolour m s).state := by
  unfold bodyQueuePrecolour
  repeat' with_reducible first
    | assumption | exact Keeps.refl _ | apply orDeny_keeps | apply done_keeps | apply State.onSw_keeps | intro _ | split
theorem execQueuePrecolour_keeps {m : Msg} {s : State} (hk : Keeps s₀ s) : KeepsOut s₀ (execQueuePrecolour m s) :=
  commandRow_keeps hk (fun _ h => bodyQueuePrecolour_keeps h)
theorem execPolicerRepair_keeps {t pol : Nat} {s : State} (hk : Keeps s₀ s) : KeepsOut s₀ (execPolicerRepair t pol s) := by
  unfold execPolicerRepair
  repeat' with_reducible first
    | assumption | exact Keeps.refl _ | apply State.post_keeps | apply State.report_keeps | apply State.onBucket_keeps | apply KeepsOut.unit
    | intro _ | split
theorem State.writeService_keeps {s : State} {r : Nat} (hk : Keeps s₀ s) : Keeps s₀ (s.writeService r) := by
  unfold State.writeService
  repeat' with_reducible first
    | assumption | exact Keeps.refl _ | apply State.onQueue_keeps | intro _ | split
theorem bodyQueueService_keeps {m : Msg} {s : State} (hk : Keeps s₀ s) : Keeps s₀ (bodyQueueService m s).state := by
  unfold bodyQueueService
  repeat' with_reducible first
    | assumption | exact Keeps.refl _ | apply orDeny_keeps | apply done_keeps | apply State.writeService_keeps | apply keeps_foldl | intro _ | split
theorem execQueueService_keeps {m : Msg} {s : State} (hk : Keeps s₀ s) : KeepsOut s₀ (execQueueService m s) :=
  commandRow_keeps hk (fun _ h => bodyQueueService_keeps h)
theorem State.writeQlport_keeps {s : State} {r : Nat} (hk : Keeps s₀ s) : Keeps s₀ (s.writeQlport r) := by
  unfold State.writeQlport
  repeat' with_reducible first
    | assumption | exact Keeps.refl _ | apply State.onEg_keeps | intro _ | split
theorem bodyQueueLport_keeps {m : Msg} {s : State} (hk : Keeps s₀ s) : Keeps s₀ (bodyQueueLport m s).state := by
  unfold bodyQueueLport
  repeat' with_reducible first
    | assumption | exact Keeps.refl _ | apply orDeny_keeps | apply done_keeps | apply State.writeQlport_keeps | apply keeps_foldl | intro _ | split
theorem execQueueLport_keeps {m : Msg} {s : State} (hk : Keeps s₀ s) : KeepsOut s₀ (execQueueLport m s) :=
  commandRow_keeps hk (fun _ h => bodyQueueLport_keeps h)
theorem execShaperRefill_keeps {l : Nat} {s : State} (hk : Keeps s₀ s) : KeepsOut s₀ (execShaperRefill l s) := by
  unfold execShaperRefill
  repeat' with_reducible first
    | assumption | exact Keeps.refl _ | apply keeps_when | apply State.refillShapers_keeps | apply KeepsOut.unit | intro _ | split
theorem bodyQueueCuesheet_keeps {m : Msg} {s : State} (hk : Keeps s₀ s) : Keeps s₀ (bodyQueueCuesheet m s).state := by
  unfold bodyQueueCuesheet
  repeat' with_reducible first
    | assumption | exact Keeps.refl _ | apply orDeny_keeps | apply done_keeps | apply State.onEg_keeps | intro _ | split
theorem execQueueCuesheet_keeps {m : Msg} {s : State} (hk : Keeps s₀ s) : KeepsOut s₀ (execQueueCuesheet m s) :=
  commandRow_keeps hk (fun _ h => bodyQueueCuesheet_keeps h)
theorem execGateChange_keeps {l : Nat} {s : State} (hk : Keeps s₀ s) : KeepsOut s₀ (execGateChange l s) := by
  unfold execGateChange
  repeat' with_reducible first
    | assumption | exact Keeps.refl _ | apply State.setGates_keeps | apply KeepsOut.unit | intro _ | split
theorem execCuesheetSwitch_keeps {l : Nat} {s : State} (hk : Keeps s₀ s) : KeepsOut s₀ (execCuesheetSwitch l s) := by
  unfold execCuesheetSwitch
  repeat' with_reducible first
    | assumption | exact Keeps.refl _ | apply keeps_when | apply State.switchSheet_keeps | apply KeepsOut.unit | intro _ | split
theorem bodyQueueStatus_keeps {m : Msg} {s : State} (hk : Keeps s₀ s) : Keeps s₀ (bodyQueueStatus m s).state := by
  unfold bodyQueueStatus
  repeat' with_reducible first
    | assumption | exact Keeps.refl _ | apply orDeny_keeps | apply doneWith_keeps | intro _ | split
theorem execQueueStatus_keeps {m : Msg} {s : State} (hk : Keeps s₀ s) : KeepsOut s₀ (execQueueStatus m s) :=
  commandRow_keeps hk (fun _ h => bodyQueueStatus_keeps h)
theorem State.expirePkt_keeps {s : State} {id : Nat} (hk : Keeps s₀ s) : Keeps s₀ (s.expirePkt id) := by
  unfold State.expirePkt
  repeat' with_reducible first
    | assumption | exact Keeps.refl _ | apply State.bump_keeps | apply State.sendBack_keeps | apply State.pipeDrop_keeps | apply State.erasePkt_keeps
    | apply State.settleSpill_keeps | apply State.discard_keeps | apply Keeps.ite | intro _ | dsimp only | split
theorem State.expireVersion_keeps {s : State} {k r : Nat} (hk : Keeps s₀ s) : Keeps s₀ (s.expireVersion k r) := by
  unfold State.expireVersion
  repeat' with_reducible first
    | assumption | exact Keeps.refl _ | apply State.onVer_keeps | apply keeps_forEach | apply State.expirePkt_keeps | apply State.post_keeps
    | apply State.beginSettle_keeps | apply Keeps.ite | intro _ | split
theorem execDrainExpired_keeps {k : Nat} {s : State} (hk : Keeps s₀ s) : KeepsOut s₀ (execDrainExpired k s) := by
  unfold execDrainExpired
  repeat' with_reducible first
    | assumption | exact Keeps.refl _ | apply keeps_when | apply State.expireVersion_keeps | apply KeepsOut.unit | intro _ | split

/-! ### Machine/Buffer.lean -/

theorem State.writeClass_keeps {s : State} {k r : Nat} (hk : Keeps s₀ s) : Keeps s₀ (s.writeClass k r) := by
  unfold State.writeClass
  repeat' with_reducible first
    | assumption | exact Keeps.refl _ | apply State.onSw_keeps | intro _ | split
theorem bodyBufferClass_keeps {m : Msg} {s : State} (hk : Keeps s₀ s) : Keeps s₀ (bodyBufferClass m s).state := by
  unfold bodyBufferClass
  repeat' with_reducible first
    | assumption | exact Keeps.refl _ | apply State.writeClass_keeps | apply orDeny_keeps | apply done_keeps | apply keeps_forEach
    | apply State.settleSpill_keeps | apply keeps_foldl | intro _ | split
theorem execBufferClass_keeps {m : Msg} {s : State} (hk : Keeps s₀ s) : KeepsOut s₀ (execBufferClass m s) :=
  commandRow_keeps hk (fun _ h => bodyBufferClass_keeps h)
theorem State.writeBufLport_keeps {s : State} {r : Nat} (hk : Keeps s₀ s) : Keeps s₀ (s.writeBufLport r) := by
  unfold State.writeBufLport
  repeat' with_reducible first
    | assumption | exact Keeps.refl _ | apply State.onEg_keeps | intro _ | split
theorem bodyBufferLport_keeps {m : Msg} {s : State} (hk : Keeps s₀ s) : Keeps s₀ (bodyBufferLport m s).state := by
  unfold bodyBufferLport
  repeat' with_reducible first
    | assumption | exact Keeps.refl _ | apply State.writeBufLport_keeps | apply orDeny_keeps | apply done_keeps | apply keeps_foldl | intro _ | split
theorem execBufferLport_keeps {m : Msg} {s : State} (hk : Keeps s₀ s) : KeepsOut s₀ (execBufferLport m s) :=
  commandRow_keeps hk (fun _ h => bodyBufferLport_keeps h)
theorem bodyBufferSession_keeps {m : Msg} {s : State} (hk : Keeps s₀ s) : Keeps s₀ (bodyBufferSession m s).state := by
  unfold bodyBufferSession
  repeat' with_reducible first
    | assumption | exact Keeps.refl _ | apply orDeny_keeps | apply done_keeps | apply State.onSw_keeps | intro _ | split
theorem execBufferSession_keeps {m : Msg} {s : State} (hk : Keeps s₀ s) : KeepsOut s₀ (execBufferSession m s) :=
  commandRow_keeps hk (fun _ h => bodyBufferSession_keeps h)
theorem bodyBufferStatus_keeps {m : Msg} {s : State} (hk : Keeps s₀ s) : Keeps s₀ (bodyBufferStatus m s).state := by
  unfold bodyBufferStatus
  repeat' with_reducible first
    | assumption | exact Keeps.refl _ | apply orDeny_keeps | apply doneWith_keeps | intro _ | split
theorem execBufferStatus_keeps {m : Msg} {s : State} (hk : Keeps s₀ s) : KeepsOut s₀ (execBufferStatus m s) :=
  commandRow_keeps hk (fun _ h => bodyBufferStatus_keeps h)

/-! ### Machine/Mem.lean -/

theorem State.loseFar_keeps {s : State} (hk : Keeps s₀ s) : Keeps s₀ s.loseFar := by
  unfold State.loseFar
  repeat' with_reducible first
    | assumption | exact Keeps.refl _ | apply keeps_forEach | apply State.settleSpill_keeps | apply State.erasePkt_keeps
    | apply State.leaveVoqs_keeps | apply State.spillDrop_keeps | apply State.bump_keeps | intro _ | split
theorem State.loseFlow_keeps {s : State} (hk : Keeps s₀ s) : Keeps s₀ s.loseFlow := by
  unfold State.loseFlow
  repeat' with_reducible first
    | assumption | exact Keeps.refl _ | apply State.onBook_keeps | intro _ | split
theorem State.loseCapture_keeps {s : State} (hk : Keeps s₀ s) : Keeps s₀ s.loseCapture := by
  unfold State.loseCapture
  repeat' with_reducible first
    | assumption | exact Keeps.refl _ | apply State.onBook_keeps | intro _ | split
theorem execDramAlert_keeps {c sub : Nat} {again : Bool} {s : State} (hk : Keeps s₀ s) : KeepsOut s₀ (execDramAlert c sub again s) := by
  unfold execDramAlert
  repeat' with_reducible first
    | assumption | exact Keeps.refl _ | apply keeps_when | apply State.onChannel_keeps | apply State.report_keeps | apply State.bump_keeps
    | apply Keeps.ite | apply KeepsOut.unit | intro _ | split
theorem State.bumpChannel_keeps {s : State} {c i : Nat} (hk : Keeps s₀ s) : Keeps s₀ (s.bumpChannel c i) := by
  unfold State.bumpChannel
  repeat' with_reducible first
    | assumption | exact Keeps.refl _ | apply State.bump_keeps | intro _ | split
theorem State.loseChannel_keeps {s : State} {c : Nat} (hk : Keeps s₀ s) : Keeps s₀ (s.loseChannel c) := by
  unfold State.loseChannel
  repeat' with_reducible first
    | assumption | exact Keeps.refl _ | apply State.loseFar_keeps | apply State.post_keeps | apply State.report_keeps | apply State.onChannel_keeps
    | intro _ | split
theorem execMemChannelReset_keeps {c : Nat} {ok : Bool} {s : State} (hk : Keeps s₀ s) : KeepsOut s₀ (execMemChannelReset c ok s) := by
  unfold execMemChannelReset
  repeat' with_reducible first
    | assumption | exact Keeps.refl _ | apply keeps_when | apply State.post_keeps | apply State.report_keeps | apply State.bumpChannel_keeps
    | apply State.onChannel_keeps | apply State.loseChannel_keeps | apply Keeps.ite | apply KeepsOut.unit | intro _ | split
theorem State.countRow_keeps {s : State} {c rank device row : Nat} (hk : Keeps s₀ s) : Keeps s₀ (s.countRow c rank device row) := by
  unfold State.countRow
  repeat' with_reducible first
    | assumption | exact Keeps.refl _ | apply State.onMem_keeps | apply State.post_keeps | apply Keeps.ite | intro _ | split
theorem State.rebuildBacking_keeps {s : State} {key : Nat} {copy : Bool} (hk : Keeps s₀ s) : Keeps s₀ (s.rebuildBacking key copy) := by
  unfold State.rebuildBacking
  repeat' with_reducible first
    | assumption | exact Keeps.refl _ | apply State.bump_keeps | apply State.post_keeps | apply State.onTab_keeps | apply State.repairDone_keeps
    | apply Keeps.ite | intro _ | dsimp only | split
theorem execPatrolScrub_keeps {c sub found region a b rank device row : Nat} {copy : Bool} {s : State} (hk : Keeps s₀ s) :
    KeepsOut s₀ (execPatrolScrub c sub found region a b rank device row copy s) := by
  unfold execPatrolScrub
  repeat' with_reducible first
    | assumption | exact Keeps.refl _ | apply keeps_when | apply State.bump_keeps | apply State.countRow_keeps | apply State.report_keeps
    | apply State.rebuildBacking_keeps | apply State.dramUe_keeps | apply State.onPkt_keeps | apply State.onFlow_keeps | apply State.onCapture_keeps
    | apply Keeps.ite | apply KeepsOut.unit | intro _ | split
theorem State.trainChannel_keeps {s : State} {c : Nat} {d : Dimm} {cachedOk : Bool} (hk : Keeps s₀ s) : Keeps s₀ (s.trainChannel c d cachedOk) := by
  unfold State.trainChannel
  repeat' with_reducible first
    | assumption | exact Keeps.refl _ | apply State.onChannel_keeps | apply State.onMem_keeps | apply State.ledgerWrite_keeps
    | apply State.bumpChannel_keeps | apply State.onBook_keeps | apply Keeps.ite | intro _ | split
theorem execChannelTraining_keeps {c : Nat} {dimm : Option Dimm} {cachedOk : Bool} {s : State} (hk : Keeps s₀ s) :
    KeepsOut s₀ (execChannelTraining c dimm cachedOk s) := by
  unfold execChannelTraining
  repeat' with_reducible first
    | assumption | exact Keeps.refl _ | apply keeps_when | apply State.trainChannel_keeps | apply KeepsOut.unit | intro _ | split
theorem execChannelZeroingDone_keeps {c : Nat} {s : State} (hk : Keeps s₀ s) : KeepsOut s₀ (execChannelZeroingDone c s) := by
  unfold execChannelZeroingDone
  repeat' with_reducible first
    | assumption | exact Keeps.refl _ | apply keeps_when | apply State.onChannel_keeps | apply KeepsOut.unit | intro _ | split
theorem execDqsOscillatorRead_keeps {c rank : Nat} {drift : Bool} {s : State} (hk : Keeps s₀ s) :
    KeepsOut s₀ (execDqsOscillatorRead c rank drift s) := by
  unfold execDqsOscillatorRead
  repeat' with_reducible first
    | assumption | exact Keeps.refl _ | apply keeps_when | apply State.onChannel_keeps | apply KeepsOut.unit | intro _ | split
theorem State.endSpeedStep_keeps {s : State} {target c : Nat} (hk : Keeps s₀ s) : Keeps s₀ (s.endSpeedStep target c) := by
  unfold State.endSpeedStep
  repeat' with_reducible first
    | assumption | exact Keeps.refl _ | apply keeps_forEach | apply State.onChannel_keeps | apply State.onMem_keeps | apply State.rebalance_keeps
    | apply State.finish_keeps | apply State.post_keeps | apply Keeps.ite | intro _ | split
theorem execMemSpeedStep_keeps {s : State} (hk : Keeps s₀ s) : KeepsOut s₀ (execMemSpeedStep s) := by
  unfold execMemSpeedStep
  repeat' with_reducible first
    | assumption | exact Keeps.refl _ | apply State.speedStep_keeps | apply State.endSpeedStep_keeps | apply KeepsOut.next | intro _ | split
theorem execMr4Read_keeps {c hot : Nat} {s : State} (hk : Keeps s₀ s) : KeepsOut s₀ (execMr4Read c hot s) := by
  unfold execMr4Read
  repeat' with_reducible first
    | assumption | exact Keeps.refl _ | apply keeps_when | apply State.onChannel_keeps | apply keeps_forEach | apply State.post_keeps
    | apply State.rebalance_keeps | apply KeepsOut.unit | intro _ | split
theorem execRetainSelfRefresh_keeps {c rank : Nat} {s : State} (hk : Keeps s₀ s) : KeepsOut s₀ (execRetainSelfRefresh c rank s) := by
  unfold execRetainSelfRefresh
  repeat' with_reducible first
    | assumption | exact Keeps.refl _ | apply keeps_when | apply State.loseCapture_keeps | apply State.loseFlow_keeps | apply State.onChannel_keeps
    | apply KeepsOut.unit | intro _ | split
theorem execDimmTemperatureRead_keeps {c : Nat} {temp : Int} {s : State} (hk : Keeps s₀ s) : KeepsOut s₀ (execDimmTemperatureRead c temp s) := by
  unfold execDimmTemperatureRead
  repeat' with_reducible first
    | assumption | exact Keeps.refl _ | apply keeps_when | apply State.onChannel_keeps | apply State.speedStep_keeps | apply State.onMem_keeps
    | apply State.post_keeps | apply Keeps.ite | apply KeepsOut.unit | intro _ | split
theorem bodyMemConfig_keeps {m : Msg} {s : State} (hk : Keeps s₀ s) : Keeps s₀ (bodyMemConfig m s).state := by
  unfold bodyMemConfig
  repeat' with_reducible first
    | assumption | exact Keeps.refl _ | apply State.onMem_keeps | apply State.settleShares_keeps | apply orDeny_keeps | apply done_keeps
    | apply State.rebalance_keeps | intro _ | split
theorem execMemConfig_keeps {m : Msg} {s : State} (hk : Keeps s₀ s) : KeepsOut s₀ (execMemConfig m s) :=
  commandRow_keeps hk (fun _ h => bodyMemConfig_keeps h)
theorem bodyMemRegion_keeps {m : Msg} {s : State} (hk : Keeps s₀ s) : Keeps s₀ (bodyMemRegion m s).state := by
  unfold bodyMemRegion
  repeat' with_reducible first
    | assumption | exact Keeps.refl _ | apply State.onMem_keeps | apply State.loseFar_keeps | apply State.loseFlow_keeps | apply orDeny_keeps
    | apply done_keeps | apply State.loseCapture_keeps | apply Keeps.ite | intro _ | split
theorem execMemRegion_keeps {m : Msg} {s : State} (hk : Keeps s₀ s) : KeepsOut s₀ (execMemRegion m s) :=
  commandRow_keeps hk (fun _ h => bodyMemRegion_keeps h)
theorem bodyMemShare_keeps {m : Msg} {s : State} (hk : Keeps s₀ s) : Keeps s₀ (bodyMemShare m s).state := by
  unfold bodyMemShare
  repeat' with_reducible first
    | assumption | exact Keeps.refl _ | apply orDeny_keeps | apply done_keeps | apply State.onShare_keeps | apply State.settleShares_keeps | intro _
    | split
theorem execMemShare_keeps {m : Msg} {s : State} (hk : Keeps s₀ s) : KeepsOut s₀ (execMemShare m s) :=
  commandRow_keeps hk (fun _ h => bodyMemShare_keeps h)
theorem bodyMemSpeed_keeps {m : Msg} {s : State} (hk : Keeps s₀ s) : Keeps s₀ (bodyMemSpeed m s).state := by
  unfold bodyMemSpeed
  repeat' with_reducible first
    | assumption | exact Keeps.refl _ | apply orDeny_keeps | apply accept_keeps | apply State.speedStep_keeps | intro _ | split
theorem execMemSpeed_keeps {m : Msg} {s : State} (hk : Keeps s₀ s) : KeepsOut s₀ (execMemSpeed m s) :=
  commandRow_keeps hk (fun _ h => bodyMemSpeed_keeps h)
theorem bodyMemRepair_keeps {m : Msg} {s : State} (hk : Keeps s₀ s) : Keeps s₀ (bodyMemRepair m s).state := by
  unfold bodyMemRepair
  repeat' with_reducible first
    | assumption | exact Keeps.refl _ | apply orDeny_keeps | apply deny_keeps | apply done_keeps | apply State.onMem_keeps | intro _ | split
theorem execMemRepair_keeps {m : Msg} {s : State} (hk : Keeps s₀ s) : KeepsOut s₀ (execMemRepair m s) :=
  commandRow_keeps hk (fun _ h => bodyMemRepair_keeps h)
theorem bodyMemStatus_keeps {m : Msg} {s : State} (hk : Keeps s₀ s) : Keeps s₀ (bodyMemStatus m s).state := by
  unfold bodyMemStatus
  repeat' with_reducible first
    | assumption | exact Keeps.refl _ | apply orDeny_keeps | apply doneWith_keeps | intro _ | split
theorem execMemStatus_keeps {m : Msg} {s : State} (hk : Keeps s₀ s) : KeepsOut s₀ (execMemStatus m s) :=
  commandRow_keeps hk (fun _ h => bodyMemStatus_keeps h)

/-! ### Machine/Punt.lean -/

theorem execInjectItem_keeps {p : Nat} {frame : List Byte} {dmaOk cqOk : Bool} {s : State} (hk : Keeps s₀ s) :
    KeepsOut s₀ (execInjectItem p frame dmaOk cqOk s) := by
  unfold execInjectItem
  repeat' with_reducible first
    | assumption | exact Keeps.refl _ | apply keeps_when | apply State.completeItem_keeps | apply State.allocBuffer_keeps | apply State.setItem_keeps
    | apply State.addPkt_keeps | apply State.moved_keeps | apply Keeps.ite | apply Keeps.of_snd ‹_› | apply KeepsOut.unit | intro _ | dsimp only
    | split
theorem execInjectCompletion_keeps {p : Nat} {cqOk : Bool} {s : State} (hk : Keeps s₀ s) : KeepsOut s₀ (execInjectCompletion p cqOk s) := by
  unfold execInjectCompletion
  repeat' with_reducible first
    | assumption | exact Keeps.refl _ | apply keeps_when | apply State.completeItem_keeps | apply KeepsOut.unit | intro _ | dsimp only | split
theorem State.readCell_keeps {s : State} {p : Pkt} {err cell : Nat} (hk : Keeps s₀ s) : Keeps s₀ (s.readCell p err cell) := by
  unfold State.readCell
  repeat' with_reducible first
    | assumption | exact Keeps.refl _ | apply State.report_keeps | apply State.bump_keeps | apply Keeps.ite | intro _ | split
theorem State.leaveLane_keeps {s : State} {id : Nat} {p : Pkt} (hk : Keeps s₀ s) : Keeps s₀ (s.leaveLane id p) := by
  unfold State.leaveLane
  repeat' with_reducible first
    | assumption | exact Keeps.refl _ | apply State.settleQueue_keeps | apply State.erasePkt_keeps | apply State.leaveVoqs_keeps | intro _ | split
theorem State.fillBuffer_keeps {s : State} {key id : Nat} {p : Pkt} {q : Nat} (hk : Keeps s₀ s) : Keeps s₀ (s.fillBuffer key id p q) := by
  unfold State.fillBuffer
  repeat' with_reducible first
    | assumption | exact Keeps.refl _ | apply State.leaveLane_keeps | apply State.onPools_keeps | apply State.addSurvey_keeps | apply Keeps.ite
    | intro _ | split
theorem State.writePunt_keeps {s : State} {p : Nat} {it : Item} {key : Nat} {dmaOk cqOk : Bool} (hk : Keeps s₀ s) :
    Keeps s₀ (s.writePunt p it key dmaOk cqOk) := by
  unfold State.writePunt
  repeat' with_reducible first
    | assumption | exact Keeps.refl _ | apply State.completeItem_keeps | apply State.retainBuffer_keeps | apply State.moved_keeps
    | apply State.hostWrite_keeps | apply Keeps.ite | intro _ | split
theorem State.keepCapture_keeps {s : State} {key k j : Nat} (hk : Keeps s₀ s) : Keeps s₀ (s.keepCapture key k j) := by
  unfold State.keepCapture
  repeat' with_reducible first
    | assumption | exact Keeps.refl _ | apply State.freeBuffer_keeps | apply State.shareRefused_keeps | apply State.shareTraffic_keeps
    | apply State.onCapture_keeps | apply Keeps.ite | intro _ | split
theorem State.grantPunt_keeps {s : State} {k q d id : Nat} {p : Pkt} {err cell key : Nat} {dmaOk cqOk : Bool} (hk : Keeps s₀ s) :
    Keeps s₀ (s.grantPunt k q d id p err cell key dmaOk cqOk) := by
  unfold State.grantPunt
  repeat' with_reducible first
    | assumption | exact Keeps.refl _ | (refine State.onHost_same ?_ (fun _ => ⟨rfl, rfl⟩)) | apply State.fillBuffer_keeps
    | apply State.readCell_keeps | apply State.setItem_keeps | apply State.writePunt_keeps | apply State.keepCapture_keeps | apply Keeps.ite
    | intro _ | dsimp only | split
theorem execPuntWrite_keeps {k q t c err cell : Nat} {dmaOk cqOk : Bool} {s : State} (hk : Keeps s₀ s) :
    KeepsOut s₀ (execPuntWrite k q t c err cell dmaOk cqOk s) := by
  unfold execPuntWrite
  repeat' with_reducible first
    | assumption | exact Keeps.refl _ | apply State.writePunt_keeps | (refine State.onHost_same ?_ (fun _ => ⟨rfl, rfl⟩))
    | apply State.keepCapture_keeps | apply State.cellError_keeps | apply State.allocBuffer_keeps | apply State.grantPunt_keeps | apply Keeps.ite
    | apply Keeps.of_snd ‹_› | apply KeepsOut.unit | intro _ | split
theorem execFlowSample_keeps {k q t c err cell : Nat} {s : State} (hk : Keeps s₀ s) : KeepsOut s₀ (execFlowSample k q t c err cell s) := by
  unfold execFlowSample
  repeat' with_reducible first
    | assumption | exact Keeps.refl _ | apply State.cellError_keeps | (refine State.onHost_same ?_ (fun _ => ⟨rfl, rfl⟩))
    | apply State.leaveLane_keeps | apply State.readCell_keeps | apply State.sampleFlow_keeps | apply Keeps.ite | apply KeepsOut.unit | intro _
    | dsimp only | split

/-! ### Machine/Stage.lean -/

theorem State.putStage_keeps {s : State} {k : Nat} {g : Stage} (hk : Keeps s₀ s) : Keeps s₀ (s.putStage k g) := by
  unfold State.putStage
  repeat' with_reducible first
    | assumption | exact Keeps.refl _ | (refine State.onCmd_same ?_ (fun _ => rfl)) | intro _ | split
theorem bodyStageCreate_keeps {m : Msg} {s : State} (hk : Keeps s₀ s) : Keeps s₀ (bodyStageCreate m s).state := by
  unfold bodyStageCreate
  repeat' with_reducible first
    | assumption | exact Keeps.refl _ | apply orDeny_keeps | apply accept_keeps | apply State.onVer_keeps | apply State.putStage_keeps | intro _
    | split
theorem execStageCreate_keeps {m : Msg} {s : State} (hk : Keeps s₀ s) : KeepsOut s₀ (execStageCreate m s) :=
  commandRow_keeps hk (fun _ h => bodyStageCreate_keeps h)
theorem execStageReady_keeps {k : Nat} {s : State} (hk : Keeps s₀ s) : KeepsOut s₀ (execStageReady k s) := by
  unfold execStageReady
  repeat' with_reducible first
    | assumption | exact Keeps.refl _ | apply keeps_when | apply State.putStage_keeps | apply State.onMb_keeps | apply State.post_keeps
    | apply State.finishFor_keeps | apply KeepsOut.unit | intro _ | split
theorem bodyStageResize_keeps {m : Msg} {s : State} (hk : Keeps s₀ s) : Keeps s₀ (bodyStageResize m s).state := by
  unfold bodyStageResize
  repeat' with_reducible first
    | assumption | exact Keeps.refl _ | apply orDeny_keeps | apply accept_keeps | (refine State.onCmd_same ?_ (fun _ => rfl))
    | apply State.putStage_keeps | intro _ | split
theorem execStageResize_keeps {m : Msg} {s : State} (hk : Keeps s₀ s) : KeepsOut s₀ (execStageResize m s) :=
  commandRow_keeps hk (fun _ h => bodyStageResize_keeps h)
theorem State.scrubTile_keeps {s : State} {k t : Nat} (hk : Keeps s₀ s) : Keeps s₀ (s.scrubTile k t) := by
  unfold State.scrubTile
  repeat' with_reducible first
    | assumption | exact Keeps.refl _ | apply State.onTab_keeps | apply State.onGraphs_keeps | intro _ | split
theorem State.fillBothHalves_keeps {s : State} {k : Nat} {i : Inst} (hk : Keeps s₀ s) : Keeps s₀ (s.fillBothHalves k i) := by
  unfold State.fillBothHalves
  repeat' with_reducible first
    | assumption | exact Keeps.refl _ | apply keeps_forEach | apply State.writeLoc_keeps | apply keeps_foldl | intro _ | split
theorem State.extendInst_keeps {s : State} {k kind : Nat} {i : Inst} (hk : Keeps s₀ s) : Keeps s₀ (s.extendInst k kind i) := by
  unfold State.extendInst
  repeat' with_reducible first
    | assumption | exact Keeps.refl _ | apply State.onInsts_keeps | apply State.fillBothHalves_keeps | apply State.fillInst_keeps | apply Keeps.ite
    | intro _ | split
theorem State.extendGraph_keeps {s : State} {k : Nat} {g : Graph} (hk : Keeps s₀ s) : Keeps s₀ (s.extendGraph k g) := by
  unfold State.extendGraph
  repeat' with_reducible first
    | assumption | exact Keeps.refl _ | apply State.writeNodes_keeps | apply State.onGraphs_keeps | intro _ | split
theorem State.addTiles_keeps {s : State} {k : Nat} {old new : Stage} {tiles : List Nat} (hk : Keeps s₀ s) :
    Keeps s₀ (s.addTiles k old new tiles) := by
  unfold State.addTiles
  repeat' with_reducible first
    | assumption | exact Keeps.refl _ | apply State.putStage_keeps | apply State.extendInst_keeps | apply State.extendGraph_keeps | apply keeps_foldl
    | intro _ | split
theorem State.endResize_keeps {s : State} {k : Nat} {new : Stage} (hk : Keeps s₀ s) : Keeps s₀ (s.endResize k new) := by
  unfold State.endResize
  repeat' with_reducible first
    | assumption | exact Keeps.refl _ | apply keeps_forEach | apply State.scrubTile_keeps | apply State.addTiles_keeps
    | (refine State.onCmd_same ?_ (fun _ => rfl)) | apply State.putStage_keeps | apply State.finishFor_keeps | apply Keeps.ite | intro _ | split
theorem execStageResized_keeps {k : Nat} {s : State} (hk : Keeps s₀ s) : KeepsOut s₀ (execStageResized k s) := by
  unfold execStageResized
  repeat' with_reducible first
    | assumption | exact Keeps.refl _ | apply keeps_when | apply State.endResize_keeps | apply KeepsOut.unit | intro _ | split
theorem State.beginDissolve_keeps {s : State} {k : Nat} (hk : Keeps s₀ s) : Keeps s₀ (s.beginDissolve k) := by
  unfold State.beginDissolve
  repeat' with_reducible first
    | assumption | exact Keeps.refl _ | apply State.onMb_keeps | (refine State.onCmd_same ?_ (fun _ => rfl)) | apply State.onCount_keeps
    | apply keeps_forEach | apply State.onLport_keeps | apply State.stopLport_keeps | apply State.post_keeps
    | (refine State.onHost_same ?_ (fun _ => ⟨rfl, rfl⟩)) | apply Keeps.ite | intro _ | split
theorem bodyStageDissolve_keeps {m : Msg} {s : State} (hk : Keeps s₀ s) : Keeps s₀ (bodyStageDissolve m s).state := by
  unfold bodyStageDissolve
  repeat' with_reducible first
    | assumption | exact Keeps.refl _ | apply orDeny_keeps | apply accept_keeps | apply State.beginDissolve_keeps | intro _ | split
theorem execStageDissolve_keeps {m : Msg} {s : State} (hk : Keeps s₀ s) : KeepsOut s₀ (execStageDissolve m s) :=
  commandRow_keeps hk (fun _ h => bodyStageDissolve_keeps h)
theorem State.scrubRest_keeps {s : State} {k : Nat} (hk : Keeps s₀ s) : Keeps s₀ (s.scrubRest k) := by
  unfold State.scrubRest
  repeat' with_reducible first
    | assumption | exact Keeps.refl _ | apply State.onCount_keeps | (refine State.onCmd_same ?_ (fun _ => rfl)) | apply State.onBook_keeps
    | apply State.onFault_keeps | apply State.onMem_keeps | intro _ | split
theorem State.endDissolve_keeps {s : State} {k : Nat} (hk : Keeps s₀ s) : Keeps s₀ (s.endDissolve k) := by
  unfold State.endDissolve
  repeat' with_reducible first
    | assumption | exact Keeps.refl _ | apply keeps_forEach | apply State.scrubTile_keeps | apply State.onSw_keeps | apply State.onTab_keeps
    | (refine State.onCmd_same ?_ (fun _ => rfl)) | apply State.scrubRest_keeps | apply State.finishFor_keeps
    | (with_unfolding_all refine State.onHost_keeps ?_ (fun _ h g => ⟨Memory.clear_wf h, g⟩)) | intro _ | split
theorem execStageDissolved_keeps {k : Nat} {s : State} (hk : Keeps s₀ s) : KeepsOut s₀ (execStageDissolved k s) := by
  unfold execStageDissolved
  repeat' with_reducible first
    | assumption | exact Keeps.refl _ | apply keeps_when | apply keeps_forEach | apply State.expirePkt_keeps | apply State.endDissolve_keeps
    | apply Keeps.ite | apply KeepsOut.unit | intro _ | split
theorem bodyStageStatus_keeps {m : Msg} {s : State} (hk : Keeps s₀ s) : Keeps s₀ (bodyStageStatus m s).state := by
  unfold bodyStageStatus
  repeat' with_reducible first
    | assumption | exact Keeps.refl _ | apply orDeny_keeps | apply doneWith_keeps | intro _ | split
theorem execStageStatus_keeps {m : Msg} {s : State} (hk : Keeps s₀ s) : KeepsOut s₀ (execStageStatus m s) :=
  commandRow_keeps hk (fun _ h => bodyStageStatus_keeps h)

/-! ### Machine/Take.lean -/

theorem bodyTimeAdjust_keeps {m : Msg} {s : State} (hk : Keeps s₀ s) : Keeps s₀ (bodyTimeAdjust m s).state := by
  unfold bodyTimeAdjust
  repeat' with_reducible first
    | assumption | exact Keeps.refl _ | apply bodyTimeAdjustFreq_keeps | apply bodyTimeAdjustSlew_keeps | apply bodyTimeAdjustStep_keeps | intro _
    | split
theorem bodyTimePort_keeps {m : Msg} {s : State} (hk : Keeps s₀ s) : Keeps s₀ (bodyTimePort m s).state := by
  unfold bodyTimePort
  repeat' with_reducible first
    | assumption | exact Keeps.refl _ | apply bodyTimePortConfig_keeps | apply bodyTimePortRead_keeps | intro _ | split
theorem State.refuseMessage_keeps {s : State} {code : Nat} {m : Msg} {st : Nat} (hk : Keeps s₀ s) : Keeps s₀ (s.refuseMessage code m st) := by
  unfold State.refuseMessage; split
  · exact State.putResponse_keeps hk
  · exact respond_keeps (deny_keeps (State.journalAccept_keeps hk))
/-- Every meaning of a list of rows keeps what is kept. -/
def KeepsRows (l : List CatRow) : Prop := ∀ r ∈ l, ∀ {s₀ s : State} {m : Msg}, Keeps s₀ s → Keeps s₀ (r.2 m s).state
theorem KeepsRows.nil : KeepsRows [] := fun _ h => by cases h
theorem KeepsRows.cons {o : Op} {b : Msg → State → Answer} {l : List CatRow}
    (h : ∀ {s₀ s : State} {m : Msg}, Keeps s₀ s → Keeps s₀ (b m s).state) (hl : KeepsRows l) : KeepsRows ((o, b) :: l) := by
  intro r hr s₀ s m hk
  cases hr with
  | head => exact h hk
  | tail _ hr => exact hl r hr hk
theorem KeepsRows.append {l k : List CatRow} (hl : KeepsRows l) (hk : KeepsRows k) : KeepsRows (l ++ k) := by
  intro r hr s₀ s m h
  rcases List.mem_append.1 hr with x | x
  · exact hl r x h
  · exact hk r x h
theorem catalogueSys_keeps : KeepsRows catalogueSys :=
  (.cons (fun hk => bodySysPing_keeps hk) 
    (.cons (fun hk => bodySysStatus_keeps hk) 
    (.cons (fun hk => bodySysControlStatus_keeps hk) 
    (.cons (fun hk => bodySysFwLoad_keeps hk) 
    (.cons (fun hk => bodySysFwActivate_keeps hk) 
    (.cons (fun hk => bodySysSwitchover_keeps hk) 
    (.cons (fun hk => bodySysReset_keeps hk) 
    (.cons (fun hk => bodySysSet_keeps hk) 
    (.cons (fun hk => bodySysGet_keeps hk) 
    (.cons (fun hk => bodySysAsyncStatus_keeps hk) .nil))))))))))
theorem catalogueMode_keeps : KeepsRows catalogueMode :=
  (.cons (fun hk => bodyModeSet_keeps hk) 
    (.cons (fun hk => bodyModeStatus_keeps hk) .nil))
theorem catalogueStage_keeps : KeepsRows catalogueStage :=
  (.cons (fun hk => bodyStageCreate_keeps hk) 
    (.cons (fun hk => bodyStageResize_keeps hk) 
    (.cons (fun hk => bodyStageDissolve_keeps hk) 
    (.cons (fun hk => bodyStageStatus_keeps hk) .nil))))
theorem cataloguePort_keeps : KeepsRows cataloguePort :=
  (.cons (fun hk => bodyPortConfig_keeps hk) 
    (.cons (fun hk => bodyPortStatus_keeps hk) 
    (.cons (fun hk => bodyPortHealth_keeps hk) 
    (.cons (fun hk => bodyPortSerdesBounds_keeps hk) .nil))))
theorem catalogueModule_keeps : KeepsRows catalogueModule :=
  (.cons (fun hk => bodyModuleStatus_keeps hk) 
    (.cons (fun hk => bodyModuleRead_keeps hk) 
    (.cons (fun hk => bodyModuleWrite_keeps hk) 
    (.cons (fun hk => bodyModuleReset_keeps hk) .nil))))
theorem catalogueParse_keeps : KeepsRows catalogueParse :=
  (.cons (fun hk => bodyParseLoad_keeps hk) 
    (.cons (fun hk => bodyParseDiscard_keeps hk) 
    (.cons (fun hk => bodyParseRead_keeps hk) 
    (.cons (fun hk => bodyParseStatus_keeps hk) .nil))))
theorem catalogueTable_keeps : KeepsRows catalogueTable :=
  (.cons (fun hk => bodyTableCreate_keeps hk) 
    (.cons (fun hk => bodyTableProfile_keeps hk) 
    (.cons (fun hk => bodyTableDomain_keeps hk) 
    (.cons (fun hk => bodyTablePfxAdd_keeps hk) 
    (.cons (fun hk => bodyTablePfxDelete_keeps hk) 
    (.cons (fun hk => bodyTableEntryWrite_keeps hk) 
    (.cons (fun hk => bodyTableEntryDelete_keeps hk) 
    (.cons (fun hk => bodyTableRead_keeps hk) 
    (.cons (fun hk => bodyTableFlushLearned_keeps hk) 
    (.cons (fun hk => bodyTableCommit_keeps hk) 
    (.cons (fun hk => bodyTableCommitCancel_keeps hk) 
    (.cons (fun hk => bodyTableAbort_keeps hk) 
    (.cons (fun hk => bodyTableVstatus_keeps hk) .nil)))))))))))))
theorem catalogueRule_keeps : KeepsRows catalogueRule :=
  (.cons (fun hk => bodyRuleBlock_keeps hk) 
    (.cons (fun hk => bodyRuleLayout_keeps hk) 
    (.cons (fun hk => bodyRuleRange_keeps hk) 
    (.cons (fun hk => bodyRulePreselect_keeps hk) 
    (.cons (fun hk => bodyRuleDefault_keeps hk) 
    (.cons (fun hk => bodyRuleAdd_keeps hk) 
    (.cons (fun hk => bodyRuleDelete_keeps hk) 
    (.cons (fun hk => bodyRuleRead_keeps hk) .nil))))))))
theorem cataloguePattern_keeps : KeepsRows cataloguePattern :=
  (.cons (fun hk => bodyPatternLoad_keeps hk) 
    (.cons (fun hk => bodyPatternDiscard_keeps hk) 
    (.cons (fun hk => bodyPatternRead_keeps hk) 
    (.cons (fun hk => bodyPatternStatus_keeps hk) 
    (.cons (fun hk => bodyPatternBounds_keeps hk) 
    (.cons (fun hk => bodyPatternQuery_keeps hk) 
    (.cons (fun hk => bodyPatternStep_keeps hk) .nil)))))))
theorem catalogueEdit_keeps : KeepsRows catalogueEdit :=
  (.cons (fun hk => bodyEditLoad_keeps hk) 
    (.cons (fun hk => bodyEditSwap_keeps hk) 
    (.cons (fun hk => bodyEditRead_keeps hk) 
    (.cons (fun hk => bodyEditStatus_keeps hk) 
    (.cons (fun hk => bodyEditRegion_keeps hk) .nil)))))
theorem catalogueQueue_keeps : KeepsRows catalogueQueue :=
  (.cons (fun hk => bodyQueuePolicer_keeps hk) 
    (.cons (fun hk => bodyQueuePolicerRead_keeps hk) 
    (.cons (fun hk => bodyQueuePolicerRange_keeps hk) 
    (.cons (fun hk => bodyQueuePrecolour_keeps hk) 
    (.cons (fun hk => bodyQueueService_keeps hk) 
    (.cons (fun hk => bodyQueueLport_keeps hk) 
    (.cons (fun hk => bodyQueueCuesheet_keeps hk) 
    (.cons (fun hk => bodyQueueStatus_keeps hk) .nil))))))))
theorem catalogueBuffer_keeps : KeepsRows catalogueBuffer :=
  (.cons (fun hk => bodyBufferClass_keeps hk) 
    (.cons (fun hk => bodyBufferLport_keeps hk) 
    (.cons (fun hk => bodyBufferSession_keeps hk) 
    (.cons (fun hk => bodyBufferStatus_keeps hk) .nil))))
theorem catalogueMem_keeps : KeepsRows catalogueMem :=
  (.cons (fun hk => bodyMemConfig_keeps hk) 
    (.cons (fun hk => bodyMemRegion_keeps hk) 
    (.cons (fun hk => bodyMemShare_keeps hk) 
    (.cons (fun hk => bodyMemSpeed_keeps hk) 
    (.cons (fun hk => bodyMemRepair_keeps hk) 
    (.cons (fun hk => bodyMemStatus_keeps hk) .nil))))))
theorem catalogueTime_keeps : KeepsRows catalogueTime :=
  (.cons (fun hk => bodyTimeStatus_keeps hk) 
    (.cons (fun hk => bodyTimeConfig_keeps hk) 
    (.cons (fun hk => bodyTimeSet_keeps hk) 
    (.cons (fun hk => bodyTimeAdjust_keeps hk) 
    (.cons (fun hk => bodyTimePort_keeps hk) .nil)))))
theorem cataloguePower_keeps : KeepsRows cataloguePower :=
  (.cons (fun hk => bodyPowerStatus_keeps hk) 
    (.cons (fun hk => bodyPowerLimit_keeps hk) 
    (.cons (fun hk => bodyPowerPrecedence_keeps hk) 
    (.cons (fun hk => bodyPowerBounds_keeps hk) .nil))))
theorem catalogueFault_keeps : KeepsRows catalogueFault :=
  (.cons (fun hk => bodyFaultStatus_keeps hk) 
    (.cons (fun hk => bodyFaultAck_keeps hk) 
    (.cons (fun hk => bodyFaultConfig_keeps hk) 
    (.cons (fun hk => bodyFaultPin_keeps hk) .nil))))
theorem catalogueRecord_keeps : KeepsRows catalogueRecord :=
  (.cons (fun hk => bodyRecordConfig_keeps hk) 
    (.cons (fun hk => bodyRecordTrigger_keeps hk) 
    (.cons (fun hk => bodyRecordStatus_keeps hk) 
    (.cons (fun hk => bodyRecordRead_keeps hk) 
    (.cons (fun hk => bodyRecordDrive_keeps hk) .nil)))))
theorem catalogueLife_keeps : KeepsRows catalogueLife :=
  (.cons (fun hk => bodyLifeRead_keeps hk) 
    (.cons (fun hk => bodyLifeStatus_keeps hk) 
    (.cons (fun hk => bodyLifeBackup_keeps hk) .nil)))
theorem catalogueCounter_keeps : KeepsRows catalogueCounter :=
  (.cons (fun hk => bodyCounterRead_keeps hk) 
    (.cons (fun hk => bodyCounterSnapshot_keeps hk) 
    (.cons (fun hk => bodyCounterEvents_keeps hk) 
    (.cons (fun hk => bodyCounterSlots_keeps hk) 
    (.cons (fun hk => bodyCounterLport_keeps hk) .nil)))))
theorem catalogueRing_keeps : KeepsRows catalogueRing :=
  (.cons (fun hk => bodyRingAssign_keeps hk) 
    (.cons (fun hk => bodyRingPools_keeps hk) 
    (.cons (fun hk => bodyRingQuota_keeps hk) 
    (.cons (fun hk => bodyRingCap_keeps hk) 
    (.cons (fun hk => bodyRingRelease_keeps hk) 
    (.cons (fun hk => bodyRingStatusCmd_keeps hk) .nil))))))
theorem catalogueIdentity_keeps : KeepsRows catalogueIdentity :=
  (.cons (fun hk => bodyIdentityChain_keeps hk) 
    (.cons (fun hk => bodyIdentityQuote_keeps hk) 
    (.cons (fun hk => bodyIdentityOwnerEnrol_keeps hk) 
    (.cons (fun hk => bodyIdentityRollbackCommit_keeps hk) .nil))))
theorem catalogueTest_keeps : KeepsRows catalogueTest :=
  (.cons (fun hk => bodyTestLoopback_keeps hk) 
    (.cons (fun hk => bodyTestPrbs_keeps hk) 
    (.cons (fun hk => bodyTestInject_keeps hk) 
    (.cons (fun hk => bodyTestStatus_keeps hk) .nil))))
theorem catalogue_keeps : KeepsRows catalogue :=
  (.append (.append (.append (.append (.append (.append (.append (.append (.append (.append (.append
    (.append (.append (.append (.append (.append (.append (.append (.append (.append (.append catalogueSys_keeps catalogueMode_keeps) catalogueStage_keeps) cataloguePort_keeps) catalogueModule_keeps) catalogueParse_keeps) catalogueTable_keeps)
    catalogueRule_keeps) cataloguePattern_keeps) catalogueEdit_keeps) catalogueQueue_keeps) catalogueBuffer_keeps) catalogueMem_keeps) catalogueTime_keeps)
    cataloguePower_keeps) catalogueFault_keeps) catalogueRecord_keeps) catalogueLife_keeps) catalogueCounter_keeps) catalogueRing_keeps) catalogueIdentity_keeps) catalogueTest_keeps)
theorem State.judgeTaken_keeps {s₀ s : State} {x : Taken} {l : Lane} {ext : Option (List Byte)} (hk : Keeps s₀ s) :
    Keeps s₀ (s.judgeTaken x l ext) := by
  unfold State.judgeTaken; dsimp only; split
  · exact State.refuseMessage_keeps hk
  · split
    · exact State.refuseMessage_keeps hk
    · rename_i r e
      exact runCommand_keeps hk (fun _ h => catalogue_keeps r (List.mem_of_find?_eq_some e) h)
theorem State.takeFrom_keeps {s : State} {l : Lane} {ext : Option (List Byte)} (hk : Keeps s₀ s) : Keeps s₀ (s.takeFrom l ext) := by
  unfold State.takeFrom
  repeat' with_reducible first
    | assumption | exact Keeps.refl _ | apply keeps_when | apply State.judgeTaken_keeps | apply State.onMb_keeps | apply State.setItem_keeps
    | intro _ | dsimp only | split
theorem execCommandTake_keeps {lane : Lane} {ext : Option (List Byte)} {s : State} (hk : Keeps s₀ s) : KeepsOut s₀ (execCommandTake lane ext s) := by
  unfold execCommandTake
  repeat' with_reducible first
    | assumption | exact Keeps.refl _ | apply keeps_when | apply State.takeFrom_keeps | apply KeepsOut.unit | intro _ | split
theorem State.startWork_keeps {s : State} {p : Nat} {it : Item} {bytes : List Byte} {dmaOk cqOk : Bool} (hk : Keeps s₀ s) :
    Keeps s₀ (s.startWork p it bytes dmaOk cqOk) := by
  unfold State.startWork
  repeat' with_reducible first
    | assumption | exact Keeps.refl _ | apply State.allocBuffer_keeps | apply State.completeItem_keeps | apply State.onPools_keeps
    | apply State.setItem_keeps | apply State.moved_keeps | apply Keeps.ite | apply Keeps.of_snd ‹_› | intro _ | dsimp only | split
theorem State.endWork_keeps {s : State} {p : Nat} {it : Item} {r : Rsp} {dmaOk cqOk : Bool} (hk : Keeps s₀ s) :
    Keeps s₀ (s.endWork p it r dmaOk cqOk) := by
  unfold State.endWork
  repeat' with_reducible first
    | assumption | exact Keeps.refl _ | apply State.onRing_keeps | apply State.completeItem_keeps | apply State.moved_keeps
    | apply State.hostWrite_keeps | apply Keeps.ite | intro _ | split
theorem execWorkItem_keeps {p : Nat} {bytes : List Byte} {dmaOk cqOk : Bool} {s : State} (hk : Keeps s₀ s) :
    KeepsOut s₀ (execWorkItem p bytes dmaOk cqOk s) := by
  unfold execWorkItem
  repeat' with_reducible first
    | assumption | exact Keeps.refl _ | apply keeps_when | apply State.endWork_keeps | apply State.startWork_keeps | apply Keeps.ite
    | apply KeepsOut.unit | intro _ | split

/-! ### Machine/Compare.lean -/

theorem State.compareUnit_keeps {s : State} {key level unit : Nat} {mbs : List Nat} {x : Pairing} (hk : Keeps s₀ s) :
    Keeps s₀ (s.compareUnit key level unit mbs x) := by
  unfold State.compareUnit
  repeat' with_reducible first
    | assumption | exact Keeps.refl _ | apply State.onFault_keeps | apply State.postAll_keeps | apply Keeps.ite | intro _ | split
theorem State.compareAll_keeps {s : State} (hk : Keeps s₀ s) : Keeps s₀ s.compareAll := by
  unfold State.compareAll
  repeat' with_reducible first
    | assumption | exact Keeps.refl _ | apply keeps_forEach | apply State.compareUnit_keeps | intro _ | split
theorem execStateComparison_keeps {s : State} (hk : Keeps s₀ s) : KeepsOut s₀ (execStateComparison s) := by
  unfold execStateComparison
  repeat' with_reducible first
    | assumption | exact Keeps.refl _ | apply keeps_when | apply State.compareAll_keeps | apply State.onFault_keeps | apply KeepsOut.next | intro _
    | split

/-! ### Machine/Boot.lean -/

theorem State.recordPick_keeps {s : State} {base : Nat} {p : Pick} (hk : Keeps s₀ s) : Keeps s₀ (s.recordPick base p) := by
  unfold State.recordPick
  repeat' with_reducible first
    | assumption | exact Keeps.refl _ | apply State.ledgerWrite_keeps | apply keeps_foldl | intro _ | dsimp only | split
theorem State.bootFailed_keeps {s : State} {cause : Nat} (hk : Keeps s₀ s) : Keeps s₀ (s.bootFailed cause) := by
  unfold State.bootFailed
  repeat' with_reducible first
    | assumption | exact Keeps.refl _ | apply State.raiseIrq_keeps | apply State.onFault_keeps | (refine State.onCtl_same ?_ (fun _ => rfl))
    | intro _ | split
theorem State.mismatchPost_keeps {s : State} {subject cause type unit : Nat} (hk : Keeps s₀ s) :
    Keeps s₀ (s.mismatchPost subject cause type unit) := by
  unfold State.mismatchPost
  repeat' with_reducible first
    | assumption | exact Keeps.refl _ | apply State.post_keeps | intro _ | split
theorem State.useRecord_keeps {α : Type} {s : State} {t : Nat} {v : Option (Option α)} {f : α → State → State} (hk : Keeps s₀ s)
    (h : ∀ x u, Keeps s₀ u → Keeps s₀ (f x u)) : Keeps s₀ (s.useRecord t v f) := by
  unfold State.useRecord; split
  · exact h _ _ hk
  · exact State.mismatchPost_keeps hk
  · exact hk
theorem State.readPlaybill_keeps {s : State} {a b : Option (List Byte)} {resumed : Bool} (hk : Keeps s₀ s) :
    Keeps s₀ (s.readPlaybill a b resumed) := by
  unfold State.readPlaybill
  repeat' with_reducible first
    | assumption | exact Keeps.refl _ | apply State.onPower_keeps | apply State.onSurr_keeps | apply State.mismatchPost_keeps
    | apply State.useRecord_keeps | apply Keeps.ite | intro _ | dsimp only | split
theorem State.judgeMemory_keeps {s : State} (hk : Keeps s₀ s) : Keeps s₀ s.judgeMemory := by
  unfold State.judgeMemory
  repeat' with_reducible first
    | assumption | exact Keeps.refl _ | apply State.onMem_keeps | apply keeps_forEach | apply State.mismatchPost_keeps | apply State.report_keeps
    | apply Keeps.ite | intro _ | split
theorem State.emptied_keeps {s : State} (hk : Keeps s₀ s) : Keeps s₀ s.emptied := hk.trans ⟨rfl, rfl, fun h => h, fun h => h⟩
theorem State.restored_keeps {s : State} (hk : Keeps s₀ s) : Keeps s₀ s.restored := by
  unfold State.restored
  repeat' with_reducible first
    | assumption | exact Keeps.refl _ | apply State.abandonCommits_keeps | apply keeps_forEach | apply State.retire_keeps
    | (refine State.onCmd_same ?_ (fun _ => rfl)) | (refine State.onHost_same ?_ (fun _ => ⟨rfl, rfl⟩)) | apply Keeps.ite | intro _ | split
theorem State.bootUnderstudy_keeps {s : State} {b : BootInput} (hk : Keeps s₀ s) : Keeps s₀ (s.bootUnderstudy b) := by
  unfold State.bootUnderstudy
  repeat' with_reducible first
    | assumption | exact Keeps.refl _ | (refine State.onCtl_same ?_ (fun _ => rfl)) | apply State.post_keeps | apply Keeps.ite | intro _ | split
theorem State.bootHouse_keeps {s : State} {b : BootInput} {root service : Nat × Image} (hk : Keeps s₀ s) : Keeps s₀ (s.bootHouse b root service) := by
  unfold State.bootHouse
  repeat' with_reducible first
    | assumption | exact Keeps.refl _ | apply State.emptied_keeps | apply State.onPower_keeps | (refine State.onCtl_same ?_ (fun _ => rfl))
    | apply State.onFault_keeps | apply State.readPlaybill_keeps | apply State.restored_keeps | (refine State.onCmd_same ?_ (fun _ => rfl))
    | apply State.reportMode_keeps | apply State.setMode_keeps | (exact fun _ => by decide) | apply State.judgeMemory_keeps | apply keeps_forEach
    | apply State.insertModule_keeps | apply State.bootUnderstudy_keeps | apply State.recompute_keeps | apply Keeps.ite | intro _ | split
theorem State.slots_keeps {s : State} {b : BootInput} (hk : Keeps s₀ s) : Keeps s₀ (s.slots b) := by
  unfold State.slots
  repeat' with_reducible first
    | assumption | exact Keeps.refl _ | (refine State.onCtl_same ?_ (fun _ => rfl)) | intro _ | split
theorem execStartUp_keeps {b : BootInput} {s : State} (hk : Keeps s₀ s) : KeepsOut s₀ (execStartUp b s) := by
  unfold execStartUp
  repeat' with_reducible first
    | assumption | exact Keeps.refl _ | apply keeps_when | apply State.ledgerWrite_keeps | apply State.slots_keeps | apply State.recordPick_keeps
    | apply State.bootFailed_keeps | (refine State.onCtl_same ?_ (fun _ => rfl)) | apply State.bootHouse_keeps | apply Keeps.ite
    | apply KeepsOut.next | intro _ | dsimp only | split

/-! ### Machine/Diag.lean -/

theorem State.diagPut_keeps {s : State} {d : DiagTarget} {v : Nat} (hk : Keeps s₀ s) : Keeps s₀ (s.diagPut d v) := by
  unfold State.diagPut
  repeat' with_reducible first
    | assumption | exact Keeps.refl _ | apply State.putWord_keeps | apply State.onTab_keeps | apply Keeps.ite | intro _ | split
theorem State.backHashed_keeps {s new : State} {i : Inst} {t b key : Nat} (hk : Keeps s₀ s) : Keeps s₀ (s.backHashed new i t b key) := by
  unfold State.backHashed
  repeat' with_reducible first
    | assumption | exact Keeps.refl _ | apply State.putBacks_keeps | apply keeps_foldl | intro _ | split
theorem State.backDirects_keeps {s new : State} {i : Inst} {t : Nat} {w : Nat × Nat × Nat} (hk : Keeps s₀ s) :
    Keeps s₀ (s.backDirects new i t w) := by
  unfold State.backDirects
  repeat' with_reducible first
    | assumption | exact Keeps.refl _ | apply State.putBacks_keeps | apply keeps_foldl | intro _ | split
theorem State.backPaddock_keeps {s : State} {d : DiagTarget} {v : Nat} (hk : Keeps s₀ s) : Keeps s₀ (s.backPaddock d v) := by
  unfold State.backPaddock
  repeat' with_reducible first
    | assumption | exact Keeps.refl _ | apply State.backHashed_keeps | apply State.backDirects_keeps | apply keeps_foldl | apply Keeps.ite | intro _
    | split
theorem State.backRule_keeps {s : State} {d : DiagTarget} {v : Nat} (hk : Keeps s₀ s) : Keeps s₀ (s.backRule d v) := by
  unfold State.backRule
  repeat' with_reducible first
    | assumption | exact Keeps.refl _ | apply State.onTab_keeps | apply State.onBlock_keeps | intro _ | split
theorem State.backNode_keeps {s : State} {d : DiagTarget} {v : Nat} (hk : Keeps s₀ s) : Keeps s₀ (s.backNode d v) := by
  unfold State.backNode
  repeat' with_reducible first
    | assumption | exact Keeps.refl _ | apply State.onGraphs_keeps | apply State.onTab_keeps | intro _ | dsimp only | split
theorem State.diagBack_keeps {s : State} {d : DiagTarget} {v : Nat} (hk : Keeps s₀ s) : Keeps s₀ (s.diagBack d v) := by
  unfold State.diagBack
  repeat' with_reducible first
    | assumption | exact Keeps.refl _ | apply State.backPaddock_keeps | apply State.backRule_keeps | apply State.backNode_keeps | apply Keeps.ite
    | intro _ | split
theorem execDiagRead_keeps {s : State} (hk : Keeps s₀ s) : KeepsOut s₀ (execDiagRead s) := by
  unfold execDiagRead
  repeat' with_reducible first
    | assumption | exact Keeps.refl _ | apply keeps_when | apply State.onCount_keeps | apply KeepsOut.next | intro _ | split
theorem execDiagWrite_keeps {backingToo : Bool} {s : State} (hk : Keeps s₀ s) : KeepsOut s₀ (execDiagWrite backingToo s) := by
  unfold execDiagWrite
  repeat' with_reducible first
    | assumption | exact Keeps.refl _ | apply keeps_when | apply State.onCount_keeps | apply State.diagBack_keeps | apply State.post_keeps
    | apply State.bump_keeps | apply State.diagPut_keeps | apply Keeps.ite | apply KeepsOut.next | intro _ | split
theorem execDiagComplete_keeps {s : State} (hk : Keeps s₀ s) : KeepsOut s₀ (execDiagComplete s) := by
  unfold execDiagComplete
  repeat' with_reducible first
    | assumption | exact Keeps.refl _ | apply State.raiseIrq_keeps | apply State.onCount_keeps | apply KeepsOut.next | intro _ | split

/-! ### Machine/Regs.lean -/

theorem State.onVec_keeps {s : State} {v : Nat} {f : IrqVec → IrqVec} (hk : Keeps s₀ s) : Keeps s₀ (s.onVec v f) := by
  unfold State.onVec
  repeat' with_reducible first
    | assumption | exact Keeps.refl _ | (refine State.onHost_same ?_ (fun _ => ⟨rfl, rfl⟩)) | intro _ | split
theorem State.returns_keeps {s : State} {v : Nat} (hk : Keeps s₀ s) : Keeps s₀ (s.returns v) := by
  unfold State.returns
  repeat' with_reducible first
    | assumption | exact Keeps.refl _ | apply State.onCount_keeps | intro _ | split
theorem State.clearStat_keeps {s : State} {a : Nat} (hk : Keeps s₀ s) : Keeps s₀ (s.clearStat a) := by
  unfold State.clearStat
  repeat' with_reducible first
    | assumption | exact Keeps.refl _ | apply State.onPort_keeps | apply Keeps.ite | intro _ | split
theorem State.hostRead_keeps {s : State} {addr : Nat} (hk : Keeps s₀ s) : Keeps s₀ (s.hostRead addr) := by
  unfold State.hostRead
  repeat' with_reducible first
    | assumption | exact Keeps.refl _ | apply State.returns_keeps | apply State.clearStat_keeps | apply State.onCount_keeps | apply Keeps.ite
    | intro _ | split
theorem execStatisticsClearingRead_keeps {l i : Nat} {s : State} (hk : Keeps s₀ s) : KeepsOut s₀ (execStatisticsClearingRead l i s) := by
  unfold execStatisticsClearingRead
  repeat' with_reducible first
    | assumption | exact Keeps.refl _ | apply State.returns_keeps | apply State.hostRead_keeps | apply Keeps.ite | apply KeepsOut.next | intro _
    | split
theorem execViewLatchRead_keeps {addr : Nat} {s : State} (hk : Keeps s₀ s) : KeepsOut s₀ (execViewLatchRead addr s) := by
  unfold execViewLatchRead
  repeat' with_reducible first
    | assumption | exact Keeps.refl _ | apply State.hostRead_keeps | apply KeepsOut.next | intro _ | split
theorem execUcsWordsRead_keeps {s : State} (hk : Keeps s₀ s) : KeepsOut s₀ (execUcsWordsRead s) := by
  unfold execUcsWordsRead
  repeat' with_reducible first
    | assumption | exact Keeps.refl _ | apply keeps_when | apply State.hostRead_keeps | apply State.onCount_keeps | apply KeepsOut.next | intro _
    | split
theorem State.lockedWrite_keeps {s : State} {a : Nat} (hk : Keeps s₀ s) : Keeps s₀ (s.lockedWrite a) := by
  unfold State.lockedWrite
  repeat' with_reducible first
    | assumption | exact Keeps.refl _ | apply State.report_keeps | intro _ | split
theorem execDevResetKey_keeps {value : Nat} {s : State} (hk : Keeps s₀ s) : KeepsOut s₀ (execDevResetKey value s) := by
  unfold execDevResetKey
  repeat' with_reducible first
    | assumption | exact Keeps.refl _ | apply keeps_when | apply State.onCount_keeps | apply KeepsOut.next | intro _ | split
theorem execDevResetDisarm_keeps {s : State} (hk : Keeps s₀ s) : KeepsOut s₀ (execDevResetDisarm s) := by
  unfold execDevResetDisarm
  repeat' with_reducible first
    | assumption | exact Keeps.refl _ | apply State.onCount_keeps | apply Keeps.ite | apply KeepsOut.next | intro _ | split
theorem execDevReset_keeps {value : Nat} {s : State} (hk : Keeps s₀ s) : KeepsOut s₀ (execDevReset value s) := by
  unfold execDevReset
  repeat' with_reducible first
    | assumption | exact Keeps.refl _ | apply keeps_when | apply State.resetToLoad_keeps | apply State.lockedWrite_keeps | apply Keeps.ite
    | apply KeepsOut.next | intro _ | split
theorem State.ucsRefuse_keeps {s : State} {cause w : Nat} (hk : Keeps s₀ s) : Keeps s₀ (s.ucsRefuse cause w) := by
  unfold State.ucsRefuse
  repeat' with_reducible first
    | assumption | exact Keeps.refl _ | apply State.raiseIrq_keeps | apply State.post_keeps | apply State.onCount_keeps | intro _ | split
theorem execUcsDwordLoad_keeps {w k value be : Nat} {s : State} (hk : Keeps s₀ s) : KeepsOut s₀ (execUcsDwordLoad w k value be s) := by
  unfold execUcsDwordLoad
  repeat' with_reducible first
    | assumption | exact Keeps.refl _ | apply keeps_when | apply State.ucsRefuse_keeps | apply State.onCount_keeps | apply Keeps.ite
    | apply KeepsOut.unit | intro _ | split
theorem execUcsWordWrite_keeps {w value be : Nat} {s : State} (hk : Keeps s₀ s) : KeepsOut s₀ (execUcsWordWrite w value be s) := by
  unfold execUcsWordWrite
  repeat' with_reducible first
    | assumption | exact Keeps.refl _ | apply keeps_when | apply State.ucsRefuse_keeps | apply State.setBatch_keeps | apply State.onEdit_keeps
    | apply State.putUword_keeps | apply State.onCount_keeps | apply KeepsOut.unit | intro _ | dsimp only | split
theorem State.writeRing_keeps {s : State} {p o v : Nat} (hk : Keeps s₀ s) : Keeps s₀ (s.writeRing p o v) := by
  unfold State.writeRing
  repeat' with_reducible first
    | assumption | exact Keeps.refl _ | apply State.onRing_keeps | apply State.lockedWrite_keeps | apply Keeps.ite | intro _ | split
theorem State.writeIrq_keeps {s : State} {o v : Nat} (hk : Keeps s₀ s) : Keeps s₀ (s.writeIrq o v) := by
  unfold State.writeIrq
  repeat' with_reducible first
    | assumption | exact Keeps.refl _ | apply State.onVec_keeps | (refine State.onHost_same ?_ (fun _ => ⟨rfl, rfl⟩)) | apply Keeps.ite | intro _
    | split
theorem State.writeReg_keeps {s : State} {a v : Nat} (hk : Keeps s₀ s) : Keeps s₀ (s.writeReg a v) := by
  unfold State.writeReg
  repeat' with_reducible first
    | assumption | exact Keeps.refl _ | apply State.onCount_keeps | apply State.onMb_keeps | apply State.writeRing_keeps | apply State.writeIrq_keeps
    | apply State.putInjector_keeps | apply Keeps.ite | intro _ | split
theorem execRegisterWrite_keeps {addr value be : Nat} {s : State} (hk : Keeps s₀ s) : KeepsOut s₀ (execRegisterWrite addr value be s) := by
  unfold execRegisterWrite
  repeat' with_reducible first
    | assumption | exact Keeps.refl _ | apply keeps_when | apply keeps_forEach | apply State.writeArea_keeps | apply State.writeReg_keeps
    | apply Keeps.ite | apply KeepsOut.next | intro _ | split

/-! ### Machine/Tap.lean -/

theorem execTestAccessPort_keeps {trstLow tms tdi resetLow : Bool} {pins : List Bool} {s : State} (hk : Keeps s₀ s) :
    KeepsOut s₀ (execTestAccessPort trstLow tms tdi resetLow pins s) := by
  unfold execTestAccessPort
  repeat' with_reducible first
    | assumption | exact Keeps.refl _ | apply State.onCount_keeps | (refine State.onCtl_same ?_ (fun _ => rfl)) | apply Keeps.ite
    | apply KeepsOut.next | intro _ | split

/-! ### Machine/Tick.lean -/

theorem State.pipeSlots_keeps {s : State} {t : Nat} (hk : Keeps s₀ s) : Keeps s₀ (s.pipeSlots t) := by
  unfold State.pipeSlots
  repeat' with_reducible first
    | assumption | exact Keeps.refl _ | apply State.onSw_keeps | apply State.bumpN_keeps | apply State.bump_keeps | intro _ | split
theorem State.dresserSlots_keeps {s : State} {t : Nat} (hk : Keeps s₀ s) : Keeps s₀ (s.dresserSlots t) := by
  unfold State.dresserSlots
  repeat' with_reducible first
    | assumption | exact Keeps.refl _ | apply State.onSw_keeps | apply State.bumpN_keeps | intro _ | split
theorem State.holdCount_keeps {s : State} {q : Nat} (hk : Keeps s₀ s) : Keeps s₀ (s.holdCount q) := by
  unfold State.holdCount
  repeat' with_reducible first
    | assumption | exact Keeps.refl _ | apply State.arr_keeps | intro _ | dsimp only | split
theorem State.pclkEdge_keeps {s : State} (hk : Keeps s₀ s) : Keeps s₀ s.pclkEdge := by
  unfold State.pclkEdge
  repeat' with_reducible first
    | assumption | exact Keeps.refl _ | apply keeps_forEach | apply State.dresserSlots_keeps | apply State.pipeSlots_keeps
    | apply State.holdCount_keeps | intro _ | split

end Sys2Proof.Machine
end

