-- ==== Sys2Proof/Tests/Slice0.lean ====
section
/-! SUPPORT. Tests: an ill-formed term for each check of WellFormed, the worked examples of the manual, and for each statement a state and
operands that meet its hypotheses. Expected values come from the manual's own examples. -/
namespace Sys2Proof.Tests
open Sys2Proof Sys2Proof.Machine
set_option Elab.async false

/-! ### Small states and messages -/

/-- The state after reset, in a mode. -/
def at_ (mode : Nat) : State := State.reset.onCmd (fun c => { c with mode := mode })
/-- HOUSE. -/
def house : State := at_ Md.house
/-- RUN. -/
def run : State := at_ Md.run
/-- HOUSE, with the clock at a number of seconds. -/
def later (sec : Nat) : State := { house with now := tkS sec }
/-- A payload of numbers below 256. -/
def octets (l : List Nat) : List Byte := l.map (fun n => BitVec.ofNat 8 n)
/-- A message of a mailbox. -/
def msg (r : Nat) (payload : List Nat) : Msg :=
  { lane := .mailbox r, tag := 1, seq := 1, replaySafe := false, async := false, payload := octets payload, ext := none }
/-- A message whose command waits on an outside device, with that device's answer. -/
def msgExt (r : Nat) (payload answer : List Nat) : Msg := { msg r payload with ext := some (octets answer) }

/-- What `Admitted` asks, as one test. -/
def admits_ (o : Op) (m : Msg) (s : State) : Bool :=
  laneOk m.lane && !s.ctl.noService && !s.journalFull m && (judge o m (s.intake o m)).isNone &&
    !s.fault.standing.contains Fc.memChannelLost
theorem admitted {o : Op} {m : Msg} {s : State} (h : admits_ o m s = true) : Admitted o m s := by
  simp only [admits_, Bool.and_eq_true, Bool.not_eq_true'] at h
  obtain ⟨⟨⟨⟨h1, h2⟩, h3⟩, h4⟩, h5⟩ := h
  exact ⟨h1, h2, h3, by simpa using h4, Or.inl h5⟩

/-- A row's hypotheses are met: some message and state are admitted and meet its condition. -/
def Meets (o : Op) (ok : Msg → State → Prop) : Prop := ∃ m s, Admitted o m s ∧ ok m (s.intake o m)
theorem meets {o : Op} {ok : Msg → State → Prop} (m : Msg) (s : State) (h : admits_ o m s = true) (hok : ok m (s.intake o m)) : Meets o ok :=
  ⟨m, s, admitted h, hok⟩

/-- The same for a chunked load. -/
def MeetsLoad (o : Op) (kind : Nat) (ok : State → Nat → Prop) : Prop :=
  ∃ m s a, Admitted o m s ∧ firstRefusal (chunkChecks m) = none ∧
    takeChunk ((s.intake o m).assembly ((s.intake o m).stageOf m) kind) m = .taken a ∧
    (a.final = true → (s.intake o m).atLimit m = false) ∧ ok (s.intake o m) ((s.intake o m).stageOf m)
theorem meetsLoad {o : Op} {kind : Nat} {ok : State → Nat → Prop} (m : Msg) (s : State) (a : Assembly) (h : admits_ o m s = true)
    (hok : firstRefusal (chunkChecks m) = none ∧ takeChunk ((s.intake o m).assembly ((s.intake o m).stageOf m) kind) m = .taken a ∧
      (a.final = true → (s.intake o m).atLimit m = false) ∧ ok (s.intake o m) ((s.intake o m).stageOf m)) : MeetsLoad o kind ok :=
  ⟨m, s, a, admitted h, hok⟩

/-- A configuration of eight 400G lanes with the peer tag, MAX_FRAME 1,518 and ADMIN UP. -/
def cfg8 : Nat := 3 * 2 ^ 59 + 2 * 2 ^ 57 + 2 ^ 56 + 1518 * 2 ^ 14 + 2 ^ 10
/-- The same without the peer tag. -/
def cfgPlain : Nat := 3 * 2 ^ 59 + 2 * 2 ^ 57 + 1518 * 2 ^ 14 + 2 ^ 10
/-- A sub-port that is UP in a state. -/
def lportUp (s : State) (l cfg : Nat) : State := s.onLport l (fun y => { y with cfg := some cfg, oper := 2 })
/-- An accepted command not completed. -/
def outst (opcode : Nat) (payload : List Nat) : Outst :=
  { opcode := opcode, tag := 1, seq := 1, acceptedAt := 0, pair := none, replaySafe := false, payload := octets payload }
def withOut (s : State) (r opcode : Nat) (payload : List Nat) : State := s.onMb r (fun b => { b with outstanding := [outst opcode payload] })
/-- A service image that passes. -/
def fwImage : Image :=
  { magicOk := true, kind := 2, svn := 63, version := 1, build := 0, vendorOk := true, ownerOk := true, ownerHash := 0, measure := 9 }
/-- A side stage that holds port 47. -/
def side (state : Nat) : Stage := { Stage.absent with state := state, ports := 2 ^ 47 }
/-- A module ready in cage 47, with an application for lane 0. -/
def withModule (s : State) (state step : Nat) : State := s.onModule 47 (fun m => { m with state := state, step := step, appSel := [(0, 1)] })


/-- A module as its pages describe it. -/
def aModule (serial : Nat) : ModuleId :=
  { identifier := 0x19, cmis := true, vendor := [], part := [], serial := serial, firmware := 1, power := 48, apps := [(0xC4, 8, 1)],
    pwrUpMs := 10, dpInitMs := 100 }
/-- Cage 47 with a module in a state and step of its bring-up, named by its pages. -/
def caged (s : State) (state step : Nat) : State := s.onModule 47 (fun m => { m with state := state, step := step, id := some (aModule 7) })
/-- A ledger that knows a record. -/
def ledgered (s : State) (type : Nat) (body : List Byte) : State :=
  s.onBook (fun b => { b with ledger := [{ type := type, lseq := 0, calendar := 0, sector := 0, body := body }] })
/-- A Yetuesh image of a kind from its sections, and one section. -/
def image (kind n : Nat) (body : List Byte) : List Byte :=
  let h := leBytes 4 0x48535459 ++ leBytes 2 1 ++ leBytes 1 kind ++ leBytes 1 n ++ leBytes 4 (64 + body.length) ++ leBytes 4 0x153600B1 ++ zeros 44
  h ++ leBytes 4 (crc32c (h ++ body)) ++ body
def section_ (t : Nat) (b : List Byte) : List Byte := leBytes 4 t ++ leBytes 4 b.length ++ b
/-- A graph of one node that accepts every frame, one whose only node has a reserved bit set, and one of a wrong length. -/
def graphImage (node : Nat) : List Byte :=
  image 1 1 (section_ 1 (leBytes 2 1 ++ zeros 6 ++ leBytes 1 32 ++ zeros 7 ++ leBytes 80 node))
def goodNode : Nat := 0x200 * 2 ^ 558
/-- A pattern set of class records alone, the same record for each of the eight classes. -/
def setImage (r : Nat) : List Byte := image 2 1 (section_ 3 (leBytes 4 r ++ leBytes 4 r ++ leBytes 4 r ++ leBytes 4 r ++ leBytes 4 r ++ leBytes 4 r ++ leBytes 4 r ++ leBytes 4 r))
/-- An edit program of one word at the base of S0's range. -/
def editImage (w : Nat) : List Byte := image 3 1 (section_ 1 (leBytes 2 6144 ++ leBytes 2 1 ++ zeros 12 ++ leBytes 16 w))
/-- S0 has a complete image awaiting validation. -/
def checking (kind : Nat) (img : List Byte) : State := house.onTab (fun t => { t with checking := [(kind, img)] })
/-- A chunk of a load. -/
def chunk (offset total final : Nat) (data : List Nat) : Msg :=
  { msg 0 [] with payload := leBytes 4 offset ++ leBytes 4 total ++ leBytes 1 final ++ zeros 3 ++ octets data }
/-- A graph and a set in use and staged. -/
def bound : State := house.onTab (fun t => { t with
  graphs := [(0, { cur := some (graphOf (graphImage goodNode)), next := some (graphOf (graphImage goodNode)), old := none, split := false })],
  sets := [(0, { cur := some (patSetOf (setImage 0)), next := none, old := none, split := false })] })
/-- A survey job in tile 7. -/
def aSurvey : Survey :=
  { tile := 7, stage := 0, ver := 0, handle := 0x10001, query := none, data := octets [1, 2, 3], auto := [], startedAt := 0, done := false, record := [] }
def surveying (now : Nat) : State := ({ house with now := now }).onTab (fun t => { t with surveys := [(0x10001, aSurvey)] })
/-- The buffer that holds a survey's bytes. -/
def aBuffer : Buffer :=
  { owner := 64, stage := 0, gen := 1, since := 0, retained := true, warned := false, quarantined := false, data := octets [1, 2, 3] }
/-- A message with a payload. -/
def msgOf (r : Nat) (payload : List Byte) : Msg := { msg r [] with payload := payload }
/-- An instance of a kind with its last paddock in every tile. -/
def anInst (kind p : Nat) : Inst :=
  { kind := kind, split := false, p := p, seed1 := 1, seed2 := 2, pads := (range 0 8).map (fun t => (t, (range (96 - p) p))), ready := true }
/-- HOUSE with an instance of S0 in its current version. -/
def instanced (kind p : Nat) : State := house.onInsts 0 kind (fun b => { b with cur := some (anInst kind p) })
/-- Record of an L2 entry. -/
def l2Record (v : Nat) : List Byte := leBytes 1 1 ++ leBytes 1 1 ++ leBytes 1 255 ++ zeros 5 ++ leBytes 16 v
theorem leNat_zeros (n : Nat) : leNat (List.replicate n 0#8) = 0 := by
  induction n with
  | zero => rfl
  | succ n ih => simp [List.replicate_succ, leNat, ih]
theorem fieldLE_zeros (n i k : Nat) : fieldLE (zeros n) i k = 0 := by
  simp [fieldLE, sliceB, zeros, List.drop_replicate, List.take_replicate, leNat_zeros]
/-- A profile of zeros is a good one. -/
theorem profile_zeros (n : Nat) (s : State) (k : Nat) : profileBad (msgOf 0 (zeros n)) s k = false := by
  have h8 (i : Nat) : (msgOf 0 (zeros n)).u8 i = 0 := fieldLE_zeros n i 1
  have h16 (i : Nat) : (msgOf 0 (zeros n)).u16 i = 0 := fieldLE_zeros n i 2
  have h32 (i : Nat) : (msgOf 0 (zeros n)).u32 i = 0 := fieldLE_zeros n i 4
  have hz (i k : Nat) : (msgOf 0 (zeros n)).zero i k = true := by
    simp [Msg.zero, zeroAt, sliceB, msgOf, zeros, List.drop_replicate, List.take_replicate]
  have h0 : range 0 0 = [] := rfl
  simp [profileBad, h8, h16, h32, hz, h0]
/-- A rule, and a block of S0 that holds it at a position. -/
def aRule : Rule := { vmask := 2, stage := 0, chk := 0, value := 0, mask := 0, action := 0, prio := 1, ruleId := 9, arrival := 1 }
def ruled (pos : Nat) : State := house.onBlock 31 (fun b => { b with rules := [(pos, aRule)] })
def inVersion (v : Ver) : State := house.onVer 0 (fun _ => v)
/-- A provision with its verdict known. -/
def aProv : Prov := { tile := 7, stage := 0, vid := 1, mac := 2, lport := 0, seq := 0, verdict := some true }
/-- A packet of tile 7 in a phase: 300 bytes from lport 376 to lport 0. -/
def aPkt (ph : Phase) : Pkt := { Pkt.zero with phase := ph, tile := 7, src := 40, ctx := { Ctx.zero with inLport := 376, exit := 0, len := 300 } }
/-- RUN with one packet, number 5, and lports 376 and 0 up. -/
def holding (p : Pkt) : State :=
  (lportUp (lportUp run 376 cfgPlain) 0 cfgPlain).onSw (fun w => { w with pkts := [(5, p)], nextPkt := 6 })
/-- A graph of one node, placed in tile 7. -/
def placed : Graph := { graphOf (graphImage goodNode) with words := [(7, [1023])] }
def aScan (latest : Nat) : Pkt := { aPkt .lookedUp with scan := { Scan.none with st := 1, mode := 2, latest := latest } }
def aReturn : GrantBack := { exit := 383, cls := 7, stage := 0, pkt := 5, busyBefore := 0, rotBefore := 8, passed := false }
/-- The packet whole and its tail good, in a phase; first in its VOQ. -/
def whole (ph : Phase) : Pkt := { aPkt ph with verdict := some true }
def queued (ph : Phase) (key : Nat) : State := (holding (whole ph)).onVoq key (fun _ => [5])
/-- The packet in exit 0's hands, with cells launched and arrived. -/
def going (ph : Phase) (launched arrived : Nat) : Pkt := { whole ph with launched := launched, arrived := arrived }
def sending (p : Pkt) : State := (holding p).onEg 0 (fun e => { e with frame := some 5, outOrder := [5] })
/-- The packet in a dresser, with its edit program at a word. -/
def dressed (entry : Nat) : Pkt := { going .dresser 2 2 with ctx := { (aPkt .dresser).ctx with editEntry := entry } }
/-- Two channels in service, with 2 GiB of each region and 100 GB/s of its bandwidth for S0, its meters full. -/
def aDimm : Dimm := { capacity := 64, ranks := 2, width := 4, speed := 8800, supported := true, crcOk := true, segments := 0, serial := 1 }
def aShare : Share := { Share.reset with space := 2, bw := 1000, tokens := 10 ^ 14 }
def withDram (s : State) : State := s.onMem (fun m => { m with
  channels := [(0, { Channel.reset with state := 3, dimm := some aDimm }), (7, { Channel.reset with state := 3, dimm := some aDimm })],
  shares := [(2, aShare), (3, aShare), (4, aShare)], spill := 2, flow := 2, capture := 2 })
def aSheet : CueSheet := { base := 0, cycle := 1000, entries := [(255, 16)] }
/-- A submission entry: length, and where it goes. -/
def anEntry (exit : Nat) : List Byte := zeros 8 ++ leBytes 2 60 ++ zeros 2 ++ leBytes 2 exit ++ zeros 18
def anItem (exit : Nat) (ph : ItemPhase) (buffer : Option Nat) : Item := { id := 0, entry := anEntry exit, phase := ph, buffer := buffer }
/-- RUN with ring pair 63 of S0, of a kind, that runs and holds one item. -/
def ringed (s : State) (kind : Nat) (it : Item) : State :=
  s.onRing 63 (fun g => { g with kind := kind, hostq := 7, assigned := true, enable := true, state := 1, items := [it], sqProd := 1 })
/-- A frame for host queue 7 of S0 at the head of its lane. -/
def toHost : Pkt := { whole .queued with ctx := { (aPkt .queued).ctx with exit := 391 } }
def punting : State := (holding toHost).onVoq (voqKey 7 391 7 0) (fun _ => [5])
/-- HOUSE with the time unit set. -/
def timed (now : Nat) (f : TimeSt → TimeSt) : State := { house with now := now }.onTime f
/-- A fault record of a paddock of tile 7, its open entry, and RUN with it open. -/
def aRecord : FaultRec :=
  { sev := 2, cls := Fc.tableUe, level := Lv.tile, unit := 7, stage := 0, master := 0, access := 0, address := 5, time := 0, seq := 9, flags := 0, detail := 0 }
def faulty : State := run.onFault (fun f => { f with
  opened := [{ record := aRecord, sev := 2, windowEnd := some (tkMs 10), taken := false, suppress := false }] })
/-- An injector's configuration for a checker, and REHEARSAL with injector 15. -/
def injCfg (checker : Nat) : List Byte := octets [15, checker, 255, 2, 0, 0, 0, 0, 0, 0, 0, 0, 1, 0, 2, 1]
def injecting (checker st remaining : Nat) : State := (at_ Md.rehearsal).putInjector 15 { cfg := injCfg checker, state := st, remaining := remaining }
/-- A mailbox that firmware has enabled, changed further. -/
def mailed (r : Nat) (f : Mailbox → Mailbox) : State := house.onMb r (fun b => f { b with enabled := true })
def anIn : InMsg := { seq := 1, len := 16, bytes := zeros 16, visibleAt := 0 }
def aRsp : Rsp := { opcode := 1, tag := 7, seq := 1, stage := 0, status := 0, payload := [] }
def anEv : EvRec := { code := 5, level := 1, unit := 0, time := 0, tag := 0, status := 0, payload := [], completion := false }
/-- A ring pair 63 of S0 that runs, changed further. -/
def ringOf (f : Ring → Ring) : State := (ringed house 2 (anItem 0 .waiting none)).onRing 63 f
def aJob : DumpJob := { pair := 63, mb := 0, opcode := 0x1306, tag := 1, left := zeros 100, fragment := 0 }
def dumpItem (len : Nat) : Item := { anItem 0 .waiting none with entry := zeros 8 ++ leBytes 4 len ++ zeros 20 }
def dumping (len : Nat) : State := (ringed run 3 (dumpItem len)).onHost (fun h => { h with dumps := [aJob] })
/-- A thread of complex 1, core 3, changed, in HOUSE. -/
def threaded (f : Thread → Thread) : State := house.onThread 127 f
/-- A start that finds one image of each kind, in slot A. -/
def bootInput : BootInput :=
  { rootA := some { fwImage with kind := 1 }, rootB := none, serviceA := some fwImage, serviceB := none, selfTest0 := true, selfTest1 := true,
    playA := none, playB := none, avs := [] }
def leading (f : ControlSt → ControlSt) : State := house.onCtl (fun c => f { c with understudy := 0 })
/-- HOUSE with its book changed; a drive of one extent in bay 3 whose share S0 holds. -/
def booked (f : RecordSt → RecordSt) : State := house.onBook f
def aDrive : Drive := { present := true, label := 0, pct := 0, critical := false, quiesced := false, extents := 1, serial := 9 }
def drived (f : RecordSt → RecordSt) : State := booked (fun b => f { b with drives := [(3, aDrive)] })
def captured (f : Capture → Capture) : State := (drived id).onCapture 4 3 f

/-! ### Well-formedness -/

/-- One ill-formed term for each check of WellFormed: each is refused. -/
theorem test_wf_refuses_1 :
    ([
    .stageReady 5, .stageReady 0, .stageResized 5, .stageResized 0, .stageDissolved 5, .stageDissolved 0, .graphStaged 5 false,
    .instanceReady 5 0, .instanceReady 0 16, .commitArming 5 false, .versionFlip 5, .drainComplete 5, .drainExpired 5, .versionRetired 5,
    .sweepPass 5, .respaced 32, .patternStaged 5 false, .editStaged 5 false, .commandTake (.mailbox 8) none, .commandTake (.urgent 8) none,
    .commandTake (.work 64) none, .responseDelivery 8 false, .eventPost 8, .frameReceive 384 [] false false false, .pipePlacement 8 0,
    .patternScan 8 0 0 0 0, .specReturn 384, .reorderRelease 8 0, .reorderRelease 0 50, .lateRelease 8 0, .lateRelease 0 50,
    .xoffRefresh 384 0, .xoffRefresh 0 9, .xonSend 384 0, .xonSend 0 9, .egressGrant 384 0 false, .egressGrant 391 0 false,
    .egressGrant 400 0 false, .multicastReplication 8 0, .provisionVerdict 8, .staticLearnedRemoval 5, .moveStorm 8 0, .moveStorm 0 5,
    .ageingVisit 8 0 0 0 false, .ageingVisit 0 96 0 0 false, .ageingVisit 0 0 8192 0 false, .ageingVisit 0 0 0 4 false,
    .paddockScrub 8 0 0 0 0, .paddockScrub 0 96 0 0 0, .paddockScrub 0 0 8192 0 0, .paddockScrub 0 0 0 4 0, .poisonRepair 8 0 0 0 false,
    .poisonRepair 0 96 0 0 false, .poisonRepair 0 0 8192 0 false, .poisonRepair 0 0 0 4 false, .graphNodeRepair 8 0, .graphNodeRepair 0 1024,
    .patternRepair 8 0, .patternRepair 0 4, .editRepair 8 0 0] : List Instr).all (fun c => !c.wf) = true := by decide +kernel

/-- One ill-formed term for each check of WellFormed: each is refused. -/
theorem test_wf_refuses_2 :
    ([
    .editRepair 0 2 0, .editRepair 0 0 8192, .policerRepair 8 0, .policerRepair 0 8192, .throttleReading 2 0, .lportFlush 384,
    .flushCellsFreed 8 0, .flushCellsFreed 0 5, .foldScrub 8 0 0, .foldScrub 0 262144 0, .pauseFrameReceive 384 false 0 [],
    .pauseExpiry 384 0, .pauseExpiry 0 8, .pauseWatchdog 384 0, .pauseWatchdog 0 8, .shaperRefill 384, .gateChange 384, .cuesheetSwitch 384,
    .peerHelloSend 384, .peerHelloReceive 384 0, .peerTimeout 384, .laneFault 384, .widthChangeOrderedSet 384 0, .widthChangeOrderedSet 0 4,
    .widthChange 384, .restoreHoldExpiry 384 0, .restoreHoldExpiry 0 4, .healthWindowEnd 384 0 0 0 0, .probationStart 384 0 0 0 0,
    .probationEnd 384, .linkUp 384, .linkDown 384 0, .laneRateFallback 384, .serdesAdaptation 384 0 0, .serdesAdaptation 0 7 0,
    .refclkLaneLoss 8, .dramAlert 8 0 false, .dramAlert 0 2 false, .memChannelReset 8 false, .patrolScrub 8 0 0 0 0 0 0 0 0 false,
    .patrolScrub 0 2 0 0 0 0 0 0 0 false, .patrolScrub 0 0 0 5 0 0 0 0 0 false, .channelTraining 8 none false, .dqsOscillatorRead 8 0 false,
    .mr4Read 8 0, .retainSelfRefresh 8 0, .dimmTemperatureRead 8 0, .frameSpill 128, .frameFill 128, .frameFault 128 false,
    .threadWake 128 0 false, .rootWrite 128 0 false, .heartbeatWrite 2, .irqHoldoffExpiry 64, .mbDoorbell 8 0 0, .mbUdoorbell 8 0 0,
    .rspValidWrite 8, .urspValidWrite 8, .mbEvtConsWrite 8 0, .ringEnable 64] : List Instr).all (fun c => !c.wf) = true := by decide +kernel

/-- One ill-formed term for each check of WellFormed: each is refused. -/
theorem test_wf_refuses_3 :
    ([
    .ringDisable 64, .ringFlush 64 false, .flushDone 64 [] false false, .ringPoll 64 [] false false, .injectItem 64 [] false false,
    .injectCompletion 64 false, .puntWrite 5 0 0 0 0 0 false false, .puntWrite 0 8 0 0 0 0 false false, .puntWrite 0 0 8 0 0 0 false false,
    .puntWrite 0 0 0 8 0 0 false false, .workItem 64 [] false false, .dumpFill 64 false false, .faultReport 0 0 0 0 0 0 0 0,
    .pipeStall 8 0 0, .pipeStall 0 16 0, .dresserStall 8 0 0, .dresserStall 0 96 0, .injectorConsumed 0 0 0 0 0 0 0 0,
    .injectorConsumed 16 Fc.tableUe 0 0 0 0 0 0, .captureTriggered 5 0 0, .captureTriggered 0 4 0, .capturePostEnd 5 0, .capturePostEnd 0 4,
    .captureDone 5 0 none, .captureDone 0 4 none, .flowSample 5 0 0 0 0 0, .flowSample 0 8 0 0 0 0, .flowSample 0 0 8 0 0 0,
    .flowSample 0 0 0 8 0 0, .flowExport 5 0 0 none, .flowExport 0 2 0 none, .driveAdded 4 0 0 0 0 false, .driveRemoved 4,
    .smartRead 4 0 false, .avsStep 11 false, .temperatureReading 11 0, .thermalTrip 11, .moduleInserted 48,
    .moduleLowPower 48 0 false [] [] 0 0 0 [] 0 0, .modulePowerUp 48, .moduleReady 48, .moduleTimeout 48, .moduleInterrupt 48 false false,
    .modulePoll 48 false 0 0 false false, .moduleRemoved 48, .mgmtBusRecover 8, .statisticsClearingRead 384 0, .ucsDwordLoad 8192 0 0 0,
    .ucsDwordLoad 6144 3 0 0, .ucsDwordLoad 6143 0 0 0, .ucsWordWrite 8192 0 0, .ucsWordWrite 6143 0 0, .injArm 16, .injDisarm 16,
    .refclkLaneReturn 8, .prbsLocked 384, .prbsLockLost 384, .cgRstNRelease 48, .channelZeroingDone 8] : List Instr).all (fun c => !c.wf) = true := by decide +kernel

/-- With its operands in range each is well formed. -/
theorem test_wf_accepts_1 :
    ([
    .stageReady 1, .stageResized 1, .stageDissolved 1, .graphStaged 0 false, .instanceReady 0 0, .commitArming 0 false, .versionFlip 0,
    .drainComplete 0, .drainExpired 0, .versionRetired 0, .sweepPass 0, .respaced 0, .patternStaged 0 false, .editStaged 0 false,
    .commandTake (.mailbox 0) none, .responseDelivery 0 false, .eventPost 0, .frameReceive 0 [] false false false, .pipePlacement 0 0,
    .patternScan 0 0 0 0 0, .specReturn 0, .reorderRelease 0 0, .lateRelease 0 0, .xoffRefresh 0 0, .xonSend 0 0, .egressGrant 0 0 false,
    .multicastReplication 0 0, .provisionVerdict 0, .staticLearnedRemoval 0, .moveStorm 0 0, .ageingVisit 0 0 0 0 false,
    .paddockScrub 0 0 0 0 0, .poisonRepair 0 0 0 0 false, .graphNodeRepair 0 0, .patternRepair 0 0, .editRepair 0 0 0, .policerRepair 0 0,
    .throttleReading 0 0, .lportFlush 0, .flushCellsFreed 0 0, .foldScrub 0 0 0, .pauseFrameReceive 0 false 0 [], .pauseExpiry 0 0,
    .pauseWatchdog 0 0, .shaperRefill 0, .gateChange 0, .cuesheetSwitch 0, .peerHelloSend 0, .peerHelloReceive 0 0, .peerTimeout 0,
    .laneFault 0, .widthChangeOrderedSet 0 0, .widthChange 0, .restoreHoldExpiry 0 0, .healthWindowEnd 0 0 0 0 0, .probationStart 0 0 0 0 0,
    .probationEnd 0, .linkUp 0, .linkDown 0 0, .laneRateFallback 0] : List Instr).all (fun c => c.wf) = true := by decide +kernel

/-- With its operands in range each is well formed. -/
theorem test_wf_accepts_2 :
    ([
    .serdesAdaptation 0 0 0, .refclkLaneLoss 0, .dramAlert 0 0 false, .memChannelReset 0 false, .patrolScrub 0 0 0 0 0 0 0 0 0 false,
    .channelTraining 0 none false, .dqsOscillatorRead 0 0 false, .mr4Read 0 0, .retainSelfRefresh 0 0, .dimmTemperatureRead 0 0,
    .frameSpill 0, .frameFill 0, .frameFault 0 false, .threadWake 0 0 false, .rootWrite 0 0 false, .heartbeatWrite 0, .irqHoldoffExpiry 0,
    .mbDoorbell 0 0 0, .mbUdoorbell 0 0 0, .rspValidWrite 0, .urspValidWrite 0, .mbEvtConsWrite 0 0, .ringEnable 0, .ringDisable 0,
    .ringFlush 0 false, .flushDone 0 [] false false, .ringPoll 0 [] false false, .injectItem 0 [] false false, .injectCompletion 0 false,
    .puntWrite 0 0 0 0 0 0 false false, .workItem 0 [] false false, .dumpFill 0 false false, .faultReport Fc.tableUe 0 0 0 0 0 0 0,
    .pipeStall 0 0 0, .dresserStall 0 0 0, .injectorConsumed 0 Fc.tableUe 0 0 0 0 0 0, .captureTriggered 0 0 0, .capturePostEnd 0 0,
    .captureDone 0 0 none, .flowSample 0 0 0 0 0 0, .flowExport 0 0 0 none, .driveAdded 0 0 0 0 0 false, .driveRemoved 0,
    .smartRead 0 0 false, .avsStep 0 false, .temperatureReading 0 0, .thermalTrip 0, .moduleInserted 0,
    .moduleLowPower 0 0 false [] [] 0 0 0 [] 0 0, .modulePowerUp 0, .moduleReady 0, .moduleTimeout 0, .moduleInterrupt 0 false false,
    .modulePoll 0 false 0 0 false false, .moduleRemoved 0, .mgmtBusRecover 0, .statisticsClearingRead 0 0, .ucsDwordLoad 6144 0 0 0,
    .ucsWordWrite 6144 0 0, .injArm 0] : List Instr).all (fun c => c.wf) = true := by decide +kernel

/-- With its operands in range each is well formed. -/
theorem test_wf_accepts_3 :
    ([
    .injDisarm 0, .refclkLaneReturn 0, .prbsLocked 0, .prbsLockLost 0, .cgRstNRelease 0, .channelZeroingDone 0] : List Instr).all (fun c => c.wf) = true := by decide +kernel

/-- A message whose lane, TAG, SEQ or length does not fit is refused, whatever command carries it. -/
theorem test_msg_wf_refuses :
    ([{ msg 0 [] with lane := .mailbox 8 }, { msg 0 [] with lane := .urgent 8 }, { msg 0 [] with lane := .work 64 },
      { msg 0 [] with tag := 2 ^ 32 }, { msg 0 [] with seq := 2 ^ 16 }, { msg 0 [] with payload := zeros 16369 },
      { msg 0 [] with lane := .urgent 0, payload := zeros 4081 }, { msg 0 [] with lane := .work 0, payload := zeros 65521 }] : List Msg).all
      (fun m => !m.wf) = true := by decide +kernel
theorem test_msg_wf_accepts :
    ([{ msg 7 [] with tag := 2 ^ 32 - 1, seq := 2 ^ 16 - 1, payload := zeros 16368 }, { msg 0 [] with lane := .urgent 7, payload := zeros 4080 },
      { msg 0 [] with lane := .work 63, payload := zeros 65520 }] : List Msg).all (fun m => m.wf) = true := by decide +kernel
/-- Every command row carries that check. -/
theorem test_commands_check_their_message (m : Msg) (h : m.wf = false) :
    ([
    .sysPing m, .sysStatus m, .sysControlStatus m, .sysFwLoad m, .sysFwActivate m, .sysSwitchover m, .sysReset m, .sysSet m,
    .sysGet m, .sysAsyncStatus m, .modeSet m, .modeStatus m, .stageCreate m, .stageResize m, .stageDissolve m, .stageStatus m,
    .portConfig m, .portStatus m, .portHealth m, .portSerdesBounds m, .moduleStatus m, .moduleRead m, .moduleWrite m, .moduleReset m,
    .parseLoad m, .parseDiscard m, .parseRead m, .parseStatus m, .tableCreate m, .tableProfile m, .tableDomain m, .tablePfxAdd m,
    .tablePfxDelete m, .tableEntryWrite m, .tableEntryDelete m, .tableRead m, .tableFlushLearned m, .tableCommit m,
    .tableCommitCancel m, .tableAbort m, .tableVstatus m, .ruleBlock m, .ruleLayout m, .ruleRange m, .rulePreselect m, .ruleDefault m,
    .ruleAdd m, .ruleDelete m, .ruleRead m, .patternLoad m, .patternDiscard m, .patternRead m, .patternStatus m, .patternBounds m,
    .patternQuery m, .patternStep m, .editLoad m, .editSwap m, .editRead m, .editStatus m, .editRegion m, .queuePolicer m,
    .queuePolicerRead m, .queuePolicerRange m, .queuePrecolour m, .queueService m, .queueLport m, .queueCuesheet m, .queueStatus m,
    .bufferClass m, .bufferLport m, .bufferSession m, .bufferStatus m, .memConfig m, .memRegion m, .memShare m, .memSpeed m,
    .memRepair m, .memStatus m, .timeStatus m, .timeConfig m, .timeSet m, .timeAdjustFreq m, .timeAdjustSlew m, .timeAdjustStep m,
    .timePortConfig m, .timePortRead m, .powerStatus m, .powerLimit m, .powerPrecedence m, .powerBounds m, .faultStatus m,
    .faultAck m, .faultConfig m, .faultPin m, .recordConfig m, .recordTrigger m, .recordStatus m, .recordRead m, .recordDrive m,
    .lifeRead m, .lifeStatus m, .lifeBackup m, .counterRead m, .counterSnapshot m, .counterEvents m, .counterSlots m, .counterLport m,
    .ringAssign m, .ringPools m, .ringQuota m, .ringCap m, .ringRelease m, .ringStatusCmd m, .identityChain m, .identityQuote m,
    .identityOwnerEnrol m, .identityRollbackCommit m, .testLoopback m, .testPrbs m, .testInject m, .testStatus m] : List Instr).all (fun c => !c.wf) = true := by
  simp [Instr.wf, h]

/-! ### The manual's overlay graph and walk (chapter 3) -/

/-- A node word from its fields: FLAG_SET, mark, a fixed advance or the IHL, selector, transitions, DEFAULT, extracts (slot, width, offset). -/
def nodeWord (flags : Nat) (mark : Option Nat) (adv : Option Nat) (sel : Nat × Nat × Nat) (trans : List (Nat × Nat)) (dflt : Nat)
    (exts : List (Nat × Nat × Nat)) : Nat :=
  flags * 2 ^ 632 + (match mark with | some m => 2 ^ 631 + m * 2 ^ 628 | none => 0) +
    (match adv with | some a => a * 2 ^ 604 | none => 2 ^ 627 + 4 * 2 ^ 617 + 3 * 2 ^ 614 + 2 * 2 ^ 612) +
    sel.1 * 2 ^ 593 + (sel.2.1 - 1) * 2 ^ 589 + sel.2.2 * 2 ^ 573 + trans.length * 2 ^ 568 + dflt * 2 ^ 558 +
    (exts.foldl (fun a e => (a.1 + 2 ^ a.2 * (2 ^ 23 + e.1 * 2 ^ 17 + (e.2.1 - 1) * 2 ^ 10 + e.2.2), a.2 - 24)) (0, 520)).1 +
    (trans.foldl (fun a t => (a.1 + 2 ^ a.2 * (t.1 * 2 ^ 10 + t.2), a.2 + 26)) (0, 0)).1
def overlay : List Nat :=
  [nodeWord 0 (some 0) (some 14) (96, 16, 0xFFFF) [(0x8100, 1), (0x88A8, 2), (0x0800, 3), (0x86DD, 4)] 0x200 [(0, 48, 0), (2, 48, 48)],
   nodeWord 1 none (some 4) (16, 16, 0xFFFF) [(0x0800, 3), (0x86DD, 4)] 0x200 [(4, 16, 0)],
   nodeWord 2 none (some 4) (16, 16, 0xFFFF) [(0x8100, 1), (0x0800, 3), (0x86DD, 4)] 0x200 [(5, 16, 0)],
   nodeWord 4 (some 1) none (72, 8, 0xFF) [(0x11, 5)] 0x200 [(8, 32, 96), (9, 32, 128), (10, 8, 8), (11, 16, 64)],
   nodeWord 8 (some 1) (some 40) (48, 8, 0xFF) [(0x11, 5)] 0x200 [(12, 128, 64), (16, 128, 192), (20, 28, 4), (21, 16, 48)],
   nodeWord 0x10 (some 2) (some 8) (16, 16, 0xFFFF) [(0x12B5, 6)] 0x200 [(22, 32, 0)],
   nodeWord 0x20 (some 6) (some 8) (0, 8, 8) [(8, 7)] 0x230 [(23, 24, 32)],
   nodeWord 0 (some 3) (some 14) (96, 16, 0xFFFF) [(0x0800, 8), (0x86DD, 9)] 0x200 [(24, 48, 0), (26, 48, 48)],
   nodeWord 0x40 (some 4) none (72, 8, 0xFF) [(0x06, 10), (0x11, 10)] 0x200 [(28, 32, 96), (29, 32, 128)],
   nodeWord 0x40 (some 4) (some 40) (48, 8, 0xFF) [(0x06, 10), (0x11, 10)] 0x200 [(32, 128, 64), (36, 128, 192)],
   nodeWord 0 (some 5) (some 0) (0, 1, 0) [] 0x200 [(31, 32, 0)]]
def overlayFrame (vxlan : Nat) : List Byte := octets (
  [0x02, 0x4C, 0x54, 0, 0, 3, 0x02, 0x1A, 0x2B, 0x3C, 0x4D, 0x5E, 0x81, 0, 0, 100, 8, 0] ++
  [0x45, 0, 0, 90, 0, 0, 0, 0, 64, 0x11, 0, 0, 192, 0, 2, 21, 198, 51, 100, 9] ++ [0xC0, 0x19, 0x12, 0xB5, 0, 70, 0, 0] ++
  [vxlan, 0, 0, 0, 0, 0x13, 0x88, 0] ++ [2, 0, 0, 0, 0x0A, 1, 2, 0, 0, 0, 0x0A, 2, 8, 0] ++
  [0x45, 0, 0, 40, 0, 0, 0, 0, 64, 6, 0, 0, 192, 0, 2, 130, 192, 0, 2, 140] ++ [0x9C, 0x40, 1, 0xBB]) ++ zeros 20
def overlayWalk (vxlan : Nat) : Walk := walkFrom (fun i => overlay[i]?) (overlayFrame vxlan) 112 0 16 20 0 Walk.start

/-- Every node passes validation, and the frame is walked as the manual says: the last byte read is byte 91. -/
theorem test_parse_overlay :
    overlay.all (nodeOk 11) = true ∧ (overlayWalk 8).reach = 92 ∧ (overlayWalk 8).exts = 14 ∧
    ((overlayWalk 8).res.px, (overlayWalk 8).res.flags, (overlayWalk 8).res.nodes, (overlayWalk 8).res.lastNode) = (false, 0x75, 8, 10) ∧
    ((overlayWalk 8).res.marked, (overlayWalk 8).res.hdrOff, (overlayWalk 8).res.slotValid) =
      (0x7F, [0, 18, 38, 54, 68, 88, 46, 0], 0xBFC00F1F) := by decide +kernel
theorem test_parse_overlay_slots :
    (overlayWalk 8).res.slots =
      [(0, 0x24C), (1, 0x54000003), (2, 0x21A), (3, 0x2B3C4D5E), (4, 100), (8, 0xC0000215), (9, 0xC6336409), (10, 0), (11, 0x4011),
       (22, 0xC01912B5), (23, 0x1388), (24, 0x200), (25, 0xA01), (26, 0x200), (27, 0xA02), (28, 0xC0000282), (29, 0xC000028C),
       (31, 0x9C4001BB)] := by decide +kernel
/-- Without its I flag the VXLAN header ends the walk with the graph's code 0x30. -/
theorem test_parse_overlay_exception :
    ((overlayWalk 0).res.px, (overlayWalk 0).res.pxCode, (overlayWalk 0).res.nodes, (overlayWalk 0).res.lastNode) = (true, 0x30, 5, 6) := by
  decide +kernel

/-! ### Two destinations under one /16, and the insertion of a rule (chapter 5) -/

/-- The encodings the manual writes out: PKEYs, the place of the map, that of the direct entry. -/
theorem test_prefix_places :
    [pkeyOf 32 32 0xC633644D, pkeyOf 32 30 0xC633644D, pkeyOf 32 28 0xC633644D, pkeyOf 32 26 0xC633644D, pkeyOf 32 28 0xC6336460] =
      [0x18C66C89B, 0x18C66C89C, 0x18C66C890, 0x18C66C8C0, 0x18C66C8D0] ∧
    filter4Loc 1 50739 = { pad := 0, line := 3633, lo := 496 - 16 * 19, w := 16 } ∧
    directHalfLoc 1 50739 = { pad := 1, line := 6342, lo := 448 - 64 * 3, w := 64 } := by decide +kernel
def planned : State := ((house.onInsts 0 4 (fun b => { b with cur := some (anInst 4 1) })).onInsts 0 6 (fun b => { b with
  cur := some { anInst 6 2 with pads := (range 0 8).map (fun t => (t, [10, 11])) } })).onInsts 0 7 (fun b => { b with
  cur := some { anInst 7 1 with pads := (range 0 8).map (fun t => (t, [20])) } })
def withPrefix (o : Option State) (len addr hop : Nat) : Option State := o.bind (fun s => s.addPrefix 0 4 len 1 addr hop)
def inDomain : LookCfg := { LookCfg.reset with domains := [(7, 1)] }
def routes : State := ((withPrefix (withPrefix (withPrefix (withPrefix (withPrefix (withPrefix (withPrefix
  (some ((planned.putCfgBank 0 0 inDomain).putCfgBank 0 1 inDomain)) 16 0xC6330000 5001) 19 0xC6336000 5002) 24 0xC6336400 5003)
  26 0xC6336440 5004) 28 0xC6336460 5005) 30 0xC633644C 5007) 32 0xC633644D 5006).getD house)
def routed (da : Nat) : Nat × Nat × Nat :=
  let r := routes.route4 { aPkt .parsed with ctx := { (aPkt .parsed).ctx with ver := 1 } } [] 7 da
  (r.plen, r.idx, r.extra)
/-- 198.51.100.77 hits its /32 in round 1; 198.51.100.200 hits the /24 in round 2, which adds 2 PCLK; 198.51.1.1 is left to the /16. -/
theorem test_prefix_routes :
    [routed 0xC633644D, routed 0xC63364C8, routed 0xC6330101] = [(32, 5006, 0), (24, 5003, 2), (16, 5001, 2)] ∧
    routes.map4 7 0 1 1 50739 = (0xAA84, 0, routes) := by decide +kernel

/-- Block 5 at HOLE_INTERVAL 16, with positions 32 to 46 at priorities 3,200 to 3,340 and the positions below 31 in use. -/
def exampleBlock : Block :=
  { Block.reset with stage := 0, holeLog := 4,
                     rules := (range 16 15).map (fun p => (p, { aRule with prio := p })) ++
                       (range 32 15).map (fun p => (p, { aRule with prio := 3200 + 10 * (p - 32) })) }
/-- Priority 3,285 belongs at position 41: 41 to 46 move up by one and nothing else moves. -/
theorem test_rule_insertion :
    (exampleBlock.insertRule { aRule with prio := 3285 }).map (fun b => (b.rules.drop 15).map (fun e => (e.1, e.2.prio))) =
      some [(32, 3200), (33, 3210), (34, 3220), (35, 3230), (36, 3240), (37, 3250), (38, 3260), (39, 3270), (40, 3280), (41, 3285),
        (42, 3290), (43, 3300), (44, 3310), (45, 3320), (46, 3330), (47, 3340)] := by decide +kernel
/-- The member word of the manual's ECMP group (chapter 4): N 6, BASE 70,000, F 0x9E37_0000. -/
theorem test_ecmp_member : memberWord (6 * 2 ^ 112 + 70000 * 2 ^ 92) 0x9E370000 = 70003 := by decide +kernel

/-! ### The routed rewrite (chapters 1 and 8) -/

/-- The manual's 64-byte frame: an Ethernet header, an IPv4 header with checksum 0x4DEC and TTL 64, UDP, 18 bytes of payload, the FCS. -/
def routedFrame : List Byte := octets
  ([0x02, 0x4C, 0x54, 0, 0, 3, 0x02, 0, 0, 0, 0, 9, 8, 0] ++
    [0x45, 0x48, 0, 0x2E, 0, 0, 0x40, 0, 64, 0x11, 0x4D, 0xEC, 192, 0, 2, 10, 198, 51, 100, 77] ++ [0, 7, 0, 7, 0, 26, 0, 0]) ++ zeros 22
def routedPkt : Pkt :=
  { aPkt .dresser with frame := routedFrame, ctx := { (aPkt .dresser).ctx with len := 64, editEntry := 0x0010 },
                       pr := { ParseRes.zero with marked := 7, hdrOff := [0, 14, 34, 0, 0, 0, 0, 0] } }
def routedIn : DrIn :=
  { ctx := routedPkt.ctx.bits, nhop := 0, dmac := 0x021A2B3C4D5E, smac := 0x024C54002800, peerUp := false, tag := 0, bank := 0, limit := 64, bad := [] }
theorem test_route_words :
    vendorWord 0x0012 = 0x15000000_8400E200_00000000_00000000 ∧ vendorWord 0x0013 = 0x18C00000_8501E000_00000000_00000000 := by decide +kernel
/-- ROUTE writes both MAC addresses, TTL 63 and checksum 0x4EEC in five microword-cycles, and nothing else. -/
theorem test_route_rewrite :
    (Dr.run house (house.edit 0) routedIn 64 (Dr.load routedPkt)).2 = .fin ∧
    (Dr.run house (house.edit 0) routedIn 64 (Dr.load routedPkt)).1.cycles = 5 ∧
    (Dr.run house (house.edit 0) routedIn 64 (Dr.load routedPkt)).1.win =
      octets [0x02, 0x1A, 0x2B, 0x3C, 0x4D, 0x5E, 0x02, 0x4C, 0x54, 0, 0x28, 0] ++ (routedFrame.drop 12).take 10 ++
        octets [63, 0x11, 0x4E, 0xEC] ++ (routedFrame.drop 26).take 34 := by decide +kernel

/-! ### A move that does not hold (chapter 4) -/

/-- The station of the manual, firm on tile 2 at lport 136, and the move that a frame on lport 96 provisions. -/
def stationed : State := (instanced 1 2).putSlot (anInst 1 2) 2 ((anInst 1 2).cands (l2Key 0 100 0x020000000A02)).head! 0 (l2Learned 0 100 0x020000000A02 136)
def moved : State := (stationed.learnSource 2 0 0 100 0x020000000A02 96 0x215 true).state
def stationOf (s : State) : List Nat :=
  match s.learnedSlot (anInst 1 2) 2 (l2Key 0 100 0x020000000A02) with
  | some x => [l2Dest x.2.2, l2Prev x.2.2, flagNat (l2Pv x.2.2), flagNat (l2Prov x.2.2), l2Seq x.2.2, flagNat (l2Hit x.2.2)]
  | none => []
def judged (good : Bool) : State :=
  moved.judgeProvIn (anInst 1 2) { tile := 2, stage := 0, vid := 100, mac := 0x020000000A02, lport := 96, seq := 0x215, verdict := some good } good
theorem test_station_move :
    [stationOf stationed, stationOf moved, stationOf (judged false), stationOf (judged true)] =
      [[136, 0, 0, 0, 0, 1], [96, 136, 1, 1, 0x215, 1], [136, 0, 0, 0, 0, 1], [96, 0, 0, 0, 0, 1]] := by decide +kernel

/-! ### A route batch (chapter 6) -/

/-- The routes settled, then 198.51.100.128/25 added and 198.51.100.96/28 deleted. -/
def settled : State := (routes.flip 0).retire 0
def batch : State := ((settled.addPrefix 0 4 25 1 0xC6336480 5010).bind (fun s => s.dropPrefix 0 4 28 1 0xC6336460)).getD house
def routedAt (s : State) (v da : Nat) : Nat × Nat :=
  let r := s.route4 { aPkt .parsed with ctx := { (aPkt .parsed).ctx with ver := v } } [] 7 da
  (r.plen, r.idx)
/-- Either side of the flip a packet to 198.51.100.200 takes the /24 or the /25; the map goes 0xAB84, and 0xA384 after settle. -/
theorem test_batch :
    (batch.flip 0).ver 0 = { (batch.flip 0).ver 0 with cur := 2, retiring := some 1 } ∧
    [routedAt (batch.flip 0) 1 0xC63364C8, routedAt (batch.flip 0) 2 0xC63364C8] = [(24, 5003), (25, 5010)] ∧
    ((batch.flip 0).map4 7 0 2 1 50739).1 = 0xAB84 ∧ (((batch.flip 0).retire 0).map4 7 0 2 1 50739).1 = 0xA384 := by decide +kernel

/-! ### A sagging input (chapter 17) -/

/-- 48 ports of 3.2T, LIMIT 130 A, RESERVE 20 W, P0 to P47 in precedence order, at an input voltage and band. -/
def sagging (mv band : Nat) : State :=
  ((range 0 48).foldl (fun s p => s.onLport (8 * p) (fun y => { y with cfg := some cfg8 })) run).onPower (fun p => { p with
    limit := 1300, reserve := 20, precedence := range 0 48, vinMv := mv, band := band })
/-- At 10.7 V every port fits under lean clocking; at 7.9 V P37–P47 are held, at 7.0 V P32–P47. -/
theorem test_sagging_input :
    [(sagging 10700 1).heldMap, (sagging 7900 0).heldMap, (sagging 7000 0).heldMap] = [0, 2 ^ 48 - 2 ^ 37, 2 ^ 48 - 2 ^ 32] ∧
    ((sagging 12000 2).availPower, (sagging 12000 2).fullPower, (sagging 10700 1).admitted.2, (sagging 7000 0).admitted.2) =
      (143520, 124140, 112940, 80860) := by decide +kernel

/-! ### A budget through heat and LEAN (chapter 11) -/

def aShareOf (bw : Nat) : Share := { Share.reset with bw := bw }
/-- Eight channels at divider 3, with the manual's reservations; `hot` for 2x refresh on channel 5. -/
def budgeted (hot : Nat) : MemSt := { house.mem with
  channels := (range 0 8).map (fun c => (c, { Channel.reset with state := 3, dimm := some aDimm, hot := if c = 5 then hot else 0 })),
  speed := 3, shares := [(2, aShareOf 2400), (3, aShareOf 700), (4, aShareOf 500), (10, aShareOf 600)] }
def hotCut : MemSt := (budgeted 1).cut ((budgeted 1).deliverableAt 3)
def leanCut : MemSt := hotCut.cut (hotCut.deliverableAt 5)
def leanExit : MemSt := leanCut.restore 405
theorem test_memory_budget :
    ((budgeted 0).deliverableAt 3, (budgeted 1).deliverableAt 3, (budgeted 1).deliverableAt 5) = (439, 405, 243) ∧
    (budgeted 0).reserved = 4300 ∧
    [hotCut, leanCut, leanExit, leanExit.restore 439].map (fun m => (m.captureOff, m.flowOff, m.scale)) =
      [(true, false, 65536), (true, true, 50899), (true, false, 65536), (false, false, 65536)] := by decide +kernel

/-! ### A gated and shaped lport (chapter 10) -/

def opSheet : CueSheet := { base := 1700000000 * 1000000000, cycle := 10000, entries := [(0xA0, 2000), (0xDF, 8000)] }
def gated : Egress := { Egress.reset with sheet := opSheet }
/-- May frame k of a class, 15.38k ns into an entry that begins at a phase, start with W of 1,602 bytes at 800 Gb/s? -/
def frameFits (c phase k : Nat) : Bool :=
  gated.openFor c 8 (((opSheet.base + phase) * 66 + (1538 * k * 66 + 99) / 100 : Nat) : Int) (wireUnits 1602 800)
/-- Class 5 sends frames 0 to 128 of entry 0, class 4 frames 0 to 519 of entry 1; the gate of class 7 is always open. -/
theorem test_gates :
    [frameFits 5 0 128, frameFits 5 0 129, frameFits 4 2000 519, frameFits 4 2000 520, frameFits 4 0 0, frameFits 7 0 129, frameFits 7 2000 520] =
      [true, false, true, false, false, true, true] := by decide +kernel
/-- The refill of 100 Gb/s at REFILL_EXP 2 is 1,600 bytes; the pending sheet switches at 123,460,000 ns. -/
theorem test_refill_and_switch :
    refillTokens 1562500 (refillPeriod 2) = 1600 * 65536 ∧
    opSheet.switchTime (1700000000 * 1000000000 + 123456789) = 1700000000 * 1000000000 + 123460000 := by decide +kernel

/-! ### Scans, cages, cells and timestamps (chapters 7, 18, 9 and 16) -/

/-- A class 1 frame of 300 bytes with L4 at byte 34 is scanned from 34 to 256; a class 3 frame of 132 bytes from 0 to 128. -/
theorem test_scan_windows :
    scanBounds (2 * 2 ^ 30 + 7 * 2 ^ 27 + 2 * 2 ^ 23) { aPkt .parsed with pr := { ParseRes.zero with marked := 7, hdrOff := [0, 14, 34] } } =
      some (34, 256) ∧
    scanBounds (2 ^ 30 + 3 * 2 ^ 27 + 8 * 2 ^ 23) { aPkt .parsed with ctx := { (aPkt .parsed).ctx with len := 132 } } = some (0, 128) := by
  decide +kernel
/-- TX_MAP 0xDE_54C1 takes device lanes 0–3 to module lanes 1, 0, 3, 2. -/
theorem test_crossed_cage : (range 0 8).map (moduleLane 0xDE54C1) = [1, 0, 3, 2, 5, 4, 7, 6] := by decide +kernel
theorem test_cells : [64, 1518, 9000].map cellsOf = [1, 6, 36] := by decide +kernel
/-- The check values of CRC-32 and CRC-32C of the digits 1 to 9. -/
theorem test_crc : crc32 (octets [49, 50, 51, 52, 53, 54, 55, 56, 57]) = 0xCBF43926 ∧
    crc32c (octets [49, 50, 51, 52, 53, 54, 55, 56, 57]) = 0xE3069283 := by decide +kernel

/-! ### Commands and events run -/

/-- The state an outcome leaves, and the status a command row answers. -/
def nx (o : Out) : State := match o with | .next t => t | _ => State.reset
def statusOf (o : Op) (body : Msg → State → Answer) (m : Msg) (s : State) : Nat :=
  match judge o m s with | some st => st | none => (body m s).status

/-! ### Giving a side stage its ports (chapter 14) -/

/-- The manual's STAGE.CREATE: S1 with P36–P47, 40 paddocks, 60,000 cells, heads 61,440 to 65,535 and weight 4. -/
def createS1 : Msg := msgOf 0 (octets [1, 0, 4, 0] ++ leBytes 8 0xFFF000000000 ++ octets [40, 0, 0, 0] ++ leBytes 4 60000 ++ leBytes 4 61440 ++
  leBytes 4 4096 ++ zeros 4)
/-- BUSY while P44.0 has ADMIN UP; ACCEPTED once it is not; then STAGE_READY makes the stage live and enables MB1. -/
theorem test_stage_create :
    statusOf opStageCreate bodyStageCreate createS1 (run.onLport 352 (fun y => { y with cfg := some cfg8 })) = St.busy ∧
    statusOf opStageCreate bodyStageCreate createS1 run = St.accepted ∧
    (let s := nx (execStageReady 1 (nx (execStageCreate createS1 run)))
     ((s.stage 1).state = 2 ∧ (s.mb 1).enabled = true ∧ (s.mb 1).any = true) ∧
     ((range 5 3).map (s.scanWeightIn 0) = [16, 12, 12])) := by decide +kernel
/-- MEM.REGION from MB1 fails its class before its mode. -/
theorem test_class_before_mode : statusOf opMemRegion bodyMemRegion (msg 1 []) run = St.notPermitted := by decide +kernel

/-! ### An INJECT ring through a wrap, a torn entry and a flush (chapter 13) -/

def withChk (e : List Byte) : List Byte := e.take 31 ++ [0x5A#8 ^^^ xorBytes (e.take 31)]
/-- A submission of a length and ID, direct to exit 322. -/
def submit (len id : Nat) : List Byte := withChk (zeros 8 ++ leBytes 2 len ++ zeros 2 ++ leBytes 2 322 ++ zeros 14 ++ leBytes 2 id ++ zeros 2)
def pair5 (prod : Nat) : State := run.onRing 5 (fun g => { g with
  kind := 0, assigned := true, enable := true, state := 1, logSize := 8, sqBase := 65536, cqBase := 131072, sqProd := prod, sqCons := 250,
  cqProd := 250, cqCons := 250 })
/-- (2 − 250) mod 256 = 8 entries are fetched; the one of 40 bytes completes BAD_BUFFER at once. -/
def wrapped : State := nx (execRingPoll 5 ((range 250 8).map (fun i => submit (if i = 253 then 40 else 1000) i)) true true (pair5 2))
theorem test_ring_wrap :
    let g := wrapped.ring 5
    g.sqCons = 2 ∧ g.fetched = 8 ∧ g.items.map (fun i => i.id) = [250, 251, 252, 254, 255, 256, 257] ∧ g.cqProd = 251 ∧
      g.completions = [(Rc.badBuffer, 1)] := by decide +kernel
/-- An entry of which bytes 16–31 are a previous lap's fails its CHK and completes MALFORMED with the ID as read. -/
def torn : State := nx (execRingPoll 5 [(submit 60 2).take 16 ++ (submit 61 0xF2).drop 16] true true (pair5 251))
theorem test_ring_torn :
    let g := torn.ring 5
    g.sqCons = 251 ∧ g.cqProd = 251 ∧ g.completions = [(Rc.malformed, 1)] ∧
      fieldLE ((range (131072 + 32 * 250) 32).map torn.host.hostMem.read) 0 2 = 0xF2 := by decide +kernel
/-- A flush completes the entries published before it FLUSHED and ends. -/
def flushed : State := nx (execFlushDone 5 ((range 250 7).map (submit 1000)) true true (nx (execRingFlush 5 true (pair5 1))))
theorem test_ring_flush :
    let g := flushed.ring 5
    g.sqCons = 1 ∧ g.cqProd = 1 ∧ g.completions = [(Rc.flushed, 7)] ∧ g.flushDone = true ∧ g.flush = none := by decide +kernel

/-! ### Faults on tile T4 (chapter 15) -/

def t4 : State := run.onFault (fun f => { f with lastSeq := 0x0200 })
/-- TABLE_UE of a stage-less word by scrub, then three microseconds later its acknowledgement, then PIPE_STALL of pipe 9 2 ms after the first. -/
def t4a : State := nx (execFaultReport Fc.tableUe Lv.tile 4 0 0 3 0 0 t4)
def t4b : State := nx (execPipeStall 4 9 0 (nx (execFltAck 0x0201 { t4a with now := tkMs 2 })))
def t4c : State := nx (execFaultWindowExpiry { t4b with now := tkMs 3 })
theorem test_fault_capture :
    (t4a.fault.first.map (fun r => (r.cls, r.sev, r.seq))) = some (Fc.tableUe, Sev.contained, 0x0201) ∧
    (t4a.fault.opened.map (fun e => e.windowEnd)) = [some (tkMs 10)] ∧ t4a.fault.higher = none ∧
    (t4b.fault.higher.map (fun r => (r.cls, r.sev, r.seq))) = some (Fc.pipeStall, Sev.quarantine, 0x0202) ∧
    (t4b.fault.first.map (fun r => r.flags % 2)) = some 1 := by decide +kernel
/-- Unacknowledged for 1 ms, the stall isolates the pipe; an acknowledgement is then too late. -/
theorem test_fault_escalation :
    t4c.fault.isolated = [.pipe 4 9] ∧ (t4c.fault.higher.map (fun r => r.flags % 8)) ≠ (t4b.fault.higher.map (fun r => r.flags % 8)) ∧
    t4c.cmd.mode = Md.run ∧ (ackBySeq t4c 0 0x0202).1 = St.stale := by decide +kernel

/-! ### A snapshot through the windows (chapter 20) -/

/-- RX_FCS_ERR of lport 322 is 5 and PIPE_DROP of S0 in T6 is 7. -/
def counted : State := (run.onPort (fun p => { p with stats := [(322 * 64 + 5, 5)] })).onCount (fun c => { c with events := [(evtKey 6 0 0x0F, 7)] })
/-- PEEK and CLEAR show the counter itself, and CLEAR clears it; SNAP and the event window show a snapshot, taken at one edge. -/
def snapped : State := nx (execSnapshotTaken { nx (execSnapshotEdge { nx (execPmcSnap 1 counted) with now := tkMs 1 }) with now := tkMs 2 })
def readAt (s : State) (a : Nat) : Nat := (s.hostRead a).count.readData
theorem test_windows :
    [readAt counted 0x868428, readAt counted 0x828428, readAt counted 0x8A8428, readAt (counted.hostRead 0x828428) 0x868428] = [5, 5, 0, 0] ∧
    [readAt snapped 0x8A8428, readAt snapped 0x540078, readAt snapped 0x540080] = [5, 7, 0] := by decide +kernel

/-! ### The hypotheses of the statements are met -/

theorem witness_StepTakesTheFront :
    (∃ (c : Instr) (rest : List Instr) (s : State), s.pending = c :: rest) ∧
    (∃ (s : State), s.pending = []) :=
  ⟨⟨.smbusTimeout, [.functionLevelReset], { house with pending := [.smbusTimeout, .functionLevelReset] }, by decide +kernel⟩,
   ⟨house, by decide +kernel⟩⟩

theorem witness_EveryStepKeepsALegalMode :
    (∃ (s t : State), LegalMode s ∧ step s = .next t) :=
  ⟨{ house.onCtl (fun c => { c with activation := some { returnMode := 7, since := 0 } }) with pending := [.smbusTimeout] }, _, ⟨by decide +kernel, fun
      a h => by cases h; decide⟩, rfl⟩

theorem witness_EveryStepKeepsMemoryCanonical :
    (∃ (s t : State), CanonicalMemory s ∧ step s = .next t) :=
  ⟨{ house.onHost (fun h => { h with areas := [(0x100000, 1), (0x100002, 3)] }) with pending := [.smbusTimeout] }, _, ⟨by decide +kernel, by
      decide +kernel⟩, rfl⟩

theorem witness_WellFormedNeverStops :
    (∃ (c : Instr) (_ : State), c.wf = true) :=
  ⟨.mbDoorbell 7 4294967295 0, house, by decide +kernel⟩

theorem witness_CommandsLeaveTheQueueAndTheClock :
    (∃ (c : Instr) (s t : State), exec c s = .next t) :=
  ⟨.smbusTimeout, { house with pending := [.functionLevelReset] }, _, rfl⟩

theorem witness_AbsentUnitsStop :
    (∃ (m : Msg) (_ : State), laneOk m.lane = false) ∧
    (∃ (r _ _ : Nat) (_ : State), 8 ≤ r) ∧
    (∃ (l : Nat) (_ : List Byte) (_ _ _ : Bool) (_ : State), 384 ≤ l) ∧
    (∃ (t _ : Nat) (_ : State), 8 ≤ t) :=
  ⟨⟨msg 8 [], house, by decide +kernel⟩,
   ⟨8, 0, 0, house, by decide +kernel⟩,
   ⟨384, [], false, false, false, house, by decide +kernel⟩,
   ⟨8, 0, house, by decide +kernel⟩⟩

theorem witness_SysReadsAnswer :
    (Meets opSysPing (fun m _ => m.plen ≤ lanePlenMax m.lane)) ∧
    (Meets opSysStatus (fun m _ => m.plen = 0)) ∧
    (Meets opSysControlStatus (fun m _ => m.plen = 0)) ∧
    (Meets opModeStatus (fun m _ => m.plen = 0)) ∧
    (Meets opSysGet (fun m s => m.plen ≠ 0 ∧ m.plen % 16 = 0 ∧ m.plen ≤ 1023 * 16 ∧ (m.records 0 16).all (fun r => settingFieldsOk r false &&
      settingAllowed s (s.stageOf m) (s.isOwner m) false r) = true)) ∧
    (Meets opSysAsyncStatus (fun m _ => m.plen = 0)) :=
  ⟨meets (msg 0 (List.replicate 4080 7)) house (by decide +kernel) (by decide +kernel),
   meets (msg 4 []) house (by decide +kernel) (by decide +kernel),
   meets (msg 0 []) house (by decide +kernel) (by decide +kernel),
   meets (msg 5 []) house (by decide +kernel) (by decide +kernel),
   meets (msg 0 [0x10, 0, 0, 0, 0, 0, 0, 0, 0, 0, 0, 0, 0, 0, 0, 0]) house (by decide +kernel) (by decide +kernel),
   meets (msg 0 []) house (by decide +kernel) (by decide +kernel)⟩

theorem witness_SysCommandsAct :
    (∃ (m : Msg) (s : State) (a : Assembly), Admitted opSysFwLoad m s ∧ firstRefusal (chunkChecks m) = none ∧ takeChunk s.ctl.fwAssembly m = .taken a ∧
      (a.final = true → s.atLimit m = false)) ∧
    (Meets opSysFwActivate (fun m s => m.plen = 0 ∧ s.atLimit m = false ∧ s.anyCommitPending = false ∧ s.ctl.fwStaged.isSome = true)) ∧
    (Meets opSysSwitchover (fun m s => m.plen = 0 ∧ s.ctl.understudy = 0)) ∧
    (Meets opSysReset (fun m _ => m.plen = 8 ∧ m.u8 0 ≤ 1 ∧ m.zero 1 3 = true ∧ m.u32 4 = 0x54455352)) ∧
    (Meets opSysSet (fun m s => m.plen ≠ 0 ∧ m.plen % 16 = 0 ∧ m.plen ≤ 1023 * 16 ∧ (m.records 0 16).all (fun r => settingFieldsOk r true &&
      settingAllowed s (s.stageOf m) (s.isOwner m) true r) = true)) ∧
    (Meets opModeSet (fun m s => m.plen = 8 ∧ (m.u8 0 = Md.dark ∨ m.u8 0 = Md.house ∨ m.u8 0 = Md.run ∨ m.u8 0 = Md.rehearsal ∨ m.u8 0 = Md.safe) ∧ m.zero
      1 3 = true ∧ s.atLimit m = false ∧ commandedMove s (m.u8 0) = true ∧ (s.cmd.mode = Md.house → s.fault.standing = []) ∧ s.cmd.transition = none)) :=
  ⟨⟨msg 0 [0, 0, 0, 0, 1, 0, 0, 0, 1, 0, 0, 0, 7], house, { total := 1, bytes := octets [7], final := true }, admitted (by decide +kernel), by
      decide +kernel⟩,
   meets (msg 0 []) (house.onCtl (fun c => { c with fwStaged := some fwImage })) (by decide +kernel) (by decide +kernel),
   meets (msg 0 []) (house.onCtl (fun c => { c with understudy := 0 })) (by decide +kernel) (by decide +kernel),
   meets (msg 0 [1, 0, 0, 0, 0x52, 0x53, 0x45, 0x54]) house (by decide +kernel) (by decide +kernel),
   meets (msg 0 [0x10, 0, 0, 0, 0, 0, 0, 0, 255, 255, 0, 0, 0, 0, 0, 0]) house (by decide +kernel) (by decide +kernel),
   meets (msg 0 [6, 0, 0, 0, 1, 2, 3, 4]) house (by decide +kernel) (by decide +kernel)⟩

theorem witness_FirmwareAndModeEventsAct :
    (∃ (v o : Bool) (h ms : Nat) (bytes : List Byte) (rest : List (List Byte)) (s : State), s.ctl.fwChecking = bytes :: rest ∧ (s.findOut 0 0x0104).isSome
      = true ∧ serviceImageOk s.ctl (imageOfBytes bytes v o h ms) = true) ∧
    (∃ (s : State) (a : Activation) (img : Image), s.ctl.activation = some a ∧ s.ctl.fwStaged = some img) ∧
    (∃ (s : State) (a : Activation), s.ctl.activation = some a) ∧
    (∃ (s : State) (p : ResetPlan) (d : Nat), s.cmd.resetPlan = some p ∧ p.due = some d ∧ d ≤ s.now) ∧
    (∃ (s : State) (x : Transition), s.cmd.transition = some x) :=
  ⟨⟨true, false, 0, 9, octets [0x54, 0x4B, 0x46, 0x57, 2, 63, 0, 0, 0, 0, 0, 0, 0, 0, 0, 0], [], (withOut house 0 0x0104 []).onCtl (fun c => { c with fwChecking := [octets [0x54, 0x4B, 0x46, 0x57, 2, 63, 0, 0, 0, 0, 0, 0, 0, 0, 0, 0]] }),
      by decide +kernel⟩,
   ⟨house.onCtl (fun c => { c with activation := some { returnMode := 2, since := 0 }, fwStaged := some fwImage }), { returnMode := 2, since := 0 },
      fwImage, by decide +kernel⟩,
   ⟨house.onCtl (fun c => { c with activation := some { returnMode := 2, since := 0 } }), { returnMode := 2, since := 0 }, by decide +kernel⟩,
   ⟨house.onCmd (fun c => { c with resetPlan := some { cold := true, due := some 0, sender := 0 } }), { cold := true, due := some 0, sender := 0 }, 0, by
      decide +kernel⟩,
   ⟨house.onCmd (fun c => { c with transition := some { target := 3, cause := 0, mb := some 0, tag := 1 } }), { target := 3, cause := 0, mb := some 0, tag := 1 },
      by decide +kernel⟩⟩

theorem witness_StageCommandsAct :
    (Meets opStageCreate (fun m s => m.plen = 32 ∧ stageBad s m = false ∧ stageForeign s (m.u8 0) (stageGiven m 1) = false ∧ s.atLimit m = false ∧
      (s.stage (m.u8 0)).state = 0 ∧ takesBusy s Stage.absent (stageGiven m 1) = false ∧ takesTooMuch s (m.u8 0) Stage.absent (stageGiven m 1) =
      false)) ∧
    (∃ (k : Nat) (s : State), 1 ≤ k ∧ k ≤ 4 ∧ (s.stage k).state = 1) ∧
    (Meets opStageResize (fun m s => m.plen = 32 ∧ stageBad s m = false ∧ stageForeign s (m.u8 0) (stageGiven m 2) = false ∧ s.atLimit m = false ∧
      (s.stage (m.u8 0)).state = 2 ∧ (s.ver (m.u8 0)).state = 0 ∧ leavesBusy s (m.u8 0) (s.stage (m.u8 0)) (stageGiven m 2) = false ∧ takesBusy s
      (s.stage (m.u8 0)) (stageGiven m 2) = false ∧ takesTooMuch s (m.u8 0) (s.stage (m.u8 0)) (stageGiven m 2) = false ∧ addedTooMuch s (m.u8 0)
      (s.stage (m.u8 0)) (stageGiven m 2) = false)) ∧
    (∃ (k : Nat) (new : Stage) (s : State), 1 ≤ k ∧ k ≤ 4 ∧ (s.stage k).state = 3 ∧ SMap.find k s.cmd.resizing = some new) ∧
    (Meets opStageDissolve (fun m s => m.plen = 4 ∧ m.u8 0 ≠ 0 ∧ m.u8 0 ≤ 4 ∧ m.zero 1 3 = true ∧ s.atLimit m = false ∧ (s.stage (m.u8 0)).state = 2 ∧
      s.committing (m.u8 0) = false)) ∧
    (∃ (k : Nat) (s : State), 1 ≤ k ∧ k ≤ 4 ∧ (s.stage k).state = 4 ∧ s.stageHeld k = []) ∧
    (Meets opStageStatus (fun m _ => m.plen = 0)) :=
  ⟨meets (msg 0 [1, 0, 16, 0, 0, 0, 0, 0, 0, 0x80, 0, 0, 0, 0, 0, 0, 0, 8, 0, 0, 0, 0, 0, 0, 0, 0, 0, 0, 0, 0, 0, 0]) house (by decide +kernel) (by
      decide +kernel),
   ⟨4, house.putStage 4 (side 1), by decide +kernel⟩,
   meets (msg 0 [4, 0, 16, 0, 0, 0, 0, 0, 0, 0x80, 0, 0, 0, 0, 0, 0, 0, 8, 0, 0, 0, 0, 0, 0, 0, 0, 0, 0, 0, 0, 0, 0]) (house.putStage 4 (side 2)) (by
      decide +kernel) (by decide +kernel),
   ⟨4, side 2, (house.putStage 4 (side 3)).onCmd (fun c => { c with resizing := [(4, side 2)] }), by decide +kernel⟩,
   meets (msg 0 [4, 0, 0, 0]) (house.putStage 4 (side 2)) (by decide +kernel) (by decide +kernel),
   ⟨4, house.putStage 4 (side 4), by decide +kernel⟩,
   meets (msg 4 []) (house.putStage 4 (side 2)) (by decide +kernel) (by decide +kernel)⟩

theorem witness_PortCommandsAct :
    (Meets opPortConfig (fun m s => 8 ≤ m.plen ∧ m.plen ≤ 72 ∧ m.plen % 8 = 0 ∧ m.u8 0 ≤ 47 ∧ m.zero 1 7 = true ∧ cfgSetOk ((m.records 8 8).map leNat) =
      true ∧ s.ownsPort (s.stageOf m) (m.u8 0) = true)) ∧
    (Meets opPortStatus (fun m s => m.plen = 4 ∧ m.u8 0 ≤ 47 ∧ m.zero 1 3 = true ∧ s.ownsPort (s.stageOf m) (m.u8 0) = true)) ∧
    (Meets opPortHealth (fun m s => m.plen = 4 ∧ m.u16 0 ≤ 383 ∧ m.zero 2 2 = true ∧ s.ownsLport (s.stageOf m) (m.u16 0) = true ∧ (s.lport (m.u16
      0)).configured = true)) ∧
    (Meets opPortSerdesBounds (fun m s => m.plen ≠ 0 ∧ m.plen % 16 = 0 ∧ m.plen ≤ 384 * 16 ∧ (m.records 0 16).all (serdesRecordOk s) = true)) ∧
    (Meets opTestLoopback (fun m s => m.plen = 4 ∧ m.u16 0 ≤ 383 ∧ m.u8 3 = 0 ∧ (m.u8 2 = 1 ∨ m.u8 2 = 2) ∧ (s.lport (m.u16 0)).configured = true)) ∧
    (Meets opTestLoopback (fun m s => m.plen = 4 ∧ m.u16 0 ≤ 383 ∧ m.u8 3 = 0 ∧ m.u8 2 = 0 ∧ (s.lport (m.u16 0)).configured = true ∧ (s.lport (m.u16
      0)).loop ≠ 0)) ∧
    (∃ (l : Nat), Meets opTestPrbs (fun m s => m.plen = 8 ∧ m.u16 0 ≤ 383 ∧ m.u8 2 = 1 ∧ 1 ≤ m.u8 3 ∧ m.u8 3 ≤ 8 ∧ m.zero 4 4 = true ∧ s.lportOfLane
      (m.u16 0) = some l)) ∧
    (∃ (x : State), Meets opTestStatus (fun m s => m.plen = 0 ∧ x = ((m.ext.map (fun b => recordsOf b 0 20 (b.length / 20))).getD []).foldl (fun y r =>
      y.onLane (fieldLE r 0 2) (fun z => if z.locked then { z with bits := z.bits + fieldLE r 4 8, errors := z.errors + fieldLE r 12 8 } else z)) s)) :=
  ⟨meets ({ msg 0 [] with payload := octets [47, 0, 0, 0, 0, 0, 0, 0] ++ leBytes 8 cfg8 }) house (by decide +kernel) (by decide +kernel),
   meets (msg 4 [47, 0, 0, 0]) (house.putStage 4 (side 2)) (by decide +kernel) (by decide +kernel),
   meets (msg 0 [0x78, 1, 0, 0]) (lportUp house 376 cfg8) (by decide +kernel) (by decide +kernel),
   meets (msg 0 [127, 1, 0, 0, 31, 63, 63, 0, 0, 31, 12, 127, 0, 0, 0, 0]) house (by decide +kernel) (by decide +kernel),
   meets (msg 0 [0x78, 1, 2, 0]) (lportUp (at_ 6) 376 cfg8) (by decide +kernel) (by decide +kernel),
   meets (msg 0 [0x78, 1, 0, 0]) ((lportUp (at_ 6) 376 cfg8).onLport 376 (fun y => { y with loop := 1 })) (by decide +kernel) (by decide +kernel),
   ⟨376, meets (msg 0 [0x7F, 1, 1, 8, 0, 0, 0, 0]) (lportUp (at_ 6) 376 cfg8) (by decide +kernel) (by decide +kernel)⟩,
   ⟨(at_ 6).intake opTestStatus (msg 7 []), meets (msg 7 []) (at_ 6) (by decide +kernel) (by decide +kernel)⟩⟩

theorem witness_LinkEventsAct :
    (∃ (l : Nat) (s : State), l < 384 ∧ (s.lport l).admin = true ∧ ((s.lport l).oper = 0 ∨ (s.lport l).oper = 1) ∧ s.portAdmitted (l / 8) = true ∧
      s.cannotTrain l = none ∧ s.inTest l = false ∧ (s.lport l).probOnUp = false) ∧
    (∃ (l _ : Nat) (s : State), l < 384 ∧ (s.lport l).configured = true ∧ ((s.lport l).oper = 1 ∨ (s.lport l).linkUp = true)) ∧
    (∃ (l : Nat) (s : State), l < 384 ∧ (s.lport l).oper = 1) ∧
    (∃ (k : Nat) (_ : State), k < 8) ∧
    (∃ (k : Nat) (s : State), k < 8 ∧ s.power.refLost.testBit k = true) :=
  ⟨⟨376, (withModule run 4 8).onLport 376 (fun y => { y with cfg := some cfg8, oper := 1 }), by decide +kernel⟩,
   ⟨376, 0, lportUp run 376 cfg8, by decide +kernel⟩,
   ⟨376, run.onLport 376 (fun y => { y with cfg := some cfg8, oper := 1 }), by decide +kernel⟩,
   ⟨7, run, by decide +kernel⟩,
   ⟨7, run.onPower (fun p => { p with refLost := 128 }), by decide +kernel⟩⟩

theorem witness_PeerAndWidthEventsAct :
    (∃ (l : Nat) (s : State), l < 384 ∧ (s.lport l).peer = true ∧ (s.lport l).linkUp = true ∧ (s.lport l).helloSent + tkMs 100 ≤ s.now) ∧
    (∃ (l flags : Nat) (s : State), l < 384 ∧ (s.lport l).peer = true ∧ (s.lport l).linkUp = true ∧ (s.lport l).peerUp = false ∧ flags.testBit 13 = true) ∧
    (∃ (l t : Nat) (s : State), l < 384 ∧ (s.lport l).lastHello = some t ∧ t + tkMs 300 ≤ s.now) ∧
    (∃ (lane l : Nat) (s : State), lane < 384 ∧ s.lportOfLane lane = some l ∧ widthCapable (s.lport l) = true ∧ pairsOut (faultTarget (s.lport l) (lane %
      8 / 2)) ≤ 2) ∧
    (∃ (l pair : Nat) (s : State), l < 384 ∧ pair < 4 ∧ widthCapable (s.lport l) = true ∧ pairsOut (faultTarget (s.lport l) pair) ≤ 2) ∧
    (∃ (l : Nat) (w : WidthStep) (s : State), l < 384 ∧ (s.lport l).step = some w) ∧
    (∃ (l pair t : Nat) (s : State), l < 384 ∧ pair < 4 ∧ (s.lport l).linkUp = true ∧ (s.lport l).lanesOut.testBit pair = true ∧ (s.lport l).step = none ∧
      SMap.find pair (s.lport l).pairSince = some t ∧ t + tkS (s.setting 0x36 l) ≤ s.now) :=
  ⟨⟨376, lportUp { run with now := tkS 1 } 376 cfg8, by decide +kernel⟩,
   ⟨376, 8192, lportUp run 376 cfg8, by decide +kernel⟩,
   ⟨383, 0, run.onLport 383 (fun y => { y with lastHello := some 0 }) |> (fun s => { s with now := tkMs 300 }), by decide +kernel⟩,
   ⟨383, 376, (lportUp run 376 cfg8).onLport 376 (fun y => { y with peerUp := true, peerWidth := true }), by decide +kernel⟩,
   ⟨376, 3, (lportUp run 376 cfg8).onLport 376 (fun y => { y with peerUp := true, peerWidth := true, lanesOut := 1 }), by decide +kernel⟩,
   ⟨376, { target := 8, restoring := false }, (lportUp run 376 cfg8).onLport 376 (fun y => { y with step := some { target := 8, restoring := false } }),
      by decide +kernel⟩,
   ⟨376, 3, 0, (lportUp { run with now := tkS 10 } 376 cfg8).onLport 376 (fun y => { y with lanesOut := 8, pairSince := [(3, 0)] }), by decide +kernel⟩⟩

theorem witness_HealthAndLaneEventsAct :
    (∃ (l _ _ _ _ : Nat) (s : State), l < 384 ∧ (s.lport l).linkUp = true ∧ (s.lport l).winStart + tkMs (s.setting 0x31 l) ≤ s.now) ∧
    (∃ (l cw corr sym unc : Nat) (s : State), l < 384 ∧ (s.lport l).linkUp = true ∧ (s.lport l).oper ≠ 4 ∧ s.setting 0x34 l ≤ ((s.fecCount l cw corr sym
      unc).lport l).win.unc ∧ (s.fecCount l cw corr sym unc).degradedBy l ((s.fecCount l cw corr sym unc).lport l).win = false) ∧
    (∃ (l e : Nat) (s : State), l < 384 ∧ (s.lport l).oper = 4 ∧ (s.lport l).probEnd = some e ∧ e ≤ s.now) ∧
    (∃ (lane field want : Nat) (s : State), lane < 384 ∧ field < 7 ∧ boundSetting (s.lane lane).bounds field want = want) ∧
    (∃ (lane field want : Nat) (s : State), lane < 384 ∧ field < 7 ∧ boundSetting (s.lane lane).bounds field want ≠ want ∧ loopEpisodeNew (SMap.find field
      (s.lane lane).pinned) s.now = true) ∧
    (∃ (lane : Nat) (s : State), lane < 384 ∧ (s.lane lane).chk ≠ 0 ∧ (s.lane lane).locked = false) ∧
    (∃ (lane : Nat) (s : State), lane < 384 ∧ (s.lane lane).chk ≠ 0) :=
  ⟨⟨376, 1, 0, 0, 0, lportUp { run with now := tkMs 10 } 376 cfg8, by decide +kernel⟩,
   ⟨376, 0, 0, 0, 64, (lportUp run 376 cfg8).onCmd (fun c => { c with settings := [] }) |> (fun s => s.putSetting 0x33 376 100), by decide +kernel⟩,
   ⟨376, 5, (lportUp { run with now := 5 } 376 cfg8).onLport 376 (fun y => { y with oper := 4, probEnd := some 5 }), by decide +kernel⟩,
   ⟨383, 6, 127, run, by decide +kernel⟩,
   ⟨383, 6, 128, run, by decide +kernel⟩,
   ⟨383, run.onLane 383 (fun y => { y with chk := 1 }), by decide +kernel⟩,
   ⟨383, run.onLane 383 (fun y => { y with chk := 8, locked := true }), by decide +kernel⟩⟩

theorem witness_ModuleEventsAct :
    (∃ (c : Nat) (s : State), c < 48 ∧ (s.module c).state = 0 ∧ 2 ≤ s.cmd.mode) ∧
    (∃ (c : Nat) (s : State), c < 48 ∧ (s.module c).state = 1 ∧ (s.module c).step = 2 ∧ (s.module c).since + (s.module c).limit ≤ s.now) ∧
    (∃ (c p identifier : Nat) (cmis : Bool) (vendor part : List Byte) (serial firmware power : Nat) (apps : List (Nat × Nat × Nat)) (up dp : Nat) (s s1 s2
      : State), c < 48 ∧ (s.module c).state = 1 ∧ (s.module c).step = 3 ∧ s.portOfCage c = some p ∧ s1 = s.onModule c (fun m => { m with state := 2, step := 4, since := s.now, faultCause := 0, id := some { identifier := identifier, cmis := cmis, vendor := vendor, part := part, serial := serial, firmware := firmware, power := power, apps := apps, pwrUpMs := up, dpInitMs := dp } })
      ∧ s2 = (if s.book.ledger.any (fun r => r.type == 4 && r.body == moduleSeen c serial) then s1 else s1.ledgerWrite 4 (moduleSeen c serial))) ∧
    (∃ (c : Nat) (s : State), c < 48 ∧ (s.module c).state = 3 ∧ (s.module c).step = 6) ∧
    (∃ (c p : Nat) (s : State), c < 48 ∧ (s.module c).state = 3 ∧ (s.module c).step = 7 ∧ s.portOfCage c = some p ∧ ((s.onModule c (fun m => { m with state := 4, step := 8, since := s.now })).postModule
      p Ev.moduleReady p (leBytes 1 p ++ leBytes 1 c ++ zeros 2)).portAdmitted p = true) ∧
    (∃ (c n : Nat) (s : State), c < 48 ∧ moduleLimit (s.module c) = some n ∧ (s.module c).since + n ≤ s.now) ∧
    (∃ (c : Nat) (_ : Bool) (s : State), c < 48 ∧ ((s.module c).state = 2 ∨ (s.module c).state = 3 ∨ (s.module c).state = 4)) ∧
    (∃ (c serial : Nat) (_ : Int) (_ _ : Bool) (i : ModuleId) (s : State), c < 48 ∧ 2 ≤ (s.module c).state ∧ (s.module c).id = some i ∧ i.serial = serial) ∧
    (∃ (c _ : Nat) (_ : Int) (_ _ : Bool) (s : State), c < 48 ∧ 2 ≤ (s.module c).state) ∧
    (∃ (c : Nat) (s : State), c < 48 ∧ (s.module c).state ≠ 0 ∧ 2 ≤ s.cmd.mode) ∧
    (∃ (bus : Nat) (_ : State), bus < 8) :=
  ⟨⟨47, house, by decide +kernel⟩,
   ⟨47, house.onModule 47 (fun m => { m with state := 1, step := 2 }), by decide +kernel⟩,
   ⟨47, 47, 0x19, true, [], [], 7, 1, 255, [], 10, 100, ledgered (caged house 1 3) 4 (moduleSeen 47 7), (ledgered (caged house 1 3) 4 (moduleSeen 47
      7)).onModule 47 (fun m => { m with state := 2, step := 4, since := 0, faultCause := 0, id := some { identifier := 0x19, cmis := true, vendor := [], part := [], serial := 7, firmware := 1, power := 255, apps := [], pwrUpMs := 10, dpInitMs := 100 } }),
      (ledgered (caged house 1 3) 4 (moduleSeen 47 7)).onModule 47 (fun m => { m with state := 2, step := 4, since := 0, faultCause := 0, id := some { identifier := 0x19, cmis := true, vendor := [], part := [], serial := 7, firmware := 1, power := 255, apps := [], pwrUpMs := 10, dpInitMs := 100 } }),
      by decide +kernel⟩,
   ⟨47, caged house 3 6, by decide +kernel⟩,
   ⟨47, 47, caged run 3 7, by decide +kernel⟩,
   ⟨47, tkMs 100, { caged house 3 7 with now := tkMs 100 }, by decide +kernel⟩,
   ⟨47, false, caged house 4 8, by decide +kernel⟩,
   ⟨47, 7, 70, false, false, aModule 7, caged house 2 4, by decide +kernel⟩,
   ⟨47, 7, 0, false, false, caged house 4 8, by decide +kernel⟩,
   ⟨47, caged house 4 8, by decide +kernel⟩,
   ⟨7, house, by decide +kernel⟩⟩

theorem witness_ModuleCommandsAct :
    (Meets opModuleStatus (fun m s => m.plen = 4 ∧ m.u8 0 ≤ 47 ∧ m.zero 1 3 = true ∧ s.ownsPort (s.stageOf m) (m.u8 0) = true)) ∧
    (Meets opModuleStatus (fun m _ => m.plen = 4 ∧ m.u8 0 = 0xFF ∧ m.zero 1 3 = true)) ∧
    (∃ (bs : List Byte), Meets opModuleRead (fun m s => m.plen = 8 ∧ m.u8 0 ≤ 47 ∧ 1 ≤ m.u8 4 ∧ m.u8 4 ≤ 128 ∧ m.u8 3 + m.u8 4 ≤ 256 ∧ m.zero 5 3 = true ∧
      (m.async && s.atLimit m) = false ∧ s.ownsPort (s.stageOf m) (m.u8 0) = true ∧ s.reachable (m.u8 0) = true ∧ m.ext = some bs)) ∧
    (∃ (c : Nat), Meets opModuleWrite (fun m s => m.plen = 8 + m.u8 4 ∧ m.u8 0 ≤ 47 ∧ 1 ≤ m.u8 4 ∧ m.u8 4 ≤ 128 ∧ m.u8 3 + m.u8 4 ≤ 256 ∧ m.zero 5 3 =
      true ∧ (m.async && s.atLimit m) = false ∧ s.ownsPort (s.stageOf m) (m.u8 0) = true ∧ (m.u8 2 = 3 ∨ 128 ≤ m.u8 2) ∧ 128 ≤ m.u8 3 ∧ s.reachable
      (m.u8 0) = true ∧ m.ext.isSome = true ∧ s.cageOf (m.u8 0) = some c)) ∧
    (∃ (c : Nat), Meets opModuleReset (fun m s => m.plen = 4 ∧ m.u8 0 ≤ 47 ∧ m.zero 1 3 = true ∧ (m.async && s.atLimit m) = false ∧ s.ownsPort (s.stageOf
      m) (m.u8 0) = true ∧ s.cageOf (m.u8 0) = some c ∧ (s.module c).state ≠ 0 ∧ (s.portOfCage c).isSome = true)) :=
  ⟨meets (msg 0 [47, 0, 0, 0]) (caged house 4 8) (by decide +kernel) (by decide +kernel),
   meets (msg 0 [255, 0, 0, 0]) (caged house 4 8) (by decide +kernel) (by decide +kernel),
   ⟨octets [1, 2], meets (msgExt 0 [47, 0, 0x11, 128, 128, 0, 0, 0] [1, 2]) (caged house 4 8) (by decide +kernel) (by decide +kernel)⟩,
   ⟨47, meets (msgExt 0 [47, 0, 3, 255, 1, 0, 0, 0, 9] []) (caged house 4 8) (by decide +kernel) (by decide +kernel)⟩,
   ⟨47, meets (msg 0 [47, 0, 0, 0]) (caged house 4 8) (by decide +kernel) (by decide +kernel)⟩⟩

theorem witness_ParseGroupActs :
    (MeetsLoad opParseLoad 1 (fun s k => (s.stage k).state ≠ 3 ∧ s.committing k = false ∧ (s.graphs k).full = false)) ∧
    (∃ (k : Nat) (img : List Byte) (s : State), k ≤ 4 ∧ s.firstChecking k 1 = some img ∧ graphBad img = none ∧ ((s.popChecking k 1).onGraphs k (fun b => { b with next := none })).graphFits
      k (graphOf img).nodes.length = true) ∧
    (∃ (k st node : Nat) (img : List Byte) (_ : Bool) (s : State), k ≤ 4 ∧ s.firstChecking k 1 = some img ∧ graphBad img = some (st, node)) ∧
    (Meets opParseDiscard (fun m s => m.plen = 0 ∧ (s.stage (s.stageOf m)).state ≠ 3 ∧ s.committing (s.stageOf m) = false)) ∧
    (∃ (g : Graph), Meets opParseRead (fun m s => m.plen = 8 ∧ m.zero 1 3 = true ∧ (m.u8 0 ≤ 13 ∨ m.u8 0 = 15) ∧ bindOf s (s.stageOf m) (m.u8 0) (s.graphs
      (s.stageOf m)) = some g ∧ m.u32 4 < g.image.length)) ∧
    (Meets opParseStatus (fun m _ => m.plen = 0)) ∧
    (∃ (t w : Nat) (s s1 : State), t < 8 ∧ w < 1024 ∧ s.tab.nodeBad.contains (t * 1024 + w) = true ∧ s1 = s.onTab (fun a => { a with nodeBad := a.nodeBad.filter (fun x => x != t * 1024 + w), nodeTile := SMap.erase (t * 1024 + w) a.nodeTile })) :=
  ⟨meetsLoad (chunk 0 5 0 [1, 2]) house ({ total := 5, bytes := octets [1, 2], final := false }) (by decide +kernel) (by decide +kernel),
   ⟨0, graphImage goodNode, checking 1 (graphImage goodNode), by decide +kernel⟩,
   ⟨0, 5, 0, graphImage (goodNode + 2 ^ 544), true, checking 1 (graphImage (goodNode + 2 ^ 544)), by decide +kernel⟩,
   meets (msg 0 []) house (by decide +kernel) (by decide +kernel),
   ⟨graphOf (graphImage goodNode), meets (msg 0 [0, 0, 0, 0, 159, 0, 0, 0]) bound (by decide +kernel) (by decide +kernel)⟩,
   meets (msg 0 []) bound (by decide +kernel) (by decide +kernel),
   ⟨7, 1023, house.onTab (fun t => { t with nodeBad := [8191] }), house, by decide +kernel⟩⟩

theorem witness_PatternGroupActs :
    (MeetsLoad opPatternLoad 2 (fun s k => (s.stage k).state ≠ 3 ∧ s.committing k = false ∧ (s.sets k).full = false)) ∧
    (∃ (k : Nat) (img : List Byte) (s : State), k ≤ 4 ∧ s.firstChecking k 2 = some img ∧ patternBad img = none ∧ (s.stageTiles k).any (fun t => decide
      (((s.popChecking k 2).onSets k (fun b => { b with next := none })).statesFree t < (patSetOf img).states)) = false) ∧
    (∃ (k st : Nat) (img : List Byte) (_ : Bool) (s : State), k ≤ 4 ∧ s.firstChecking k 2 = some img ∧ patternBad img = some st) ∧
    (Meets opPatternDiscard (fun m s => m.plen = 0 ∧ (s.stage (s.stageOf m)).state ≠ 3 ∧ s.committing (s.stageOf m) = false)) ∧
    (∃ (x : PatSet), Meets opPatternRead (fun m s => m.plen = 8 ∧ m.zero 1 3 = true ∧ (m.u8 0 ≤ 13 ∨ m.u8 0 = 15) ∧ bindOf s (s.stageOf m) (m.u8 0)
      (s.sets (s.stageOf m)) = some x ∧ m.u32 4 < x.image.length)) ∧
    (Meets opPatternStatus (fun m _ => m.plen = 0)) ∧
    (Meets opPatternBounds (fun m _ => m.plen = 4 ∧ m.u8 0 ≤ 3 ∧ m.u8 1 ≤ m.u8 0 ∧ m.zero 2 2 = true)) ∧
    (∃ (die : Nat) (_ : Int) (_ : State), die < 2) ∧
    (∃ (t e : Nat) (s : State), t < 8 ∧ e < 4 ∧ s.tab.engBad.contains (t * 4 + e) = true) :=
  ⟨meetsLoad (chunk 0 2 1 [1, 2]) house ({ total := 2, bytes := octets [1, 2], final := true }) (by decide +kernel) (by decide +kernel),
   ⟨0, setImage 0, checking 2 (setImage 0), by decide +kernel⟩,
   ⟨0, 5, setImage 1, false, checking 2 (setImage 1), by decide +kernel⟩,
   meets (msg 0 []) house (by decide +kernel) (by decide +kernel),
   ⟨patSetOf (setImage 0), meets (msg 0 [0, 0, 0, 0, 0, 0, 0, 0]) bound (by decide +kernel) (by decide +kernel)⟩,
   meets (msg 0 []) bound (by decide +kernel) (by decide +kernel),
   meets (msg 0 [3, 3, 0, 0]) house (by decide +kernel) (by decide +kernel),
   ⟨1, 1051, house, by decide +kernel⟩,
   ⟨7, 3, house.onTab (fun t => { t with engBad := [31] }), by decide +kernel⟩⟩

theorem witness_SurveysAct :
    (∃ (key : Nat) (x : State), Meets opPatternQuery (fun m s => 16 ≤ m.plen ∧ m.plen ≤ 16368 ∧ m.u8 0 ≤ 7 ∧ m.zero 1 15 = true ∧ (s.stageTiles (s.stageOf
      m)).contains (m.u8 0) = true ∧ s.atLimit m = false ∧ s.allocBuffer (64 + s.mbOf m) (s.stageOf m) (m.payload.drop 16).length = some (key, x))) ∧
    (∃ (h : Nat) (j : Survey) (s : State), SMap.find h s.tab.surveys = some j ∧ j.done = false ∧ s.engines j.tile ≠ 0 ∧ (allMatches j.auto j.data).length
      ≤ 8) ∧
    (∃ (h : Nat) (j : Survey) (s : State), SMap.find h s.tab.surveys = some j ∧ j.done = false ∧ j.query = none ∧ j.startedAt + tkUs (s.setting 0x0014
      j.stage) ≤ s.now) ∧
    (∃ (j : Survey) (b : Buffer), Meets opPatternStep (fun m s => m.plen = 8 ∧ SMap.find (m.u32 0) s.tab.surveys = some j ∧ j.stage = s.stageOf m ∧
      s.buffer (keyOfHandle (m.u32 0)) = some b ∧ b.gen = genOfHandle (m.u32 0) ∧ b.retained = true)) :=
  ⟨⟨0, ((house.intake opPatternQuery (msg 0 [7, 0, 0, 0, 0, 0, 0, 0, 0, 0, 0, 0, 0, 0, 0, 0, 5])).allocBuffer 64 0 1 |>.getD (0, house)).2, meets (msg 0
      [7, 0, 0, 0, 0, 0, 0, 0, 0, 0, 0, 0, 0, 0, 0, 0, 5]) house (by decide +kernel) (by decide +kernel)⟩,
   ⟨0x10001, aSurvey, surveying 0, by decide +kernel⟩,
   ⟨0x10001, aSurvey, surveying (tkMs 100), by decide +kernel⟩,
   ⟨aSurvey, aBuffer, meets (msg 0 [1, 0, 1, 0, 0, 0, 0, 0]) ((surveying 0).onPools (fun p => { p with buffers := [(1, aBuffer)] })) (by decide +kernel)
      (by decide +kernel)⟩⟩

theorem witness_EditGroupActs :
    (MeetsLoad opEditLoad 3 (fun s k => (s.stage k).state ≠ 3 ∧ s.noInactive k = false ∧ s.committing k = false)) ∧
    (∃ (k bank : Nat) (img : List Byte) (s : State), k ≤ 4 ∧ s.firstChecking k 3 = some img ∧ editBad (s.edit k) img = none ∧ (s.edit k).inactive
      (s.hasRetiring k) = some bank) ∧
    (∃ (k st w : Nat) (img : List Byte) (_ : Bool) (s : State), k ≤ 4 ∧ s.firstChecking k 3 = some img ∧ editBad (s.edit k) img = some (st, w)) ∧
    (Meets opEditSwap (fun m s => m.plen = 0 ∧ (s.stage (s.stageOf m)).state ≠ 3 ∧ s.noInactive (s.stageOf m) = false ∧ s.committing (s.stageOf m) =
      false)) ∧
    (Meets opEditRead (fun m s => m.plen = 8 ∧ m.zero 1 1 = true ∧ m.zero 6 2 = true ∧ m.u8 0 ≤ 13 ∧ 1 ≤ m.u16 4 ∧ m.u16 4 ≤ 1022 ∧ (m.u16 2 + m.u16 4 ≤
      6144 ∨ ((s.edit (s.stageOf m)).base ≤ m.u16 2 ∧ m.u16 2 + m.u16 4 ≤ (s.edit (s.stageOf m)).base + (s.edit (s.stageOf m)).count)) ∧ ((s.ver
      (s.stageOf m)).cur = m.u8 0 ∨ (s.ver (s.stageOf m)).retiring = some (m.u8 0)))) ∧
    (∃ (r : Nat), Meets opEditStatus (fun m s => m.plen = 0 ∧ (s.ver (s.stageOf m)).retiring = some r)) ∧
    (Meets opEditStatus (fun m s => m.plen = 0 ∧ (s.ver (s.stageOf m)).retiring = none)) ∧
    (Meets opEditRegion (fun m s => m.plen = 8 ∧ m.u8 0 ≤ 4 ∧ s.stageLive (m.u8 0) = true ∧ m.zero 1 1 = true ∧ m.zero 6 2 = true ∧ m.u16 2 % 64 = 0 ∧
      m.u16 4 % 64 = 0 ∧ 6144 ≤ m.u16 2 ∧ m.u16 2 + m.u16 4 ≤ 8192 ∧ s.liveStages.any (fun j => j != m.u8 0 && decide (0 < m.u16 4) && decide (0 <
      (s.edit j).count) && decide (m.u16 2 < (s.edit j).base + (s.edit j).count) && decide ((s.edit j).base < m.u16 2 + m.u16 4)) = false ∧ ((range
      (s.edit (m.u8 0)).base (s.edit (m.u8 0)).count).filter (fun a => decide (a < m.u16 2) || decide (m.u16 2 + m.u16 4 ≤ a))).any (fun a =>
      s.uwordAt 0 a != 0 || s.uwordAt 1 a != 0) = false)) ∧
    (∃ (t bank w : Nat) (s : State), t < 8 ∧ bank < 2 ∧ w < 8192 ∧ s.tab.ucodeBad.contains ((t * 2 + bank) * 8192 + w) = true) :=
  ⟨meetsLoad (chunk 0 5 0 [1, 2]) house ({ total := 5, bytes := octets [1, 2], final := false }) (by decide +kernel) (by decide +kernel),
   ⟨0, 1, editImage (uword 0 0 6 0 0 0 0 0 0 0 0), checking 3 (editImage (uword 0 0 6 0 0 0 0 0 0 0 0)), by decide +kernel⟩,
   ⟨0, 5, 6144, editImage (uword 7 0 6 0 0 0 0 0 0 0 0), true, checking 3 (editImage (uword 7 0 6 0 0 0 0 0 0 0 0)), by decide +kernel⟩,
   meets (msg 0 []) house (by decide +kernel) (by decide +kernel),
   meets (msg 0 [0, 0, 0xFF, 0x17, 1, 0, 0, 0]) house (by decide +kernel) (by decide +kernel),
   ⟨13, meets (msg 0 []) (house.onVer 0 (fun v => { v with retiring := some 13 })) (by decide +kernel) (by decide +kernel)⟩,
   meets (msg 0 []) house (by decide +kernel) (by decide +kernel),
   meets (msg 0 [4, 0, 0xC0, 0x1F, 0x40, 0, 0, 0]) ((house.putStage 4 (side 2)).onEdit 0 (fun e => { e with count := 1984 })) (by decide +kernel) (by
      decide +kernel),
   ⟨7, 1, 8191, house.onTab (fun t => { t with ucodeBad := [15 * 8192 + 8191] }), by decide +kernel⟩⟩

theorem witness_TableStagingActs :
    (Meets opTableCreate (fun m s => m.plen = 16 ∧ paddocksOk (m.u8 0) (m.u8 2) = true ∧ m.u8 1 = 0 ∧ m.zero 3 1 = true ∧ m.zero 12 4 = true ∧ s.atLimit m
      = false ∧ StagingOpen s (s.stageOf m) ∧ (s.stageTiles (s.stageOf m)).any (fun t => decide (s.padsFree (s.stageOf m) t < m.u8 2)) = false ∧
      (s.insts (s.stageOf m) (m.u8 0)).next = none)) ∧
    (∃ (k kind : Nat) (i : Inst) (s : State), k ≤ 4 ∧ kind < 16 ∧ (s.insts k kind).next = some i ∧ i.ready = false) ∧
    (Meets opTableProfile (fun m s => m.plen = 920 ∧ profileBad m s (s.stageOf m) = false ∧ BankOpen s (s.stageOf m))) ∧
    (Meets opTableDomain (fun m s => m.plen = 4 + 4 * m.u16 0 + 8 * m.u8 2 ∧ m.u16 0 ≤ 4096 ∧ m.u8 2 ≤ 32 ∧ m.zero 3 1 = true ∧ domainBad m s (s.stageOf
      m) = none ∧ BankOpen s (s.stageOf m))) ∧
    (Meets opTablePfxAdd (fun m s => 28 ≤ m.plen ∧ m.plen ≤ 512 * 28 ∧ m.plen % 28 = 0 ∧ (m.records 0 28).isEmpty = false ∧ (m.records 0 28).length ≤ 512
      ∧ firstBad (pfxBad (s.nextCfg (s.stageOf m)) true) (m.records 0 28) 0 = none ∧ BankOpen s (s.stageOf m))) ∧
    (Meets opTablePfxDelete (fun m s => 28 ≤ m.plen ∧ m.plen ≤ 512 * 28 ∧ m.plen % 28 = 0 ∧ (m.records 0 28).isEmpty = false ∧ (m.records 0 28).length ≤
      512 ∧ firstBad (pfxBad (s.nextCfg (s.stageOf m)) false) (m.records 0 28) 0 = none ∧ BankOpen s (s.stageOf m))) ∧
    (∃ (rs : List EntRec), Meets opTableEntryWrite (fun m s => entRecs m.payload 513 0 = some rs ∧ rs ≠ [] ∧ rs.length ≤ 512 ∧ firstBad (entBad s
      (s.stageOf m) false) rs 0 = none ∧ firstBad (entForeign s (s.stageOf m)) rs 0 = none ∧ BankOpen s (s.stageOf m))) ∧
    (∃ (rs : List EntRec), Meets opTableEntryDelete (fun m s => entRecs m.payload 513 0 = some rs ∧ rs ≠ [] ∧ rs.length ≤ 512 ∧ firstBad (entBad s
      (s.stageOf m) true) rs 0 = none ∧ firstBad (entForeign s (s.stageOf m)) rs 0 = none ∧ BankOpen s (s.stageOf m))) :=
  ⟨meets (msg 0 [13, 0, 32, 0, 0, 0, 0, 0, 0, 0, 0, 0, 0, 0, 0, 0]) house (by decide +kernel) (by decide +kernel),
   ⟨0, 12, { anInst 12 16 with ready := false }, house.onInsts 0 12 (fun b => { b with next := some { anInst 12 16 with ready := false } }), by
      decide +kernel⟩,
   meets (msgOf 0 (zeros 920)) house (by decide +kernel) ⟨by decide +kernel, profile_zeros 920 _ _, by decide +kernel⟩,
   meets (msgOf 0 (leBytes 2 1 ++ leBytes 1 1 ++ zeros 1 ++ (leBytes 2 4095 ++ leBytes 1 0 ++ leBytes 1 31) ++ (leBytes 1 31 ++ zeros 7))) (instanced 6
      32) (by decide +kernel) (by decide +kernel),
   meets (msgOf 0 (leBytes 1 4 ++ leBytes 1 32 ++ zeros 2 ++ zeros 24)) ((house.stageCfg 0 (fun c => { c with domains := [(0, 0)] }))) (by
      decide +kernel) (by decide +kernel),
   meets (msgOf 0 (leBytes 1 4 ++ zeros 27)) ((house.stageCfg 0 (fun c => { c with domains := [(0, 0)] }))) (by decide +kernel) (by decide +kernel),
   ⟨(entRecs (l2Record (2 ^ 122 + 399 * 2 ^ 51)) 513 0).getD [], meets (msgOf 0 (l2Record (2 ^ 122 + 399 * 2 ^ 51))) (instanced 1 32) (by decide +kernel)
      (by decide +kernel)⟩,
   ⟨(entRecs (l2Record (4095 * 2 ^ 108)) 513 0).getD [], meets (msgOf 0 (l2Record (4095 * 2 ^ 108))) (instanced 1 32) (by decide +kernel) (by
      decide +kernel)⟩⟩

theorem witness_TableReadsAndAborts :
    (Meets opTableRead (fun m s => m.plen = 40 ∧ (1 ≤ m.u8 0 ∧ m.u8 0 ≤ 5 ∨ 9 ≤ m.u8 0 ∧ m.u8 0 ≤ 12) ∧ m.u8 1 ≤ 7 ∧ m.u8 2 = 0 ∧ m.u8 3 ≤ 15 ∧ m.zero 10
      2 = true ∧ m.u32 4 = 0 ∧ m.u16 8 = 0 ∧ readKeyOk (m.u8 0) m = true ∧ (s.stageTiles (s.stageOf m)).contains (m.u8 1) = true ∧ (s.readView
      (s.stageOf m) (m.u8 0) (m.u8 3)).live = true ∧ s.readByKey (s.stageOf m) (m.u8 0) (m.u8 1) (m.u8 3) m (s.readView (s.stageOf m) (m.u8 0) (m.u8
      3)) ≠ [])) ∧
    (∃ (i : Inst), Meets opTableRead (fun m s => m.plen = 40 ∧ (1 ≤ m.u8 0 ∧ m.u8 0 ≤ 5 ∨ 9 ≤ m.u8 0 ∧ m.u8 0 ≤ 12) ∧ m.u8 1 ≤ 7 ∧ m.u8 2 = 1 ∧ m.u8 3 ≤
      15 ∧ m.zero 10 2 = true ∧ 1 ≤ m.u16 8 ∧ m.u16 8 ≤ 256 ∧ m.zero 12 28 = true ∧ (s.stageTiles (s.stageOf m)).contains (m.u8 1) = true ∧
      (s.readView (s.stageOf m) (m.u8 0) (m.u8 3)).live = true ∧ (s.readView (s.stageOf m) (m.u8 0) (m.u8 3)).inst = some i)) ∧
    (Meets opTableFlushLearned (fun m s => m.plen = 8 ∧ m.u8 0 = 0 ∧ m.zero 1 1 = true ∧ m.u16 4 ≤ 4095 ∧ m.zero 6 2 = true ∧ (m.async && s.atLimit m) =
      false)) ∧
    (Meets opTableAbort (fun m s => m.plen = 0 ∧ BankOpen s (s.stageOf m))) ∧
    (Meets opTableAbort (fun m s => m.plen = 0 ∧ StagingOpen s (s.stageOf m) ∧ s.hasRetiring (s.stageOf m) = true)) ∧
    (Meets opTableVstatus (fun m _ => m.plen = 0)) :=
  ⟨meets (msgOf 0 (leBytes 1 12 ++ leBytes 1 7 ++ leBytes 1 0 ++ leBytes 1 14 ++ zeros 8 ++ leBytes 4 65535 ++ zeros 24)) ((instanced 12 1).putBacks 0 12
      (tileKey 7 65535) [{ vmask := 3, content := 1 }]) (by decide +kernel) (by decide +kernel),
   ⟨anInst 1 1, meets (msgOf 0 (leBytes 1 1 ++ leBytes 1 7 ++ leBytes 1 1 ++ leBytes 1 14 ++ zeros 4 ++ leBytes 2 256 ++ zeros 30)) (instanced 1 1) (by
      decide +kernel) (by decide +kernel)⟩,
   meets (msgOf 0 (zeros 4 ++ leBytes 2 4095 ++ zeros 2)) house (by decide +kernel) (by decide +kernel),
   meets (msg 0 []) house (by decide +kernel) (by decide +kernel),
   meets (msg 0 []) (house.onVer 0 (fun v => { v with retiring := some 13 })) (by decide +kernel) (by decide +kernel),
   meets (msg 0 []) house (by decide +kernel) (by decide +kernel)⟩

theorem witness_RuleGroupActs :
    (Meets opRuleBlock (fun m s => m.plen = 8 ∧ m.u8 0 ≤ 31 ∧ m.u8 1 ≤ 4 ∧ s.stageLive (m.u8 1) = true ∧ m.u8 2 ≤ 15 ∧ 2 ≤ m.u8 3 ∧ m.u8 3 ≤ 6 ∧ m.zero 4
      4 = true ∧ (s.block (m.u8 0)).rules = [] ∧ (s.banksInUse (s.block (m.u8 0)).stage).any (fun c => c.presel.any (fun e => e.2.getD 2 63 == m.u8 0
      || e.2.getD 3 63 == m.u8 0)) = false)) ∧
    (Meets opRuleLayout (fun m s => m.plen = 16 ∧ m.u8 0 ≤ 15 ∧ ((range 1 15).map m.u8).all laneSourceOk = true ∧ BankOpen s (s.stageOf m))) ∧
    (Meets opRuleRange (fun m s => m.plen = 8 ∧ m.u8 0 ≤ 63 ∧ rangeSourceOk (m.u8 1) = true ∧ m.u8 2 ≤ 16 ∧ m.u8 3 ≤ 1 ∧ s.othersHold (s.stageOf m) (fun b
      => SMap.has (m.u8 0) b.ranges) = false ∧ BankOpen s (s.stageOf m))) ∧
    (∃ (v w : Nat), Meets opRulePreselect (fun m s => m.plen = 28 ∧ m.u8 0 ≤ 63 ∧ m.u8 3 ≤ 1 ∧ [m.u8 1, m.u8 2].any (fun b => decide (31 < b) && b !=
      0x3F) = false ∧ v = beNat (sliceB m.payload 4 12) ∧ w = beNat (sliceB m.payload 16 12) ∧ v &&& w = v ∧ bitsOf v 0 5 = 0 ∧ bitsOf w 0 5 = 0 ∧
      s.othersHold (s.stageOf m) (fun b => SMap.has (m.u8 0) b.presel) = false ∧ [m.u8 1, m.u8 2].any (fun b => b != 0x3F && (s.block b).stage !=
      s.stageOf m) = false ∧ BankOpen s (s.stageOf m))) ∧
    (Meets opRuleDefault (fun m s => m.plen = 32 ∧ defaultOk (fieldLE m.payload 0 16) = true ∧ defaultOk (fieldLE m.payload 16 16) = true ∧ BankOpen s
      (s.stageOf m))) ∧
    (∃ (x : Block), Meets opRuleAdd (fun m s => m.plen = 148 ∧ m.u8 0 ≤ 31 ∧ m.zero 1 3 = true ∧ (s.ruleOf (s.stageOf m) m).value &&& (s.ruleOf (s.stageOf
      m) m).mask = (s.ruleOf (s.stageOf m) m).value ∧ actionOk (s.ruleOf (s.stageOf m) m).action = true ∧ (s.block (m.u8 0)).stage = s.stageOf m ∧
      (actPolEn (s.ruleOf (s.stageOf m) m).action = true → s.ownsPolicer (s.stageOf m) (actPolicer (s.ruleOf (s.stageOf m) m).action) = true) ∧
      BankOpen s (s.stageOf m) ∧ s.findRule (s.stageOf m) (s.ruleOf (s.stageOf m) m).ruleId (s.nextMask (s.stageOf m)) = none ∧ (s.block (m.u8
      0)).insertRule (s.ruleOf (s.stageOf m) m) = some x)) ∧
    (∃ (b p : Nat) (r : Rule), Meets opRuleDelete (fun m s => m.plen = 4 ∧ BankOpen s (s.stageOf m) ∧ s.findRule (s.stageOf m) (m.u32 0) (s.nextMask
      (s.stageOf m)) = some (b, p, r))) ∧
    (Meets opRuleRead (fun m s => m.plen = 8 ∧ m.u8 0 ≤ 31 ∧ m.zero 1 3 = true ∧ 1 ≤ m.u16 6 ∧ m.u16 6 ≤ 100 ∧ m.u16 4 + m.u16 6 ≤ 1024 ∧ (s.block (m.u8
      0)).stage = s.stageOf m)) ∧
    (∃ (b : Nat) (s : State), b < 32 ∧ (s.block b).rules.length ≤ (s.block b).capacity ∧ (s.block b).holeUsed = true) :=
  ⟨meets (msg 0 [31, 4, 15, 6, 0, 0, 0, 0]) (house.putStage 4 (side 2)) (by decide +kernel) (by decide +kernel),
   meets (msg 0 [15, 0, 0x48, 255, 255, 255, 255, 255, 255, 255, 255, 255, 255, 255, 255, 255]) house (by decide +kernel) (by decide +kernel),
   meets (msg 0 [63, 0x48, 16, 1, 0, 0, 255, 255]) house (by decide +kernel) (by decide +kernel),
   ⟨32, 32, meets (msg 0 ([63, 0x3F, 0x3F, 1] ++ List.replicate 11 0 ++ [32] ++ List.replicate 11 0 ++ [32])) house (by decide +kernel) (by
      decide +kernel)⟩,
   meets (msg 0 (List.replicate 32 0)) house (by decide +kernel) (by decide +kernel),
   ⟨((house.block 31).insertRule (house.ruleOf 0 (msg 0 (31 :: List.replicate 147 0)))).getD Block.reset, meets (msg 0 (31 :: List.replicate 147 0))
      house (by decide +kernel) (by decide +kernel)⟩,
   ⟨31, 1023, aRule, meets (msg 0 [9, 0, 0, 0]) (ruled 1023) (by decide +kernel) (by decide +kernel)⟩,
   meets (msg 0 [31, 0, 0, 0, 0xFF, 3, 1, 0]) (ruled 1023) (by decide +kernel) (by decide +kernel),
   ⟨31, ruled 1023, by decide +kernel⟩⟩

theorem witness_CommitsAct :
    (Meets opTableCommit (fun m s => m.plen = 16 ∧ m.zero 6 2 = true ∧ m.u32 8 < 1000000000 ∧ m.u8 12 ≤ 1 ∧ m.zero 13 3 = true ∧ (commitAsap m = true ∨
      commitTime m ≤ s.netLinear + 60000000000) ∧ s.atLimit m = false ∧ (s.stage (s.stageOf m)).state ≠ 3 ∧ (s.ver (s.stageOf m)).state = 0)) ∧
    (∃ (k : Nat) (s : State), k ≤ 4 ∧ (s.ver k).state = 1 ∧ s.batchReady k = true) ∧
    (∃ (k : Nat) (s : State), k ≤ 4 ∧ (s.ver k).state = 1 ∧ s.batchReady k = true) ∧
    (∃ (k : Nat) (s : State), k ≤ 4 ∧ (s.ver k).state = 2 ∧ (s.ver k).flipTime ≤ s.netLinear) ∧
    (Meets opTableCommitCancel (fun m s => m.plen = 0 ∧ (s.stage (s.stageOf m)).state ≠ 3 ∧ ((s.ver (s.stageOf m)).state = 1 ∨ (s.ver (s.stageOf m)).state
      = 2 ∧ s.netLinear + 2000 < (s.ver (s.stageOf m)).flipTime))) ∧
    (∃ (k r : Nat) (s : State), k ≤ 4 ∧ (s.ver k).state = 3 ∧ (s.ver k).retiring = some r ∧ s.drained k r = true) ∧
    (∃ (k r : Nat) (s : State), k ≤ 4 ∧ (s.ver k).state = 4 ∧ (s.ver k).retiring = some r) ∧
    (∃ (k : Nat) (s : State), k ≤ 4 ∧ s.stageLive k = true) :=
  ⟨meets (msg 0 [0, 0, 0, 0, 0, 0, 0, 0, 0, 0, 0, 0, 1, 0, 0, 0]) house (by decide +kernel) (by decide +kernel),
   ⟨0, inVersion { Ver.reset with state := 1 }, by decide +kernel⟩,
   ⟨0, inVersion { Ver.reset with state := 1 }, by decide +kernel⟩,
   ⟨0, inVersion { Ver.reset with state := 2 }, by decide +kernel⟩,
   meets (msg 0 []) (inVersion { Ver.reset with state := 2, flipTime := 2001 }) (by decide +kernel) (by decide +kernel),
   ⟨0, 13, inVersion { Ver.reset with state := 3, retiring := some 13 }, by decide +kernel⟩,
   ⟨0, 13, inVersion { Ver.reset with state := 4, retiring := some 13 }, by decide +kernel⟩,
   ⟨0, house, by decide +kernel⟩⟩

theorem witness_TileTableEventsAct :
    (∃ (t : Nat) (p : Prov) (s : State), t < 8 ∧ s.tab.provs.find? (fun p => p.tile == t && p.verdict.isSome) = some p) ∧
    (∃ (k : Nat) (_ : State), k ≤ 4) ∧
    (∃ (t k n : Nat) (s : State), t < 8 ∧ k ≤ 4 ∧ SMap.get (0, 0) (t * 5 + k) s.tab.moveRate = (s.now / tkS 1, n) ∧ s.setting 0x0011 k < n ∧ SMap.find
      (512 + (t * 5 + k)) s.tab.onsets = none) ∧
    (∃ (t pad line word : Nat) (_ : Bool) (s : State), placeOk t pad line word = true ∧ s.tab.insts.any (fun e => e.1 % 16 == 1 && e.2.all.any (fun i =>
      (SMap.get [] t i.pads).contains pad)) = true ∧ entVmask 1 (s.word (wordKey t pad line word)) ≠ 0 ∧ entLearned 1 (s.word (wordKey t pad line
      word)) = true ∧ l2Prov (s.word (wordKey t pad line word)) = false) ∧
    (∃ (t pad line word k kind addr w : Nat) (s : State), placeOk t pad line word = true ∧ k = (s.padStage t pad).getD 0 ∧ kind = ((s.padInst t pad).map
      (fun x => x.2.kind)).getD 0 ∧ addr = (pad * 8192 + line) * 4 + word ∧ w = wordKey t pad line word) ∧
    (∃ (t pad line word w : Nat) (s : State), placeOk t pad line word = true ∧ w = wordKey t pad line word ∧ s.tab.poison.contains w = true) :=
  ⟨⟨7, aProv, house.onTab (fun t => { t with provs := [aProv] }), by decide +kernel⟩,
   ⟨4, house.onTab (fun t => { t with staticNew := [(4, 4095, 7)] }), by decide +kernel⟩,
   ⟨7, 4, 1001, house.onTab (fun t => { t with moveRate := [(39, (0, 1001))] }), by decide +kernel⟩,
   ⟨7, 95, 8191, 3, false, (instanced 1 1).onTab (fun t => { t with sram := [(wordKey 7 95 8191 3, 3 * 2 ^ 126)] }), by decide +kernel⟩,
   ⟨7, 95, 8191, 3, 0, 0, (95 * 8192 + 8191) * 4 + 3, wordKey 7 95 8191 3, house, by decide +kernel⟩,
   ⟨7, 95, 8191, 3, wordKey 7 95 8191 3, house.onTab (fun t => { t with poison := [wordKey 7 95 8191 3] }), by decide +kernel⟩⟩

theorem witness_ArrivalsAndPausesAct :
    (∃ (l : Nat) (w : List Byte) (_ _ _ : Bool) (s : State), l < 384 ∧ (s.lport l).linkUp = true ∧ (s.lport l).peer = false ∧ isPause w = false) ∧
    (∃ (t _ : Nat) (_ : State), t < 8) ∧
    (∃ (l c at_ : Nat) (s : State), l < 384 ∧ c ≤ 8 ∧ SMap.find (xoffKey l c) s.sw.xoff = some at_ ∧ s.xoffHolds l c = true ∧ at_ + s.quantaTicks l
      (s.setting 0x38 l) / 2 ≤ s.now) ∧
    (∃ (l c : Nat) (s : State), l < 384 ∧ c < 8 ∧ SMap.has (xoffKey l c) s.sw.xoff = true ∧ s.xoffHolds l c = false) ∧
    (∃ (l _ : Nat) (s : State), l < 384 ∧ (s.lport l).linkUp = true ∧ cfgFc (s.lport l).conf = 1) ∧
    (∃ (l c : Nat) (p : Pause) (s : State), l < 384 ∧ c < 8 ∧ s.pauseOf l c = some p ∧ p.until_ ≤ s.now) ∧
    (∃ (l c : Nat) (p : Pause) (s : State), l < 384 ∧ c < 8 ∧ s.pauseOf l c = some p ∧ p.watchdog = false ∧ p.since + tkMs (s.eg l).pauseWd ≤ s.now) :=
  ⟨⟨376, zeros 64, true, false, true, lportUp run 376 cfgPlain, by decide +kernel⟩,
   ⟨7, 0, holding (aPkt .fifo), by decide +kernel⟩,
   ⟨383, 8, 0, run.onSw (fun w => { w with xoff := [(4479, 0)], fifoHigh := [383] }), by decide +kernel⟩,
   ⟨383, 7, run.onSw (fun w => { w with xoff := [(3071, 0)] }), by decide +kernel⟩,
   ⟨376, 65535, lportUp run 376 (cfgPlain + 2 ^ 54), by decide +kernel⟩,
   ⟨383, 7, { until_ := 0, since := 0, watchdog := false }, run.setPause 383 7 { until_ := 0, since := 0, watchdog := false }, by decide +kernel⟩,
   ⟨383, 7, { until_ := 0, since := 0, watchdog := false }, { run with now := tkMs 100 }.setPause 383 7 { until_ := 0, since := 0, watchdog := false },
      by decide +kernel⟩⟩

theorem witness_PipeLookupsAct :
    (∃ (id _ : Nat) (q : Pkt) (s : State), s.pkt id = some q ∧ q.phase = .placed ∧ q.direct = false ∧ s.graphFor (s.versioned q) = none) ∧
    (∃ (id ue : Nat) (q : Pkt) (g : Graph) (s : State), s.pkt id = some q ∧ q.phase = .placed ∧ q.direct = false ∧ s.graphFor (s.versioned q) = some g ∧
      (s.walkGraph (s.versioned q) g ue).res.pxCode ≠ 0xF6) ∧
    (∃ (id _ : Nat) (p : Pkt) (s : State), s.pkt id = some p ∧ (p.phase = .parsed ∨ p.phase = .lookedUp ∨ p.phase = .matched)) ∧
    (∃ (id : Nat) (_ : Bool) (q : Pkt) (s : State), s.pkt id = some q ∧ q.phase = .parsed ∧ q.direct = false) ∧
    (∃ (t id start _ : Nat) (p : Pkt) (s : State), t < 8 ∧ s.pkt id = some p ∧ s.scanStarts t id start p = true) ∧
    (∃ (id : Nat) (p : Pkt) (s : State), s.pkt id = some p ∧ p.phase = .lookedUp ∧ p.scan.st = 1 ∧ 34 < p.scan.latest) ∧
    (∃ (id _ : Nat) (p : Pkt) (s : State), s.pkt id = some p ∧ p.phase = .lookedUp ∧ p.scan.st ≠ 1) :=
  ⟨⟨5, 0, aPkt .placed, holding (aPkt .placed), by decide +kernel⟩,
   ⟨5, 0, aPkt .placed, placed, (holding (aPkt .placed)).onGraphs 0 (fun b => { b with cur := some placed }), by decide +kernel⟩,
   ⟨5, 1, aPkt .lookedUp, holding (aPkt .lookedUp), by decide +kernel⟩,
   ⟨5, true, aPkt .parsed, holding (aPkt .parsed), by decide +kernel⟩,
   ⟨7, 5, 16, 0, aScan 16, holding (aScan 16), by decide +kernel⟩,
   ⟨5, aScan 35, holding (aScan 35), by decide +kernel⟩,
   ⟨5, 0, aPkt .lookedUp, holding (aPkt .lookedUp), by decide +kernel⟩⟩

theorem witness_PipeEndsAct :
    (∃ (id : Nat) (p : Pkt) (s : State), s.pkt id = some p ∧ p.spec = 1 ∧ s.mayGrant id p = true) ∧
    (∃ (id : Nat) (p : Pkt) (s : State), s.pkt id = some p ∧ p.spec = 1 ∧ s.mayGrant id p = false) ∧
    (∃ (id : Nat) (_ : Bool) (p : Pkt) (s : State), s.pkt id = some p ∧ p.phase = .matched ∧ p.spec ≠ 1 ∧ p.fin.exit < 392 ∧ p.verdict.isSome = true ∧
      p.knownBad 45 = false) ∧
    (∃ (x : Nat) (r : GrantBack) (s : State), x < 384 ∧ s.sw.returns.find? (fun r => r.exit == x) = some r) ∧
    (∃ (id : Nat) (p : Pkt) (s : State), s.pkt id = some p ∧ p.awaitsTail = true) ∧
    (∃ (t src : Nat) (_ : State), t < 8 ∧ src < 50) ∧
    (∃ (t src id : Nat) (p : Pkt) (s : State), t < 8 ∧ src < 50 ∧ ((s.releaseRun t src 4096).releaseLate t src).pkt id = some p ∧ (((s.releaseRun t src
      4096).releaseLate t src).pktsWhere (fun p => p.tile == t && p.src == src && p.phase == .done)).contains id = true ∧ p.heldAt + 256 * pclkTicks
      ((s.releaseRun t src 4096).releaseLate t src) ≤ ((s.releaseRun t src 4096).releaseLate t src).now) :=
  ⟨⟨5, { aPkt .lookedUp with spec := 1 }, holding { aPkt .lookedUp with spec := 1 }, by decide +kernel⟩,
   ⟨5, { aPkt .lookedUp with spec := 1 }, (holding { aPkt .lookedUp with spec := 1 }).onLport 0 (fun y => { y with oper := 0 }), by decide +kernel⟩,
   ⟨5, false, { aPkt .matched with verdict := some true }, holding { aPkt .matched with verdict := some true }, by decide +kernel⟩,
   ⟨383, aReturn, run.onSw (fun w => { w with returns := [aReturn] }), by decide +kernel⟩,
   ⟨5, aPkt .done, holding (aPkt .done), by decide +kernel⟩,
   ⟨7, 49, holding (aPkt .done), by decide +kernel⟩,
   ⟨7, 40, 5, { aPkt .done with ctx := { Ctx.zero with inLport := 376, len := 300, seq := 5 } }, { holding { aPkt .done with ctx := { Ctx.zero with inLport := 376, len := 300, seq := 5 } } with now := 7680 },
      by decide +kernel⟩⟩

theorem witness_CrossbarActs :
    (∃ (x _ c i id : Nat) (p : Pkt) (s s1 s2 : State), x < 384 ∧ (s.eg x).frame = none ∧ (s.lport x).linkUp = true ∧ s1 = forEach (range 0 8) (fun c s =>
      s.dropTooLong x c 64) s ∧ s1.chooseQueue x = some (c, s2) ∧ s2.queueHead x c = some (i, id) ∧ s2.pkt id = some p) ∧
    (∃ (id _ : Nat) (p : Pkt) (s : State), s.pkt id = some p ∧ s.mayLaunch id p = true) ∧
    (∃ (id : Nat) (p : Pkt) (s : State), s.pkt id = some p ∧ p.arrived < p.launched ∧ p.cut = false) ∧
    (∃ (k _ c i id : Nat) (p : Pkt) (s : State), k < 8 ∧ (range 0 8).reverse.findSome? (fun c => (s.mcHead k c).map (fun h => (c, h))) = some (c, i, id) ∧
      s.pkt id = some p ∧ s.holdUsed k + p.cells ≤ 8192 ∧ dieOfTile p.tile = dieOfTile k) ∧
    (∃ (key id : Nat) (p : Pkt) (s : State), (s.voq key).find? s.farAt = some id ∧ s.pkt id = some p ∧ s.spillReadable p.ctx.stage (spillBytes p.ctx.len)
      = true ∧ s.reentryUsed p.tile + p.cells ≤ 4096 ∧ s.voqReentry key + p.cells ≤ 64 ∧ p.verdict.isSome = true ∧ p.damaged = false) ∧
    (∃ (l : Nat) (s : State), l < 384 ∧ (s.lport l).linkUp = false) ∧
    (∃ (t k : Nat) (_ : State), t < 8 ∧ k ≤ 4) ∧
    (∃ (t cell : Nat) (_ : State), t < 8 ∧ cell < 262144) :=
  ⟨⟨0, 0, 0, 7, 5, whole .queued, queued .queued (voqKey 7 0 0 0), forEach (range 0 8) (fun c s => s.dropTooLong 0 c 64) (queued .queued (voqKey 7 0 0
      0)), (((forEach (range 0 8) (fun c s => s.dropTooLong 0 c 64) (queued .queued (voqKey 7 0 0 0))).chooseQueue 0).getD (0, run)).2, by
      decide +kernel⟩,
   ⟨5, 0, going .granted 0 0, sending (going .granted 0 0), by decide +kernel⟩,
   ⟨5, going .granted 1 0, sending (going .granted 1 0), by decide +kernel⟩,
   ⟨7, 0, 7, 35, 5, whole .queued, queued .queued (voqKey 7 407 7 0), by decide +kernel⟩,
   ⟨voqKey 7 0 0 0, 5, whole .far, withDram (queued .far (voqKey 7 0 0 0)), by decide +kernel⟩,
   ⟨383, run, by decide +kernel⟩,
   ⟨7, 4, run, by decide +kernel⟩,
   ⟨7, 262143, run, by decide +kernel⟩⟩

theorem witness_DressersAct :
    (∃ (id _ d : Nat) (p : Pkt) (s : State), s.pkt id = some p ∧ s.nextDresser p.egress = some d ∧ p.phase = .crossed ∧ 0 < p.arrived ∧ p.cut = false) ∧
    (∃ (id _ _ ue : Nat) (p : Pkt) (r : Dr) (s : State), s.pkt id = some p ∧ p.phase = .dresser ∧ p.exc = 0 ∧ s.runProgram p ue = (r, .fin) ∧ r.cycles ≤
      12) ∧
    (∃ (id _ _ code sub : Nat) (p : Pkt) (r : Dr) (s : State), s.pkt id = some p ∧ p.phase = .dresser ∧ p.exc = 0 ∧ s.runProgram p 0 = (r, .exc code sub)) ∧
    (∃ (id : Nat) (p : Pkt) (s : State), s.pkt id = some p ∧ p.phase = .edited ∧ (s.eg p.ctx.exit).outOrder.head? = some id ∧ (p.ctx.exit < 384 ∨
      p.arrived = p.cells)) ∧
    (∃ (id : Nat) (_ : Bool) (p : Pkt) (s : State), s.pkt id = some p ∧ p.leaves = true) :=
  ⟨⟨5, 1, 0, going .crossed 1 1, sending (going .crossed 1 1), by decide +kernel⟩,
   ⟨5, 1, 0, 0, dressed 0, ((sending (dressed 0)).runProgram (dressed 0) 0).1, sending (dressed 0), by decide +kernel⟩,
   ⟨5, 1, 0, 4, 0, dressed 256, ((sending (dressed 256)).runProgram (dressed 256) 0).1, sending (dressed 256), by decide +kernel⟩,
   ⟨5, going .edited 2 2, sending (going .edited 2 2), by decide +kernel⟩,
   ⟨5, true, going .mac 2 2, sending (going .mac 2 2), by decide +kernel⟩⟩

theorem witness_QueueGroupActs :
    (Meets opQueuePolicer (fun m s => m.plen ≠ 0 ∧ m.plen % 36 = 0 ∧ (m.records 0 36).all (fun r => decide (polIndex r ≤ 8191) && zeroAt r 2 2 &&
      policerOk (polWord r) && s.ownsPolicer (s.stageOf m) (polIndex r)) = true)) ∧
    (Meets opQueuePolicerRead (fun m s => m.plen = 4 ∧ m.u16 0 ≤ 8191 ∧ m.zero 2 2 = true ∧ s.ownsPolicer (s.stageOf m) (m.u16 0) = true)) ∧
    (Meets opQueuePolicerRange (fun m s => m.plen = 8 ∧ m.u8 0 ≤ 4 ∧ s.stageLive (m.u8 0) = true ∧ m.zero 1 1 = true ∧ m.zero 6 2 = true ∧ m.u16 2 % 64 =
      0 ∧ m.u16 4 % 64 = 0 ∧ m.u16 2 + m.u16 4 ≤ 8192 ∧ ((range (s.policersOf (m.u8 0)).1 (s.policersOf (m.u8 0)).2).filter (fun p => decide (p <
      m.u16 2) || decide (m.u16 2 + m.u16 4 ≤ p))).any (fun p => s.policerNamed (m.u8 0) p) = false ∧ s.liveStages.any (fun j => j != m.u8 0 && decide
      (m.u16 2 < (s.policersOf j).1 + (s.policersOf j).2) && decide ((s.policersOf j).1 < m.u16 2 + m.u16 4)) = false)) ∧
    (Meets opQueuePrecolour (fun m _ => m.plen = 68 ∧ (m.u8 0 = 0 ∨ m.u8 0 = 1 ∧ 1 ≤ m.u8 3 ∧ m.u8 3 ≤ 6) ∧ m.u8 1 ≤ 63 ∧ m.u8 2 ≤ 31 ∧ ((m.payload.drop
      4).map (fun b => b.toNat)).all (fun v => decide (v ≤ 2)) = true)) ∧
    (∃ (t pol k : Nat) (s : State), t < 8 ∧ pol < 8192 ∧ s.liveStages.find? (fun k => s.ownsPolicer k pol) = some k) ∧
    (Meets opQueueService (fun m s => m.plen ≠ 0 ∧ m.plen % 16 = 0 ∧ ((m.records 0 16).map leNat).all (fun r => decide (srvLport r ≤ 383) && bitsOf r 98
      16 != 0 && bitsOf r 0 47 == 0 && shaperOk (bitsOf r 71 26) (bitsOf r 47 24) (s.eg (srvLport r)).refillExp && s.ownsLport (s.stageOf m) (srvLport
      r)) = true)) ∧
    (Meets opQueueLport (fun m s => m.plen ≠ 0 ∧ m.plen % 16 = 0 ∧ ((m.records 0 16).map leNat).all (fun r => decide (srvLport r ≤ 383) && decide (bitsOf
      r 65 3 ≤ 5) && bitsOf r 0 56 == 0 && shaperOk (bitsOf r 92 26) (bitsOf r 68 24) (bitsOf r 65 3) && s.ownsLport (s.stageOf m) (srvLport r)) =
      true)) ∧
    (∃ (l : Nat) (s : State), l < 384 ∧ (s.eg l).refilledAt + refillPeriod (s.eg l).effExp ≤ s.localNs) ∧
    (Meets opQueueStatus (fun m s => m.plen = 4 ∧ m.u16 0 ≤ 383 ∧ m.zero 2 2 = true ∧ s.ownsLport (s.stageOf m) (m.u16 0) = true)) :=
  ⟨meets (msgOf 0 (leBytes 2 8191 ++ zeros 2 ++ leBytes 32 (2 ^ 255 + 2400000000000 * 2 ^ 199 + 2400000000000 * 2 ^ 157 + 2 ^ 125 + 2 ^ 93 + 16000 * 2 ^
      79))) house (by decide +kernel) (by decide +kernel),
   meets (msg 0 [0xFF, 0x1F, 0, 0]) house (by decide +kernel) (by decide +kernel),
   meets (msg 0 [0, 0, 0, 0, 0, 0x20, 0, 0]) (house.onSw (fun w => { w with polRange := [] })) (by decide +kernel) (by decide +kernel),
   meets (msgOf 0 (leBytes 1 0 ++ leBytes 1 63 ++ leBytes 1 31 ++ zeros 1 ++ octets (List.replicate 64 2))) house (by decide +kernel) (by decide +kernel),
   ⟨7, 8191, 0, house, by decide +kernel⟩,
   meets (msgOf 0 (leBytes 16 (383 * 2 ^ 119 + 7 * 2 ^ 116 + 2 ^ 98 + 2 ^ 71 + 256 * 2 ^ 47))) house (by decide +kernel) (by decide +kernel),
   meets (msgOf 0 (leBytes 16 (383 * 2 ^ 119 + 50000000 * 2 ^ 92 + (2 ^ 24 - 1) * 2 ^ 68 + 5 * 2 ^ 65))) house (by decide +kernel) (by decide +kernel),
   ⟨383, { run with now := tkUs 1 }, by decide +kernel⟩,
   meets (msg 0 [0x7F, 1, 0, 0]) house (by decide +kernel) (by decide +kernel)⟩

theorem witness_SheetsAndBuffersAct :
    (Meets opQueueCuesheet (fun m s => 32 ≤ m.plen ∧ m.plen = 32 + 4 * m.u16 2 ∧ m.u16 0 ≤ 383 ∧ m.u16 2 ≤ 256 ∧ m.zero 10 2 = true ∧ m.zero 26 2 = true ∧
      m.u32 12 < 1000000000 ∧ m.u32 28 < 1000000000 ∧ 1000 ≤ m.u32 16 ∧ m.u32 16 ≤ 1000000000 ∧ (sheetOf m).entries.all (fun e => decide (16 ≤ e.2)) =
      true ∧ s.ownsLport (s.stageOf m) (m.u16 0) = true ∧ ((s.eg (m.u16 0)).pending.map (fun p => decide (s.netLinear + 2000 < p.2))).getD true =
      true)) ∧
    (∃ (l : Nat) (_ : State), l < 384) ∧
    (∃ (l : Nat) (p : CueSheet × Nat) (s : State), l < 384 ∧ (s.eg l).pending = some p ∧ p.2 ≤ s.netLinear) ∧
    (∃ (k r : Nat) (s : State), k ≤ 4 ∧ (s.ver k).retiring = some r ∧ (s.ver k).state = 3 ∧ (s.ver k).expired = false ∧ (s.ver k).flippedAt + tkUs 100 ≤
      s.now ∧ s.drained k r = false) ∧
    (∃ (x : State), Meets opBufferClass (fun m s => m.plen ≠ 0 ∧ m.plen % 16 = 0 ∧ ((m.records 0 16).map leNat).all classOk = true ∧ x = ((m.records 0
      16).map leNat).foldl (fun t r => t.writeClass (s.stageOf m) r) s ∧ x.overReserved (s.stageOf m) = false)) ∧
    (Meets opBufferLport (fun m s => m.plen ≠ 0 ∧ m.plen % 8 = 0 ∧ ((m.records 0 8).map leNat).all (fun r => decide (bufLport r ≤ 383) && bitsOf r 11 10
      != 0 && decide (bitsOf r 11 10 ≤ 1000) && bitsOf r 0 11 == 0 && s.ownsLport (s.stageOf m) (bufLport r)) = true ∧ (((m.records 0 8).map
      leNat).foldl (fun s r => s.writeBufLport r) s).overReserved (s.stageOf m) = false)) ∧
    (Meets opBufferSession (fun m s => m.plen ≠ 0 ∧ m.plen % 16 = 0 ∧ ((m.records 0 16).map leNat).all sessOk = true ∧ ((m.records 0 16).map leNat).any
      (fun r => decide (sessDest r < 384) && !s.ownsLport (s.stageOf m) (sessDest r)) = false)) ∧
    (∃ (voqs : List Nat), Meets opBufferStatus (fun m s => m.plen = 4 ∧ m.u8 0 ≤ 7 ∧ m.zero 1 3 = true ∧ (s.stageTiles (s.stageOf m)).contains (m.u8 0) =
      true ∧ s.voqsAbove (s.stageOf m) (m.u8 0) = voqs ∧ s.headPairs (s.stageOf m) (m.u8 0) = [])) :=
  ⟨meets (msgOf 0 (leBytes 2 383 ++ leBytes 2 1 ++ zeros 12 ++ leBytes 4 1000 ++ zeros 12 ++ leBytes 4 (255 * 2 ^ 24 + 16))) house (by decide +kernel)
      (by decide +kernel),
   ⟨383, run, by decide +kernel⟩,
   ⟨383, (aSheet, 0), run.onEg 383 (fun e => { e with pending := some (aSheet, 0) }), by decide +kernel⟩,
   ⟨0, 0, { holding (whole .queued) with now := tkUs 100 }.onVer 0 (fun v => { v with retiring := some 0, state := 3, cur := 1 }), by decide +kernel⟩,
   ⟨(house.intake opBufferClass (msgOf 0 (leBytes 16 (7 * 2 ^ 125 + 4 * 2 ^ 116 + 2 ^ 57)))).writeClass 0 (7 * 2 ^ 125 + 4 * 2 ^ 116 + 2 ^ 57), meets
      (msgOf 0 (leBytes 16 (7 * 2 ^ 125 + 4 * 2 ^ 116 + 2 ^ 57))) house (by decide +kernel) (by decide +kernel)⟩,
   meets (msgOf 0 (leBytes 8 (383 * 2 ^ 55 + 64 * 2 ^ 43 + 1000 * 2 ^ 11))) house (by decide +kernel) (by decide +kernel),
   meets (msgOf 0 (leBytes 16 (2 ^ 127 + 31 * 2 ^ 123 + 399 * 2 ^ 114 + 16000 * 2 ^ 97 + 2 ^ 60))) house (by decide +kernel) (by decide +kernel),
   ⟨[], meets (msg 0 [7, 0, 0, 0]) house (by decide +kernel) (by decide +kernel)⟩⟩

theorem witness_MemoryEventsAct :
    (∃ (c sub : Nat) (s : State), c < 8 ∧ sub < 2 ∧ s.channelRuns c = true) ∧
    (∃ (c sub : Nat) (s : State), c < 8 ∧ sub < 2 ∧ s.channelRuns c = true ∧ SMap.get 0 sub (s.mem.channel c).replays = 3) ∧
    (∃ (c : Nat) (ok : Bool) (s s1 : State), c < 8 ∧ s.channelRuns c = true ∧ (s.mem.channel c).resetDue = true ∧ s.mem.step = none ∧ s1 = (((s.onChannel
      c (fun x => { x with replays := [], resetDue := false })).bumpChannel c 3).report (Report.of Fc.memChannelReset Lv.device 0 0 (11 * 1024 + 2 *
      c) 1 0 c)).post 0 Ev.memChannelReset Lv.device 0 (leBytes 1 c ++ leBytes 1 (flagNat (!ok)) ++ zeros 2)) ∧
    (∃ (c sub region _ _ _ _ _ : Nat) (_ : Bool) (s : State), c < 8 ∧ sub < 2 ∧ region < 5 ∧ s.channelRuns c = true) ∧
    (∃ (c : Nat) (_ : Dimm) (_ : Bool) (s : State), c < 8 ∧ (s.mem.channel c).state = 0 ∧ s.cmd.mode = Md.load ∧ s.mem.failed.contains c = false) ∧
    (∃ (c : Nat) (s : State), c < 8 ∧ (s.mem.channel c).state = 2) ∧
    (∃ (c rank : Nat) (_ : Bool) (d : Dimm) (s : State), c < 8 ∧ s.channelRuns c = true ∧ (s.mem.channel c).dimm = some d ∧ rank < d.ranks) ∧
    (∃ (target c since : Nat) (s : State), s.mem.step = some (target, c, since) ∧ s.mem.queued = none) ∧
    (∃ (target c since : Nat) (q : Nat × Nat) (s : State), s.mem.step = some (target, c, since) ∧ s.mem.queued = some q) ∧
    (∃ (c hot : Nat) (d : Dimm) (s s2 : State), c < 8 ∧ s.channelRuns c = true ∧ (s.mem.channel c).dimm = some d ∧ s2 = forEach ((range 0 d.ranks).filter
      (fun r => (s.mem.channel c).hot.testBit r != (hot % 2 ^ d.ranks).testBit r)) (fun r t => t.post 0 Ev.memRefreshRate Lv.device 0 (leBytes 1 c ++
      leBytes 1 r ++ leBytes 1 (if (hot % 2 ^ d.ranks).testBit r then 2 else 1) ++ zeros 1)) (s.onChannel c (fun x => { x with hot := hot % 2 ^ d.ranks }))) ∧
    (∃ (c rank : Nat) (d : Dimm) (s : State), c < 8 ∧ rank < d.ranks ∧ s.retain = true ∧ s.channelRuns c = true ∧ (s.mem.channel c).dimm = some d ∧
      s.pktsWhere (fun p => p.phase == .far) = [] ∧ s.book.captures = []) ∧
    (∃ (c : Nat) (temp : Int) (s : State), c < 8 ∧ s.channelRuns c = true ∧ temp < 95) ∧
    (∃ (c : Nat) (temp : Int) (s : State), c < 8 ∧ s.channelRuns c = true ∧ 95 ≤ temp ∧ (s.mem.channel c).temp < 95 ∧ s.retain = false ∧ s.mem.step = none
      ∧ s.mem.speed < s.mem.speedFloor) :=
  ⟨⟨7, 1, withDram run, by decide +kernel⟩,
   ⟨7, 1, (withDram run).onChannel 7 (fun x => { x with replays := [(1, 3)] }), by decide +kernel⟩,
   ⟨7, false, (withDram run).onChannel 7 (fun x => { x with resetDue := true }), ((((((withDram run).onChannel 7 (fun x => { x with resetDue := true })).onChannel
      7 (fun x => { x with replays := [], resetDue := false })).bumpChannel 7 3).report (Report.of Fc.memChannelReset Lv.device 0 0 (11 * 1024 + 14) 1
      0 7)).post 0 Ev.memChannelReset Lv.device 0 (leBytes 1 7 ++ leBytes 1 1 ++ zeros 2)), by decide +kernel⟩,
   ⟨7, 1, 4, 0, 0, 1, 19, 65535, true, withDram run, by decide +kernel⟩,
   ⟨7, aDimm, true, State.reset, by decide +kernel⟩,
   ⟨7, (withDram run).onChannel 7 (fun x => { x with state := 2 }), by decide +kernel⟩,
   ⟨7, 1, true, aDimm, withDram run, by decide +kernel⟩,
   ⟨6, 0, 0, (withDram run).onMem (fun m => { m with step := some (6, 0, 0) }), by decide +kernel⟩,
   ⟨6, 0, 0, (3, 1), (withDram run).onMem (fun m => { m with step := some (6, 0, 0), queued := some (3, 1) }), by decide +kernel⟩,
   ⟨7, 2, aDimm, withDram run, ((withDram run).onChannel 7 (fun x => { x with hot := 2 })).post 0 Ev.memRefreshRate Lv.device 0 (leBytes 1 7 ++ leBytes 1
      1 ++ leBytes 1 2 ++ zeros 1), by decide +kernel⟩,
   ⟨7, 1, aDimm, ((withDram run).onMem (fun m => { m with leanMem := 1 })).onPower (fun p => { p with lean := true }), by decide +kernel⟩,
   ⟨7, 94, withDram run, by decide +kernel⟩,
   ⟨7, 95, (withDram run).onMem (fun m => { m with speed := 3, speedFloor := 6 }), by decide +kernel⟩⟩

theorem witness_MemGroupActs :
    (Meets opMemConfig (fun m s => m.plen = 12 ∧ 3 ≤ m.u8 0 ∧ m.u8 0 ≤ m.u8 1 ∧ m.u8 1 ≤ 6 ∧ 3 ≤ m.u8 2 ∧ m.u8 2 ≤ 6 ∧ m.u8 3 ≤ 1 ∧ s.mem.bestDivider ≤
      m.u8 0 ∧ 50 ≤ m.u8 4 ∧ m.u8 4 ≤ 78 ∧ 50 ≤ m.u8 5 ∧ m.u8 5 ≤ 72 ∧ m.zero 6 2 = true ∧ 16 ≤ m.u16 8 ∧ m.u16 8 ≤ 4096 ∧ 1 ≤ m.u16 10 ∧ m.u16 10 ≤
      1024 ∧ ((m.u8 0 != s.mem.runDivider || m.u8 1 != s.mem.leanDivider || m.u8 2 != s.mem.speedFloor || m.u8 3 != s.mem.leanMem) && s.cmd.mode !=
      Md.house) = false ∧ (m.u8 0 != s.mem.runDivider && decide (10 * { s.mem with runSpeed := m.u8 0, leanSpeed := m.u8 1, speedFloor := m.u8 2, leanMem := m.u8 3, eff1 := m.u8 4, eff2 := m.u8 5, retrainEvery := m.u16 8, rowCeLimit := m.u16 10 }.deliverableAt
      (m.u8 0) < s.mem.reserved)) = false)) ∧
    (∃ (x y z : State), Meets opMemRegion (fun m s => m.plen = 16 ∧ 64 ≤ m.u32 0 ∧ m.u32 0 ≤ 256 ∧ m.u32 0 % 8 = 0 ∧ m.u32 4 ≤ 1024 ∧ m.u32 8 ≤ 512 ∧
      m.u32 12 ≤ 256 ∧ (8 + m.u32 0 + m.u32 4 + m.u32 8 + m.u32 12) * 1024 ≤ s.mem.usableMiB ∧ s.mem.spaceOf 2 ≤ m.u32 4 ∧ s.mem.spaceOf 3 ≤ m.u32 8 ∧
      s.mem.spaceOf 4 ≤ m.u32 12 ∧ x = s.onMem (fun n => { n with backing := m.u32 0, spill := m.u32 4, flow := m.u32 8, capture := m.u32 12 }) ∧ y =
      (if m.u32 0 != s.mem.backing || decide (m.u32 4 < s.mem.spill) then x.loseFar else x) ∧ z = (if m.u32 0 + m.u32 4 != s.mem.backing + s.mem.spill
      || decide (m.u32 8 < s.mem.flow) then y.loseFlow else y))) ∧
    (Meets opMemShare (fun m s => m.plen = 12 ∧ m.u8 0 ≤ 4 ∧ s.stageLive (m.u8 0) = true ∧ 2 ≤ m.u8 1 ∧ m.u8 1 ≤ 4 ∧ m.zero 2 2 = true ∧ s.mem.spaceOf
      (m.u8 1) - (s.mem.share (m.u8 0) (m.u8 1)).space + m.u32 4 ≤ s.mem.regionGiB (m.u8 1) ∧ m.u32 8 ≤ (s.mem.share (m.u8 0) (m.u8 1)).bw)) ∧
    (Meets opMemSpeed (fun m s => m.plen = 4 ∧ 3 ≤ m.u8 0 ∧ m.u8 0 ≤ 6 ∧ s.mem.bestDivider ≤ m.u8 0 ∧ m.zero 1 3 = true ∧ s.atLimit m = false ∧
      s.power.lean = false)) ∧
    (∃ (d : Dimm), Meets opMemRepair (fun m s => m.plen = 8 ∧ m.u8 0 ≤ 7 ∧ m.u8 2 ≤ 19 ∧ m.u8 3 ≤ 1 ∧ (m.async && s.atLimit m) = false ∧ s.channelRuns
      (m.u8 0) = true ∧ (s.mem.channel (m.u8 0)).dimm = some d ∧ m.u8 1 < d.ranks ∧ m.ext = some [0])) ∧
    (Meets opMemStatus (fun m s => m.plen = 0 ∧ s.stageOf m ≠ 0)) ∧
    (Meets opMemStatus (fun m s => m.plen = 0 ∧ s.stageOf m = 0)) :=
  ⟨meets (msg 0 [3, 6, 6, 1, 78, 72, 0, 0, 0, 16, 0, 4]) (withDram house) (by decide +kernel) (by decide +kernel),
   ⟨((withDram house).intake opMemRegion (msgOf 0 (leBytes 4 64 ++ leBytes 4 2 ++ leBytes 4 2 ++ leBytes 4 2))).onMem (fun n => { n with backing := 64, spill := 2, flow := 2, capture := 2 }),
      ((withDram house).intake opMemRegion (msgOf 0 (leBytes 4 64 ++ leBytes 4 2 ++ leBytes 4 2 ++ leBytes 4 2))).onMem (fun n => { n with backing := 64, spill := 2, flow := 2, capture := 2 }),
      ((withDram house).intake opMemRegion (msgOf 0 (leBytes 4 64 ++ leBytes 4 2 ++ leBytes 4 2 ++ leBytes 4 2))).onMem (fun n => { n with backing := 64, spill := 2, flow := 2, capture := 2 }),
      meets (msgOf 0 (leBytes 4 64 ++ leBytes 4 2 ++ leBytes 4 2 ++ leBytes 4 2)) (withDram house) (by decide +kernel) (by decide +kernel)⟩,
   meets (msgOf 0 (leBytes 1 0 ++ leBytes 1 4 ++ zeros 2 ++ leBytes 4 2 ++ leBytes 4 1000)) (withDram house) (by decide +kernel) (by decide +kernel),
   meets (msg 0 [6, 0, 0, 0]) (withDram run) (by decide +kernel) (by decide +kernel),
   ⟨aDimm, meets (msgExt 0 [7, 1, 19, 1, 0, 0, 0, 0] [0]) (withDram house) (by decide +kernel) (by decide +kernel)⟩,
   meets (msg 4 []) (house.putStage 4 (side 2)) (by decide +kernel) (by decide +kernel),
   meets (msg 0 []) (withDram house) (by decide +kernel) (by decide +kernel)⟩

theorem witness_HostFramesAct :
    (∃ (p key : Nat) (it : Item) (_ : List Byte) (_ : Bool) (s s1 : State), p < 64 ∧ (s.ring p).kind = 0 ∧ (s.ring p).state = 1 ∧ (s.ring p).firstIn
      .waiting = some it ∧ s.injectDenied (s.ring p).stage it.entry = false ∧ s.allocBuffer p (s.ring p).stage (fieldLE it.entry 8 2) = some (key,
      s1)) ∧
    (∃ (p : Nat) (it : Item) (_ : List Byte) (_ _ : Bool) (s : State), p < 64 ∧ (s.ring p).kind = 0 ∧ (s.ring p).state = 1 ∧ (s.ring p).firstIn .waiting =
      some it ∧ s.injectDenied (s.ring p).stage it.entry = true) ∧
    (∃ (p f : Nat) (it : Item) (rest : List Item) (_ : Bool) (s : State), p < 64 ∧ (s.ring p).kind = 0 ∧ (s.ring p).state ≠ 3 ∧ (s.ring p).items = it ::
      rest ∧ it.phase = .fated f) ∧
    (∃ (k q t c _ _ j key : Nat) (it : Item) (_ _ : Bool) (s : State), k < 5 ∧ q < 8 ∧ t < 8 ∧ c < 8 ∧ s.puntDue k q = some (j, it, key)) ∧
    (∃ (k q t c _ _ : Nat) (w : Nat × Nat) (_ _ : Bool) (s : State), k < 5 ∧ q < 8 ∧ t < 8 ∧ c < 8 ∧ s.puntDue k q = none ∧ s.captureDue k q = some w) ∧
    (∃ (k q t c _ id d key : Nat) (p : Pkt) (_ _ : Bool) (s s1 : State), k < 5 ∧ q < 8 ∧ t < 8 ∧ c < 8 ∧ s.puntDue k q = none ∧ s.captureDue k q = none ∧
      s.hostHead k q t c = some (id, p) ∧ s.nextDest k q = some d ∧ d < 64 ∧ s.allocBuffer d k (s.puntBytes p) = some (key, s1)) ∧
    (∃ (k q t c _ id d : Nat) (p : Pkt) (s : State), k < 5 ∧ q < 8 ∧ t < 8 ∧ c < 8 ∧ s.hostHead k q t c = some (id, p) ∧ s.nextDest k q = some d ∧ 68 ≤ d) :=
  ⟨⟨63, 0, anItem 383 .waiting none, [], true, ringed run 0 (anItem 383 .waiting none), (((ringed run 0 (anItem 383 .waiting none)).allocBuffer 63 0
      60).getD (0, run)).2, by decide +kernel⟩,
   ⟨63, anItem 400 .waiting none, [], true, true, ringed run 0 (anItem 400 .waiting none), by decide +kernel⟩,
   ⟨63, 3, anItem 383 (.fated 3) none, [], true, ringed run 0 (anItem 383 (.fated 3) none), by decide +kernel⟩,
   ⟨0, 7, 7, 7, 0, 0, 63, 9, anItem 0 .reserved (some 9), true, true, ringed run 1 (anItem 0 .reserved (some 9)), by decide +kernel⟩,
   ⟨4, 7, 7, 7, 0, 0, (9, 19), true, true, (run.onHost (fun h => { h with capWait := [(9, 19)] })).onBook (fun b => { b with captures := [(19, { Capture.reset with hostq := 7 })] }),
      by decide +kernel⟩,
   ⟨0, 7, 7, 7, 0, 5, 63, 16384, toHost, true, true, ringed punting 1 (anItem 0 .waiting none), (((ringed punting 1 (anItem 0 .waiting none)).allocBuffer
      63 0 ((ringed punting 1 (anItem 0 .waiting none)).puntBytes toHost)).getD (0, run)).2, by decide +kernel⟩,
   ⟨0, 7, 7, 7, 0, 5, 69, toHost, (withDram punting).onBook (fun b => { b with flows := [(1, { FlowSession.reset with configured := true, hostq := 7 })] }),
      by decide +kernel⟩⟩

theorem witness_TimeEventsAct :
    (∃ (off _ : Int) (s : State), s.time.source = 2 ∧ (s.time.state ≠ 2 ∨ off.natAbs ≤ 1000000)) ∧
    (∃ (off _ : Int) (s : State), s.time.source = 2 ∧ s.time.state = 2 ∧ 1000000 < off.natAbs ∧ s.time.rejectRun < 2) ∧
    (∃ (e : Nat) (s : State), s.time.lastEdge = some e ∧ s.time.source = 2 ∧ (s.time.state = 1 ∨ s.time.state = 2) ∧ e + tkMs 1100 ≤ s.now) ∧
    (∃ (s : State), s.time.source = 1 ∧ s.time.state = 2 ∧ s.time.lastAdjust + tkS s.time.hostTimeout ≤ s.now) ∧
    (∃ (_ e : Nat) (s : State), s.time.lastEdge = some e ∧ e + tkMs 10 ≤ s.now ∧ s.now ≤ e + tkMs 900) ∧
    (∃ (s : State), s.time.state = 2) ∧
    (∃ (s : State), s.time.slew ≠ 0 ∧ s.time.slewLast = true) ∧
    (∃ (s : State), s.time.ppsHigh = none ∧ s.time.ppsDriven = true ∧ s.time.ns = 0) ∧
    (∃ (e : Nat) (s : State), s.time.ppsHigh = some e ∧ e ≤ s.now) :=
  ⟨⟨-1000000, 5, timed 0 (fun t => { t with source := 2, state := 2 }), by decide +kernel⟩,
   ⟨1000001, 5, timed 0 (fun t => { t with source := 2, state := 2, rejectRun := 1 }), by decide +kernel⟩,
   ⟨0, timed (tkMs 1100) (fun t => { t with source := 2, state := 1, lastEdge := some 0 }), by decide +kernel⟩,
   ⟨timed (tkS 4) (fun t => { t with source := 1, state := 2 }), by decide +kernel⟩,
   ⟨7, 0, timed (tkMs 900) (fun t => { t with lastEdge := some 0 }), by decide +kernel⟩,
   ⟨timed 0 (fun t => { t with state := 2 }), by decide +kernel⟩,
   ⟨timed 0 (fun t => { t with slew := 1 }), by decide +kernel⟩,
   ⟨timed 0 (fun t => { t with ppsOut := 2 }), by decide +kernel⟩,
   ⟨0, timed 0 (fun t => { t with ppsHigh := some 0 }), by decide +kernel⟩⟩

theorem witness_TimeGroupActs :
    (Meets opTimeStatus (fun m _ => m.plen = 0)) ∧
    (∃ (x : State), Meets opTimeConfig (fun m s => m.plen = 20 ∧ m.u8 0 ≤ 2 ∧ m.u8 1 ≤ 2 ∧ 1 ≤ m.u16 2 ∧ m.u16 2 ≤ 500 ∧ 100 ≤ m.u32 4 ∧ m.u32 4 ≤
      1000000000 ∧ 1 ≤ m.u16 8 ∧ m.u16 8 ≤ 60 ∧ 1000 ≤ m.u32 12 ∧ m.u32 12 ≤ 500000000 ∧ 4800 ≤ m.u32 16 ∧ m.u32 16 ≤ 115200 ∧ x = s.onTime (fun t =>
      { t.select (m.u8 0) with ppsOut := m.u8 1, ppsWidth := m.u16 2, stepThreshold := m.u32 4, hostTimeout := m.u16 8, utcOffset := m.int 10 2, freqBound := m.u32 12, todBaud := m.u32 16 }))) ∧
    (Meets opTimeSet (fun m s => m.plen = 12 ∧ m.zero 6 2 = true ∧ m.u32 8 ≤ 999999999 ∧ s.time.source ≠ 2)) ∧
    (Meets opTimeSet (fun m s => m.plen = 12 ∧ m.zero 6 2 = true ∧ m.u32 8 = 0 ∧ s.time.source = 2)) ∧
    (Meets opTimeAdjust (fun m s => m.plen = 16 ∧ m.u8 0 = 0 ∧ m.zero 1 3 = true ∧ -freqLimit ≤ m.int 4 4 ∧ m.int 4 4 ≤ freqLimit ∧ s.time.source ≠ 2)) ∧
    (Meets opTimeAdjust (fun m s => m.plen = 16 ∧ m.u8 0 = 1 ∧ m.zero 1 3 = true ∧ s.time.source ≠ 2)) ∧
    (Meets opTimeAdjust (fun m s => m.plen = 16 ∧ m.u8 0 = 2 ∧ m.zero 1 3 = true ∧ s.time.source ≠ 2)) ∧
    (Meets opTimePort (fun m s => m.plen = 8 ∧ m.u16 0 ≤ 383 ∧ m.u8 2 = 0 ∧ m.u8 3 ≤ 3 ∧ s.ownsLport (s.stageOf m) (m.u16 0) = true)) ∧
    (Meets opTimePort (fun m s => m.plen = 8 ∧ m.u16 0 ≤ 383 ∧ m.u8 2 = 1 ∧ m.u8 3 = 0 ∧ s.ownsLport (s.stageOf m) (m.u16 0) = true)) :=
  ⟨meets (msg 0 []) house (by decide +kernel) (by decide +kernel),
   ⟨(house.intake opTimeConfig (msgOf 0 (leBytes 1 0 ++ leBytes 1 2 ++ leBytes 2 500 ++ leBytes 4 1000000000 ++ leBytes 2 60 ++ leBytes 2 37 ++ leBytes 4
      500000000 ++ leBytes 4 115200))).onTime (fun t => { t.select 0 with ppsOut := 2, ppsWidth := 500, stepThreshold := 1000000000, hostTimeout := 60, utcOffset := 37, freqBound := 500000000, todBaud := 115200 }),
      meets (msgOf 0 (leBytes 1 0 ++ leBytes 1 2 ++ leBytes 2 500 ++ leBytes 4 1000000000 ++ leBytes 2 60 ++ leBytes 2 37 ++ leBytes 4 500000000 ++
      leBytes 4 115200)) house (by decide +kernel) (by decide +kernel)⟩,
   meets (msgOf 0 (leBytes 6 (2 ^ 48 - 1) ++ zeros 2 ++ leBytes 4 999999999)) house (by decide +kernel) (by decide +kernel),
   meets (msgOf 0 (leBytes 6 (2 ^ 48 - 1) ++ zeros 6)) (timed 0 (fun t => { t with source := 2 })) (by decide +kernel) (by decide +kernel),
   meets (msgOf 0 (zeros 4 ++ leBytes 4 500000000 ++ zeros 8)) house (by decide +kernel) (by decide +kernel),
   meets (msgOf 0 (leBytes 4 1 ++ octets (List.replicate 12 255))) house (by decide +kernel) (by decide +kernel),
   meets (msgOf 0 (leBytes 4 2 ++ octets (List.replicate 12 255))) house (by decide +kernel) (by decide +kernel),
   meets (msgOf 0 (leBytes 2 383 ++ leBytes 1 0 ++ leBytes 1 3 ++ octets [255, 255, 0, 128])) house (by decide +kernel) (by decide +kernel),
   meets (msgOf 0 (leBytes 2 383 ++ leBytes 2 1 ++ zeros 4)) house (by decide +kernel) (by decide +kernel)⟩

theorem witness_PowerEventsAct :
    (∃ (vin : Nat) (_ : State), vin < 2900) ∧
    (∃ (vin : Nat) (_ : State), 2900 ≤ vin ∧ vin < 4400) ∧
    (∃ (vin : Nat) (_ : State), 20500 < vin) ∧
    (∃ (vin : Nat) (s : State), 4400 ≤ vin ∧ vin ≤ 20500 ∧ 2 ≤ s.cmd.mode) ∧
    (∃ (iin : Nat) (s : State), 10 * s.power.limit ≤ iin ∧ s.power.clAt + clWait s.power.clStep ≤ s.now) ∧
    (∃ (iin : Nat) (s : State), s.power.clStep ≠ 0 ∧ iin ≤ 9 * s.power.limit ∧ s.power.clLow + tkS 1 ≤ s.now) ∧
    (∃ (die : Nat) (s : State), die < 11 ∧ (s.avsOf die).mv + 5 ≤ (s.avsOf die).hi) ∧
    (∃ (die : Nat) (s : State), die < 11 ∧ (s.avsOf die).mv < (s.avsOf die).lo + 5 ∧ loopEpisodeNew (s.avsOf die).pinned s.now = true) ∧
    (∃ (die : Nat) (tj : Int) (s s1 s2 : State), die < 11 ∧ s1 = s.onPower (fun p => { p with tj := SMap.insert die tj p.tj }) ∧ s2 = s1.onPower (fun p =>
      { p with tripBelow := if p.allBelow 900 then some (p.tripBelow.getD s.now) else none })) ∧
    (∃ (die : Nat) (s : State), die < 11 ∧ s.cmd.mode ≠ Md.dark) ∧
    (∃ (t : Nat) (s : State), s.cmd.mode = Md.dark ∧ s.cmd.dark = DarkCause.trip ∧ s.power.uvloOk = true ∧ s.power.ovp = false ∧ s.trips24.length < 3 ∧
      s.power.tripBelow = some t ∧ t + tkS 60 ≤ s.now) ∧
    (∃ (ns : Nat) (_ : Bool) (s : State), 1000 ≤ ns ∧ s.cmd.mode ≠ Md.dark) :=
  ⟨⟨2899, house, by decide +kernel⟩,
   ⟨4399, house, by decide +kernel⟩,
   ⟨20501, house, by decide +kernel⟩,
   ⟨20500, house, by decide +kernel⟩,
   ⟨13000, later 100, by decide +kernel⟩,
   ⟨11700, (later 1).onPower (fun p => { p with clStep := 1 }), by decide +kernel⟩,
   ⟨10, house.onPower (fun p => { p with avs := [(10, { Avs.reset with mv := 700, hi := 705 })] }), by decide +kernel⟩,
   ⟨10, house.onPower (fun p => { p with avs := [(10, { Avs.reset with mv := 704, lo := 700 })] }), by decide +kernel⟩,
   ⟨10, 900, house, house.onPower (fun p => { p with tj := [(10, 900)] }), house.onPower (fun p => { p with tj := [(10, 900)], tripBelow := none }), by
      decide +kernel⟩,
   ⟨10, house, by decide +kernel⟩,
   ⟨0, ((at_ Md.dark).onCmd (fun c => { c with dark := DarkCause.trip })).onPower (fun p => { p with uvloOk := true, tripBelow := some 0 }) |> (fun s =>
      { s with now := tkS 60 }), by decide +kernel⟩,
   ⟨1000, true, house, by decide +kernel⟩⟩

theorem witness_PowerAndIdentityGroupsAct :
    (Meets opPowerStatus (fun m _ => m.plen = 0)) ∧
    (Meets opPowerLimit (fun m _ => m.plen = 4 ∧ 200 ≤ m.u16 0 ∧ m.u16 0 ≤ 1300 ∧ m.u16 2 ≤ 200)) ∧
    (∃ (ps : List Nat), Meets opPowerPrecedence (fun m _ => 4 ≤ m.plen ∧ m.plen = 4 + m.u8 0 ∧ m.u8 0 ≤ 48 ∧ m.zero 1 3 = true ∧ (m.payload.drop 4).map
      (fun b => b.toNat) = ps ∧ ps.all (fun p => decide (p ≤ 47)) = true ∧ ps.Nodup)) ∧
    (Meets opPowerBounds (fun m s => m.plen = 6 ∧ m.u8 0 ≤ 10 ∧ 70 ≤ m.u8 1 ∧ m.u8 1 ≤ 110 ∧ m.u16 2 ≤ m.u16 4 ∧ (s.avsOf (m.u8 0)).fuseLo ≤ m.u16 2 ∧
      m.u16 4 ≤ (s.avsOf (m.u8 0)).fuseHi)) ∧
    (Meets opIdentityChain (fun m _ => m.plen = 0)) ∧
    (Meets opIdentityQuote (fun m _ => 32 ≤ m.plen ∧ m.plen ≤ 64)) ∧
    (Meets opIdentityOwnerEnrol (fun m s => m.plen = 48 ∧ s.ctl.ownerKeys.length < 2)) ∧
    (Meets opIdentityRollbackCommit (fun m s => m.plen = 0 ∧ s.ctl.rootSvn ≠ 64 ∧ s.ctl.serviceSvn ≠ 64)) :=
  ⟨meets (msg 0 []) house (by decide +kernel) (by decide +kernel),
   meets (msgOf 0 (leBytes 2 200 ++ leBytes 2 200)) house (by decide +kernel) (by decide +kernel),
   ⟨[47, 0], meets (msg 0 [2, 0, 0, 0, 47, 0]) house (by decide +kernel) (by decide +kernel)⟩,
   meets (msgOf 0 (leBytes 1 10 ++ leBytes 1 70 ++ leBytes 2 0 ++ leBytes 2 0)) house (by decide +kernel) (by decide +kernel),
   meets (msg 0 []) house (by decide +kernel) (by decide +kernel),
   meets (msgOf 0 (zeros 64)) house (by decide +kernel) (by decide +kernel),
   meets (msgOf 0 (zeros 48)) house (by decide +kernel) (by decide +kernel),
   meets (msg 0 []) house (by decide +kernel) (by decide +kernel)⟩

theorem witness_FaultEventsAct :
    (∃ (c _ _ _ _ _ _ _ : Nat) (_ : State), (Fc.severity c).isSome = true) ∧
    (∃ (seq w : Nat) (e : OpenFault) (s : State), s.fault.opened.find? (fun e => e.record.seq == seq) = some e ∧ Fc.noAck e.record.cls = false ∧
      e.windowEnd = some w ∧ s.now + 660 < w) ∧
    (∃ (c level unit : Nat) (_ : Bool) (r : FaultRec) (s : State), s.recordFor c level unit = some r) ∧
    (∃ (t p _ : Nat) (_ : State), t < 8 ∧ p < 16) ∧
    (∃ (t d _ : Nat) (_ : State), t < 8 ∧ d < 96) ∧
    (∃ (e : Nat) (s : State), s.fault.quietEnd = some e ∧ e ≤ s.now ∧ s.cmd.mode = Md.safe ∧ s.cmd.commandedSafe = false ∧ s.fault.standing = []) ∧
    (∃ (e : Nat) (s : State), s.fault.pulseEnd = some e ∧ e ≤ s.now ∧ s.fault.pinMode = 0) ∧
    (∃ (s : State), 2 ≤ s.cmd.mode ∧ s.cmd.mode ≠ Md.interval ∧ s.ctl.noService = false ∧ s.fault.comparedAt + tkMs 1 ≤ s.now) :=
  ⟨⟨0x053, 0, 0, 0, 0, 0, 0, 0, house, by decide +kernel⟩,
   ⟨9, tkMs 10, { record := aRecord, sev := 2, windowEnd := some (tkMs 10), taken := false, suppress := false }, faulty, by decide +kernel⟩,
   ⟨Fc.tableUe, Lv.tile, 7, true, aRecord, faulty, by decide +kernel⟩,
   ⟨7, 15, 0, run, by decide +kernel⟩,
   ⟨7, 95, 0, run, by decide +kernel⟩,
   ⟨0, (at_ Md.safe).onFault (fun f => { f with quietEnd := some 0 }), by decide +kernel⟩,
   ⟨0, house.onFault (fun f => { f with pulseEnd := some 0 }), by decide +kernel⟩,
   ⟨later 1, by decide +kernel⟩⟩

theorem witness_FaultGroupActs :
    (Meets opFaultStatus (fun m _ => m.plen = 0)) ∧
    (Meets opFaultAck (fun m s => m.plen = 4 ∧ m.u8 2 = 1 ∧ m.zero 3 1 = true ∧ (ackBySeq s (s.stageOf m) (m.u16 0)).1 = St.done)) ∧
    (Meets opFaultConfig (fun m _ => 8 ≤ m.plen ∧ (m.plen - 8) % 4 = 0 ∧ (recordsOf m.payload 0 4 ((m.plen - 8) / 4)).all faultCfgOk = true ∧ 10 ≤ m.u32
      (m.plen - 8) ∧ m.u32 (m.plen - 8) ≤ 3600 ∧ m.u8 (m.plen - 8 + 4) ≤ 1 ∧ m.u8 (m.plen - 8 + 5) ≤ 1 ∧ m.u8 (m.plen - 8 + 6) ≤ 1 ∧ m.zero (m.plen -
      8 + 7) 1 = true)) ∧
    (Meets opFaultPin (fun m _ => m.plen = 4 ∧ m.u8 0 ≤ 1 ∧ m.zero 1 3 = true)) ∧
    (Meets opTestInject (fun m s => m.plen = 16 ∧ m.u8 0 ≤ 15 ∧ injectorOk m.payload = true ∧ (s.injector (m.u8 0)).state ≠ 1)) ∧
    (∃ (i : Nat) (s : State), i < 16 ∧ s.cmd.mode = Md.rehearsal ∧ (s.injector i).state ≠ 1 ∧ injectorOk (s.injector i).cfg = true) ∧
    (∃ (i : Nat) (s : State), i < 16 ∧ s.cmd.mode = Md.rehearsal ∧ (s.injector i).state ≠ 1 ∧ injectorOk (s.injector i).cfg = false) ∧
    (∃ (i : Nat) (s : State), i < 16 ∧ s.cmd.mode = Md.rehearsal ∧ (s.injector i).state = 1) ∧
    (∃ (i w _ _ _ _ _ _ n : Nat) (s : State), i < 16 ∧ (Fc.severity w).isSome = true ∧ (s.injector i).state = 1 ∧ fieldLE (s.injector i).cfg 1 1 = 0x42 ∧
      (s.injector i).remaining = n + 2) :=
  ⟨meets (msg 0 []) house (by decide +kernel) (by decide +kernel),
   meets (msg 0 [9, 0, 1, 0]) faulty (by decide +kernel) (by decide +kernel),
   meets (msgOf 0 (leBytes 4 (0x53 + 4 * 2 ^ 10) ++ leBytes 4 3600 ++ octets [1, 1, 1, 0])) house (by decide +kernel) (by decide +kernel),
   meets (msg 0 [1, 0, 0, 0]) house (by decide +kernel) (by decide +kernel),
   meets (msgOf 0 (injCfg 0x42)) (at_ Md.rehearsal) (by decide +kernel) (by decide +kernel),
   ⟨15, injecting 0x42 0 0, by decide +kernel⟩,
   ⟨15, injecting 0xFF 0 0, by decide +kernel⟩,
   ⟨15, injecting 0x42 1 2, by decide +kernel⟩,
   ⟨15, 1, 0, 0, 0, 0, 0, 0, 0, injecting 0x42 1 2, by decide +kernel⟩⟩

theorem witness_CounterGroupActs :
    (∃ (i : Inst), Meets opCounterRead (fun m s => m.plen = 8 ∧ 1 ≤ m.u16 4 ∧ m.u16 4 ≤ 1000 ∧ m.u8 6 = 0 ∧ m.zero 7 1 = true ∧ s.instOf (s.stageOf m) 13
      (s.ver (s.stageOf m)).cur = some i ∧ m.u32 0 + m.u16 4 ≤ i.capacity)) ∧
    (Meets opCounterSnapshot (fun m _ => m.plen = 0)) ∧
    (Meets opCounterEvents (fun m s => m.plen = 8 ∧ m.u8 0 = 0 ∧ m.u8 1 ≤ 8 ∧ m.u8 2 = 0 ∧ m.zero 3 1 = true ∧ 1 ≤ m.u16 6 ∧ m.u16 6 ≤ 2040 ∧ s.stageOf m
      = 0)) ∧
    (Meets opCounterSlots (fun m _ => m.plen = 4 ∧ m.u8 0 = 0 ∧ m.zero 1 3 = true)) ∧
    (Meets opCounterLport (fun m s => m.plen = 4 ∧ m.u16 0 ≤ 383 ∧ m.u8 2 = 1 ∧ m.zero 3 1 = true ∧ s.ownsLport (s.stageOf m) (m.u16 0) = true)) :=
  ⟨⟨anInst 13 1, meets (msgOf 0 (leBytes 4 31768 ++ leBytes 2 1000 ++ zeros 2)) (instanced 13 1) (by decide +kernel) (by decide +kernel)⟩,
   meets (msg 0 []) house (by decide +kernel) (by decide +kernel),
   meets (msg 0 [0, 8, 0, 0, 255, 0, 0xF8, 7]) house (by decide +kernel) (by decide +kernel),
   meets (msg 0 [0, 0, 0, 0]) house (by decide +kernel) (by decide +kernel),
   meets (msg 0 [0x7F, 1, 1, 0]) house (by decide +kernel) (by decide +kernel)⟩

theorem witness_SnapshotsAct :
    (∃ (v : Nat) (s : State), bitOf v 0 = true ∧ s.count.snapAt = none) ∧
    (∃ (d : Nat) (s : State), s.count.snapAt = some d ∧ d ≤ s.now ∧ s.count.copyEnd = none ∧ s.count.bankFor s.now = 0) ∧
    (∃ (d : Nat) (s : State), s.count.copyEnd = some d ∧ d ≤ s.now) ∧
    (∃ (b : Nat) (s : State), s.count.newest = some b) ∧
    (∃ (b e : Nat) (s : State), s.count.pin = some (b, e) ∧ e ≤ s.now) :=
  ⟨⟨1, house, by decide +kernel⟩,
   ⟨0, house.onCount (fun c => { c with snapAt := some 0 }), by decide +kernel⟩,
   ⟨0, house.onCount (fun c => { c with copyEnd := some 0 }), by decide +kernel⟩,
   ⟨1, house.onCount (fun c => { c with newest := some 1 }), by decide +kernel⟩,
   ⟨1, 0, house.onCount (fun c => { c with pin := some (1, 0) }), by decide +kernel⟩⟩

theorem witness_RegistersAct :
    (∃ (addr : Nat) (s : State), s.blockOpen (addr / 4 * 4) = true ∧ latchedAt (addr / 4 * 4) = none) ∧
    (∃ (addr : Nat) (s : State), s.blockOpen (addr / 4 * 4) = false) ∧
    (∃ (l i : Nat) (s : State), l < 384 ∧ i < 48 ∧ s.blockOpen (0x800000 + l * 0x200 + i * 8) = true) ∧
    (∃ (s : State), 2 ≤ s.cmd.mode) ∧
    (∃ (a v : Nat) (s : State), a % 4 = 0 ∧ v < 2 ^ 32 ∧ s.blockOpen a = true ∧ (a < 0x100000 ∨ 0x200000 ≤ a)) ∧
    (∃ (s : State), 1 ≤ s.cmd.mode) ∧
    (∃ (e : Nat) (s : State), s.count.resetArmed = some e ∧ e ≤ s.now) ∧
    (∃ (v e : Nat) (s : State), bitOf v 31 = true ∧ s.count.resetArmed = some e ∧ s.now < e ∧ s.cmd.mode = Md.load) ∧
    (∃ (v : Nat) (s : State), bitOf v 31 = true ∧ s.count.resetArmed = none ∧ 1 ≤ s.cmd.mode) ∧
    (∃ (w k _ _ : Nat) (s : State), 6144 ≤ w ∧ w < 8192 ∧ k < 3 ∧ 2 ≤ s.cmd.mode ∧ (s.edit 0).owns w = true) ∧
    (∃ (w _ _ cause : Nat) (s : State), 6144 ≤ w ∧ w < 8192 ∧ 2 ≤ s.cmd.mode ∧ s.ucsRefusal w = some cause) ∧
    (∃ (w _ _ : Nat) (s : State), 6144 ≤ w ∧ w < 8192 ∧ 2 ≤ s.cmd.mode ∧ s.ucsRefusal w = none) :=
  ⟨⟨0x900022, house, by decide +kernel⟩,
   ⟨0xB00000, house, by decide +kernel⟩,
   ⟨383, 47, house, by decide +kernel⟩,
   ⟨house, by decide +kernel⟩,
   ⟨0x300000, 0xFFFFFFFF, house, by decide +kernel⟩,
   ⟨State.reset, by decide +kernel⟩,
   ⟨0, house.onCount (fun c => { c with resetArmed := some 0 }), by decide +kernel⟩,
   ⟨2 ^ 31, 1, State.reset.onCount (fun c => { c with resetArmed := some 1 }), by decide +kernel⟩,
   ⟨2 ^ 31, house, by decide +kernel⟩,
   ⟨8191, 2, 5, 15, house, by decide +kernel⟩,
   ⟨6144, 5, 15, 4, house, by decide +kernel⟩,
   ⟨8191, 5, 15, house.onCount (fun c => { c with ucsHold := [some (8191, 1), some (8191, 2), some (8191, 3)] }), by decide +kernel⟩⟩

theorem witness_DiagAndTapAct :
    (∃ (s : State), s.diagFree = true ∧ s.diagStatusOf (diagTargetOf s.count.diagTarget) = St.done) ∧
    (∃ (st : Nat) (s : State), s.diagFree = true ∧ s.diagStatusOf (diagTargetOf s.count.diagTarget) = st ∧ st ≠ St.done) ∧
    (∃ (s : State), s.diagFree = true ∧ s.diagStatusOf (diagTargetOf s.count.diagTarget) = St.done) ∧
    (∃ (st w : Nat) (s : State), s.count.diagBusy = some st ∧ s.count.diagRead = some w) ∧
    (∃ (_ _ _ : Bool) (_ : List Bool) (s : State), s.cmd.mode ≠ Md.rehearsal) :=
  ⟨⟨house.onCount (fun c => { c with diagPermit := true }), by decide +kernel⟩,
   ⟨St.wrongMode, house, by decide +kernel⟩,
   ⟨house.onCount (fun c => { c with diagPermit := true }), by decide +kernel⟩,
   ⟨0, 5, house.onCount (fun c => { c with diagBusy := some 0, diagRead := some 5 }), by decide +kernel⟩,
   ⟨true, true, false, [], house, by decide +kernel⟩⟩

theorem witness_MailboxesAct :
    (∃ (r : Nat) (x : InMsg) (rest : List InMsg) (_ : Option (List Byte)) (s : State), r < 8 ∧ s.laneOpen (.mailbox r) = true ∧ (s.mb r).intake = x ::
      rest ∧ x.visibleAt ≤ s.now) ∧
    (∃ (r : Nat) (x : Rsp) (rest : List Rsp) (s : State), r < 8 ∧ (s.mb r).responses = x :: rest ∧ (s.mb r).rspValid = false) ∧
    (∃ (r : Nat) (x : Rsp) (rest : List Rsp) (s : State), r < 8 ∧ (s.mb r).uresponses = x :: rest ∧ (s.mb r).urspValid = false) ∧
    (∃ (r : Nat) (e : EvRec) (rest : List EvRec) (s : State), r < 8 ∧ (s.mb r).evtFull = false ∧ (s.mb r).dropped = 0 ∧ (s.mb r).posted = e :: rest) ∧
    (∃ (r : Nat) (s : State), r < 8 ∧ (s.mb r).evtFull = false ∧ 0 < (s.mb r).dropped) ∧
    (∃ (r : Nat) (e : EvRec) (s : State), r < 8 ∧ (s.mb r).evtFull = true ∧ (s.mb r).posted.find? (fun x => !x.completion) = some e) ∧
    (∃ (r seq len _ : Nat) (s : State), r < 8 ∧ seq < 65536 ∧ len < 65536 ∧ doorbellRefusal (s.mb r) seq len = none) ∧
    (∃ (r seq len _ c : Nat) (s : State), r < 8 ∧ seq < 65536 ∧ len < 65536 ∧ doorbellRefusal (s.mb r) seq len = some c) ∧
    (∃ (r seq len _ : Nat) (s : State), r < 8 ∧ seq < 65536 ∧ len < 65536 ∧ udoorbellRefusal (s.mb r) seq len = none) ∧
    (∃ (r _ : Nat) (_ : State), r < 8) ∧
    (∃ (v t : Nat) (s : State), v < 64 ∧ (SMap.get IrqVec.reset v s.host.vecs).firstAt = some t ∧ t + tkUs (SMap.get IrqVec.reset v s.host.vecs).holdoff ≤
      s.now) :=
  ⟨⟨7, anIn, [], none, mailed 7 (fun b => { b with intake := [anIn] }), by decide +kernel⟩,
   ⟨7, aRsp, [], mailed 7 (fun b => { b with responses := [aRsp] }), by decide +kernel⟩,
   ⟨7, aRsp, [], mailed 7 (fun b => { b with uresponses := [aRsp] }), by decide +kernel⟩,
   ⟨7, anEv, [], mailed 7 (fun b => { b with posted := [anEv] }), by decide +kernel⟩,
   ⟨7, mailed 7 (fun b => { b with dropped := 1 }), by decide +kernel⟩,
   ⟨7, anEv, mailed 7 (fun b => { b with posted := [anEv], evtProd := 511 }), by decide +kernel⟩,
   ⟨7, 65535, 16384, 0, mailed 7 id, by decide +kernel⟩,
   ⟨7, 65535, 16385, 0, 2, mailed 7 id, by decide +kernel⟩,
   ⟨7, 65535, 4096, 0, mailed 7 id, by decide +kernel⟩,
   ⟨7, 1, house, by decide +kernel⟩,
   ⟨63, 0, house.onHost (fun h => { h with vecs := SMap.upd IrqVec.reset 63 (fun v => { v with firstAt := some 0 }) h.vecs }), by decide +kernel⟩⟩

theorem witness_SmbusAndHostResetsAct :
    (∃ (_ _ n : Nat) (data : List Byte) (_ : State), 1 ≤ data.length ∧ data.length ≤ 32 ∧ 1 ≤ n ∧ n ≤ 32) ∧
    (∃ (s : State), s.host.perstLow = false ∧ s.host.linkUp = false ∧ s.host.resetUnreported = true) :=
  ⟨⟨0, 0, 32, [0], house, by decide +kernel⟩,
   ⟨house.onHost (fun h => { h with perstLow := false, linkUp := false, resetUnreported := true }), by decide +kernel⟩⟩

theorem witness_RingEventsAct :
    (∃ (p : Nat) (s : State), p < 64 ∧ (s.ring p).enable = false ∧ (s.ring p).assigned = true ∧ 6 ≤ (s.ring p).logSize ∧ (s.ring p).logSize ≤ 16 ∧ 2 ≤
      s.cmd.mode ∧ ringHeldIn s s.cmd.mode (s.ring p).kind = false) ∧
    (∃ (p : Nat) (s : State), p < 64 ∧ (s.ring p).enable = false ∧ (s.ring p).assigned = false ∧ 2 ≤ s.cmd.mode) ∧
    (∃ (p : Nat) (_ : State), p < 64) ∧
    (∃ (p : Nat) (_ : Bool) (s : State), p < 64 ∧ (s.ring p).flush = none ∧ (s.ring p).enable = true ∧ (s.ring p).state ≠ 3 ∧ (s.ring p).items.filter (fun
      i => i.unstarted) = []) ∧
    (∃ (p P : Nat) (_ : List (List Byte)) (_ _ : Bool) (s : State), p < 64 ∧ (s.ring p).flush = some P ∧ (s.ring p).published P = 0 ∧ (s.ring p).sqCons =
      P % (s.ring p).size ∧ (s.ring p).items = []) ∧
    (∃ (p : Nat) (_ : List (List Byte)) (_ : Bool) (s : State), p < 64 ∧ (s.ring p).enable = true ∧ (s.ring p).state = 1 ∧ (s.ring p).nextPoll ≤ s.now ∧ 0
      < min ((s.ring p).published (s.ring p).sqProd) (s.ring p).freeCq) ∧
    (∃ (p : Nat) (it : Item) (_ : List Byte) (_ _ : Bool) (s : State), p < 64 ∧ (s.ring p).kind = 2 ∧ (s.ring p).state = 1 ∧ (s.ring p).answer = none ∧
      (s.ring p).firstIn .held = none ∧ (s.ring p).fetchedWork = none ∧ (s.ring p).firstIn .waiting = some it) ∧
    (∃ (p : Nat) (r : Rsp) (it : Item) (_ : List Byte) (_ _ : Bool) (s : State), p < 64 ∧ (s.ring p).kind = 2 ∧ (s.ring p).state = 1 ∧ (s.ring p).answer =
      some r ∧ (s.ring p).firstIn .held = some it) ∧
    (∃ (p : Nat) (d : DumpJob) (it : Item) (_ : Bool) (s : State), p < 64 ∧ (s.ring p).kind = 3 ∧ (s.ring p).state = 1 ∧ s.host.dumps.find? (fun d =>
      d.pair == p) = some d ∧ (s.ring p).firstIn .waiting = some it ∧ s.allocBuffer p (s.ring p).stage (fieldLE it.entry 8 4) = none) ∧
    (∃ (p : Nat) (d : DumpJob) (it : Item) (key : Nat) (_ : Bool) (s s1 : State), p < 64 ∧ (s.ring p).kind = 3 ∧ (s.ring p).state = 1 ∧ s.host.dumps.find?
      (fun d => d.pair == p) = some d ∧ (s.ring p).firstIn .waiting = some it ∧ s.allocBuffer p (s.ring p).stage (fieldLE it.entry 8 4) = some (key,
      s1) ∧ fieldLE it.entry 8 4 < d.left.length) :=
  ⟨⟨63, house.onRing 63 (fun g => { g with assigned := true, kind := 2, logSize := 16 }), by decide +kernel⟩,
   ⟨63, house, by decide +kernel⟩,
   ⟨63, house, by decide +kernel⟩,
   ⟨63, true, house.onRing 63 (fun g => { g with enable := true, state := 1 }), by decide +kernel⟩,
   ⟨63, 5, [], true, true, house.onRing 63 (fun g => { g with enable := true, state := 2, flush := some 5, sqCons := 5 }), by decide +kernel⟩,
   ⟨63, [], true, house.onRing 63 (fun g => { g with enable := true, state := 1, sqProd := 63 }), by decide +kernel⟩,
   ⟨63, anItem 0 .waiting none, [], true, true, ringOf id, by decide +kernel⟩,
   ⟨63, aRsp, anItem 0 .held none, [], true, true, ringOf (fun g => { g with items := [anItem 0 .held none], answer := some aRsp }), by decide +kernel⟩,
   ⟨63, aJob, dumpItem 65537, true, dumping 65537, by decide +kernel⟩,
   ⟨63, aJob, dumpItem 64, 0, true, dumping 64, (((dumping 64).allocBuffer 63 0 64).getD (0, run)).2, by decide +kernel⟩⟩

theorem witness_RingGroupActs :
    (Meets opRingAssign (fun m s => m.plen = 4 ∧ m.u8 0 ≤ 63 ∧ m.u8 1 ≤ 4 ∧ s.stageLive (m.u8 1) = true ∧ m.u8 2 ≤ 3 ∧ m.u8 3 ≤ 7 ∧ (m.u8 2 = 1 ∨ m.u8 3 =
      0) ∧ ((range 0 64).filter (fun j => j != m.u8 0 && (s.ring j).assigned && (s.ring j).kind == 1 && (s.ring j).stage == m.u8 1 && (s.ring j).hostq
      == m.u8 3)).length < 8 ∧ (s.ring (m.u8 0)).state = 0 ∧ (s.ring (m.u8 0)).enable = false)) ∧
    (Meets opRingPools (fun m _ => m.plen = 16 ∧ m.u32 0 ≤ 16384 ∧ m.u32 4 ≤ 16384 ∧ m.u32 8 ≤ 16384 ∧ m.u32 12 ≤ 16384 ∧ poolsBytes [m.u32 0, m.u32 4,
      m.u32 8, m.u32 12] ≤ 48 * 1048576)) ∧
    (Meets opRingQuota (fun m s => m.plen = 8 ∧ 1 ≤ m.u8 0 ∧ m.u8 0 ≤ 4 ∧ m.zero 1 3 = true ∧ s.stageLive (m.u8 0) = true ∧ (s.host.pools.quotas.filter
      (fun e => e.1 != m.u8 0)).foldl (fun a e => a + e.2) 0 + m.u32 4 ≤ 48 * 1024 ∧ s.host.pools.stageBytes (m.u8 0) ≤ 1024 * m.u32 4 ∧
      s.host.pools.stageBytes 0 ≤ (48 * 1024 - (s.host.pools.quotas.filter (fun e => e.1 != m.u8 0)).foldl (fun a e => a + e.2) 0 - m.u32 4) * 1024)) ∧
    (Meets opRingCap (fun m s => m.plen = 16 ∧ m.u16 0 ≤ 72 ∧ m.zero 2 2 = true ∧ m.u32 4 ≤ 49152 ∧ 10 ≤ m.u32 8 ∧ m.u32 8 ≤ 600000 ∧ m.u32 8 ≤ m.u32 12 ∧
      m.u32 12 ≤ 3600000 ∧ s.ownsOwner (s.stageOf m) (m.u16 0) = true)) ∧
    (∃ (b : Buffer), Meets opRingRelease (fun m s => m.plen = 4 ∧ s.buffer (keyOfHandle (m.u32 0)) = some b ∧ b.gen = genOfHandle (m.u32 0) ∧ b.stage =
      s.stageOf m ∧ b.retained = true)) ∧
    (Meets opRingStatus (fun m _ => m.plen = 0)) :=
  ⟨meets (msg 0 [63, 0, 1, 7]) house (by decide +kernel) (by decide +kernel),
   meets (msg 0 (List.replicate 16 0)) house (by decide +kernel) (by decide +kernel),
   meets (msg 0 [4, 0, 0, 0, 0, 0, 0, 0]) (house.putStage 4 (side 2)) (by decide +kernel) (by decide +kernel),
   meets (msg 0 [72, 0, 0, 0, 0, 192, 0, 0, 10, 0, 0, 0, 10, 0, 0, 0]) house (by decide +kernel) (by decide +kernel),
   ⟨aBuffer, meets (msg 0 [1, 0, 1, 0]) (house.onPools (fun p => { p with buffers := [(1, aBuffer)] })) (by decide +kernel) (by decide +kernel)⟩,
   meets (msg 0 []) house (by decide +kernel) (by decide +kernel)⟩

theorem witness_ThreadsAct :
    (∃ (i : Nat) (s : State), i < 128 ∧ (s.thread i).halted = false ∧ (s.thread i).cached < 4) ∧
    (∃ (i : Nat) (s : State), i < 128 ∧ (s.thread i).halted = false ∧ (s.thread i).cached = 4 ∧ (s.thread i).spilled < 32) ∧
    (∃ (i : Nat) (s : State), i < 128 ∧ (s.thread i).halted = false ∧ 1 < (s.thread i).cached) ∧
    (∃ (i : Nat) (s : State), i < 128 ∧ (s.thread i).halted = false ∧ s.servedBy i = none) ∧
    (∃ (i _ : Nat) (s : State), i < 128 ∧ (s.thread i).halted = true) ∧
    (∃ (i _ : Nat) (_ : State), i < 128 ∧ i % 16 ≠ 0) ∧
    (∃ (b : BootInput) (root service : Nat × Image) (s s0 : State), s.cmd.mode = Md.load ∧ s.ctl.bootFail = false ∧ s.fault.fatalLive = false ∧ s0 = (if
      s.cmd.prevMode = Md.dark ∧ s.cmd.dark = DarkCause.trip then s.ledgerWrite 5 (leBytes 1 3 ++ leBytes 1 0xFF) else s) ∧ (pickRoot (s0.slots b).ctl
      b).chosen = some root ∧ (pickService ((s0.slots b).recordPick 0 (pickRoot (s0.slots b).ctl b)).ctl b).chosen = some service) ∧
    (∃ (b : BootInput) (s s0 : State), s.cmd.mode = Md.load ∧ s.ctl.bootFail = false ∧ s.fault.fatalLive = false ∧ s0 = (if s.cmd.prevMode = Md.dark ∧
      s.cmd.dark = DarkCause.trip then s.ledgerWrite 5 (leBytes 1 3 ++ leBytes 1 0xFF) else s) ∧ (pickRoot (s0.slots b).ctl b).chosen = none) :=
  ⟨⟨127, house, by decide +kernel⟩,
   ⟨127, threaded (fun t => { t with cached := 4, spilled := 31 }), by decide +kernel⟩,
   ⟨127, threaded (fun t => { t with cached := 2 }), by decide +kernel⟩,
   ⟨127, house, by decide +kernel⟩,
   ⟨127, 0, threaded (fun t => { t with halted := true }), by decide +kernel⟩,
   ⟨127, 0, house, by decide +kernel⟩,
   ⟨bootInput, (1, { fwImage with kind := 1 }), (1, fwImage), State.reset, State.reset, by decide +kernel⟩,
   ⟨{ bootInput with rootA := none }, State.reset, State.reset, by decide +kernel⟩⟩

theorem witness_TakeoverActs :
    (∃ (s : State), s.ctl.noService = false ∧ s.ctl.sealed + 1 ≤ s.ctl.adopted + 2) ∧
    (∃ (s : State), s.ctl.understudy = 0 ∧ s.ctl.sealValid = true ∧ s.ctl.noService = false) ∧
    (∃ (s : State), s.ctl.lead < 2 ∧ s.ctl.noService = false) ∧
    (∃ (x : Nat) (s : State), x < 2 ∧ x ≠ s.ctl.lead) ∧
    (∃ (s : State), s.ctl.noService = false ∧ 2 ≤ s.cmd.mode ∧ s.ctl.lastBeat + 100000 * (s.ctl.missCount + 1) ≤ s.localNs) ∧
    (∃ (s : State), 2 ≤ s.cmd.mode ∧ s.ctl.noService = false ∧ s.ctl.understudy = 0 ∧ s.ctl.sealValid = false) ∧
    (∃ (s : State), 2 ≤ s.cmd.mode ∧ s.ctl.noService = false ∧ s.ctl.understudy = 0 ∧ s.ctl.sealValid = true) ∧
    (∃ (s : State), 2 ≤ s.cmd.mode ∧ s.ctl.noService = false ∧ s.ctl.understudy ≠ 0) ∧
    (∃ (s : State), s.ctl.understudy = 1 ∧ s.ctl.noService = false) ∧
    (∃ (s : State), s.ctl.noService = true ∧ s.ctl.attempts = 0 ∧ s.ctl.attemptAt ≤ s.now) :=
  ⟨⟨house, by decide +kernel⟩,
   ⟨leading (fun c => { c with sealValid := true }), by decide +kernel⟩,
   ⟨house, by decide +kernel⟩,
   ⟨1, house, by decide +kernel⟩,
   ⟨later 1, by decide +kernel⟩,
   ⟨leading id, by decide +kernel⟩,
   ⟨leading (fun c => { c with sealValid := true }), by decide +kernel⟩,
   ⟨house, by decide +kernel⟩,
   ⟨house.onCtl (fun c => { c with understudy := 1 }), by decide +kernel⟩,
   ⟨house.onCtl (fun c => { c with noService := true }), by decide +kernel⟩⟩

theorem witness_RecordEventsAct :
    (∃ (e : Nat × List Byte) (rest : List (Nat × List Byte)) (s s1 : State), s.book.toJournal = e :: rest ∧ s.writeRecord e.1 1 0 e.2 = some s1) ∧
    (∃ (s : State), s.book.snapInterval ≠ 0 ∧ s.book.lastSnap + tkS s.book.snapInterval ≤ s.now) ∧
    (∃ (k j code : Nat) (s : State), k < 5 ∧ j < 4 ∧ (s.capSession k j).configured = true ∧ (s.capSession k j).triggers.contains code = true ∧ code ≠ 0) ∧
    (∃ (k j : Nat) (s : State), k < 5 ∧ j < 4 ∧ (s.capSession k j).state = 2 ∧ (s.capSession k j).post ≤ framesBytes (s.capSession k j).after) ∧
    (∃ (k j : Nat) (s s1 : State), k < 5 ∧ j < 4 ∧ (s.capSession k j).state = 3 ∧ s.writeRecord k 3 (flagNat (s.capSession k j).damaged + 2 * flagNat
      (s.capSession k j).truncated) (captureBody ((s.capSession k j).before ++ (s.capSession k j).after)) = some s1) ∧
    (∃ (k j i : Nat) (e : FlowEntry) (s : State), k < 5 ∧ j < 2 ∧ (s.flowSession k j).entries[i]? = some e ∧ e.lastT + 1000000000 * (s.flowSession k
      j).idle ≤ s.netLinear) ∧
    (∃ (i label pct extents serial : Nat) (critical : Bool) (s s1 : State), i < 4 ∧ s1 = s.onBook (fun b => { b with drives := SMap.insert i { present := true, label := label, pct := pct, critical := critical, quiesced := false, extents := extents, serial := serial } b.drives })) ∧
    (∃ (i : Nat) (s : State), i < 4 ∧ (SMap.get Drive.none i s.book.drives).present = true) ∧
    (∃ (i _ : Nat) (_ : Bool) (_ : State), i < 4) :=
  ⟨⟨(0, [1]), [], drived (fun b => { b with toJournal := [(0, [1])] }), ((drived (fun b => { b with toJournal := [(0, [1])] })).writeRecord 0 1 0
      [1]).getD run, by decide +kernel⟩,
   ⟨(later 1).onBook (fun b => { b with snapInterval := 1 }), by decide +kernel⟩,
   ⟨4, 3, 5, captured (fun c => { c with configured := true, state := 1, triggers := [5] }), by decide +kernel⟩,
   ⟨4, 3, captured (fun c => { c with state := 2 }), by decide +kernel⟩,
   ⟨0, 3, (drived id).onCapture 0 3 (fun c => { c with state := 3 }), (((drived id).onCapture 0 3 (fun c => { c with state := 3 })).writeRecord 0 3 0
      (captureBody [])).getD run, by decide +kernel⟩,
   ⟨4, 1, 0, { key := [], inLport := 0, packets := 1, bytes := 60, firstT := 0, lastT := 0, startedAt := 0 }, booked (fun b => { b with flows := [(9, { FlowSession.reset with idle := 0, entries := [{ key := [], inLport := 0, packets := 1, bytes := 60, firstT := 0, lastT := 0, startedAt := 0 }] })] }),
      by decide +kernel⟩,
   ⟨3, 0, 0, 1, 9, false, house, drived id, by decide +kernel⟩,
   ⟨3, drived id, by decide +kernel⟩,
   ⟨3, 0, false, house, by decide +kernel⟩⟩

theorem witness_LedgerEventsAct :
    (∃ (_ : List Byte) (_ : Nat) (s : State), s.book.checkpointAt + tkS 600 ≤ s.now) ∧
    (∃ (_ : List Byte) (s : State), s.book.trendAt + tkS 86400 ≤ s.now) ∧
    (∃ (_ : List Byte) (s : State), s.book.ecsAt + tkS 86400 ≤ s.now) ∧
    (∃ (_ : List Nat) (s : State), s.book.gapSectors ≠ 0 ∧ s.book.gapSectors ≤ 1024) ∧
    (∃ (o : Outst) (s : State), s.findOut 0 0x1203 = some o) ∧
    (∃ (s : State), s.findOut 0 0x1203 = none ∧ s.book.backupAt + tkS 86400 ≤ s.now) :=
  ⟨⟨[], 0, later 600, by decide +kernel⟩,
   ⟨[], later 86400, by decide +kernel⟩,
   ⟨[], later 86400, by decide +kernel⟩,
   ⟨[], booked (fun b => { b with tail := 1536 }), by decide +kernel⟩,
   ⟨outst 0x1203 [], withOut house 0 0x1203 [], by decide +kernel⟩,
   ⟨later 86400, by decide +kernel⟩⟩

theorem witness_RecordAndLifeGroupsAct :
    (Meets opRecordConfig (fun m s => m.plen ≠ 0 ∧ m.plen % 40 = 0 ∧ (m.records 0 40).all (fun r => recordSubOk r (s.stageOf m == 0)) = true ∧ (m.records
      0 40).all (fun r => fieldLE r 0 1 == 0 || fieldLE r 0 1 == 2) = true)) ∧
    (Meets opRecordConfig (fun m s => m.plen ≠ 0 ∧ m.plen % 40 = 0 ∧ (m.records 0 40).all (fun r => recordSubOk r (s.stageOf m == 0)) = true ∧ (m.records
      0 40).any (fun r => fieldLE r 0 1 == 3 && s.stageOf m != 0) = false ∧ (m.records 0 40).any (fun r => fieldLE r 0 1 == 1 && (s.capSession
      (s.stageOf m) (fieldLE r 1 1)).state == 3) = false ∧ captureNeed s (s.stageOf m) (m.records 0 40) ≤ s.shareBytes 4 (s.stageOf m))) ∧
    (Meets opRecordTrigger (fun m s => m.plen = 4 ∧ m.u8 0 ≤ 3 ∧ m.zero 1 3 = true ∧ (s.capSession (s.stageOf m) (m.u8 0)).state = 1)) ∧
    (Meets opRecordStatus (fun m _ => m.plen = 0)) ∧
    (Meets opRecordRead (fun m s => m.plen = 12 ∧ 1 ≤ m.u8 0 ∧ m.u8 0 ≤ 5 ∧ m.u8 1 ≤ 1 ∧ m.u8 2 ≤ 63 ∧ m.u8 3 = 0 ∧ s.dumpPairOf (s.stageOf m) (m.u8 2) =
      true ∧ s.atLimit m = false)) ∧
    (Meets opRecordDrive (fun m s => m.plen = 8 ∧ m.u8 0 = 1 ∧ m.u8 1 ≤ 3 ∧ m.zero 2 2 = true ∧ m.u32 4 = 0 ∧ (m.async && s.atLimit m) = false ∧ (SMap.get
      Drive.none (m.u8 1) s.book.drives).present = true ∧ m.ext.isSome = true)) ∧
    (Meets opRecordDrive (fun m s => m.plen = 8 ∧ m.u8 0 = 0 ∧ m.u8 1 ≤ 3 ∧ m.zero 2 2 = true ∧ m.u32 4 = 0 ∧ (m.async && s.atLimit m) = false ∧ (SMap.get
      Drive.none (m.u8 1) s.book.drives).present = true ∧ m.ext.isSome = true)) ∧
    (Meets opRecordDrive (fun m s => m.plen = 8 ∧ m.u8 0 = 2 ∧ 1 ≤ m.u8 1 ∧ m.u8 1 ≤ 4 ∧ m.zero 2 2 = true ∧ s.stageLive (m.u8 1) = true ∧ (m.async &&
      s.atLimit m) = false ∧ s.book.usedBy (m.u8 1) ≤ m.u32 4 ∧ (s.book.shares.filter (fun e => e.1 != m.u8 1 && e.1 != 0)).foldl (fun a e => a + e.2)
      0 + m.u32 4 + s.book.usedBy 0 ≤ s.book.allExtents)) ∧
    (Meets opLifeRead (fun m s => m.plen = 12 ∧ m.u16 0 < 0x100 ∧ m.u8 2 = 0xFF ∧ m.u8 3 = 0 ∧ (m.async && s.atLimit m) = false ∧ ((((s.book.ledger.filter
      (fun r => (m.u16 0).testBit r.type && decide (m.u32 4 ≤ r.lseq))).take (m.u32 8)).map LedgerRec.bytes).flatten).length ≤ 16368)) ∧
    (Meets opLifeStatus (fun m _ => m.plen = 0)) ∧
    (Meets opLifeBackup (fun m s => m.plen = 0 ∧ s.atLimit m = false)) :=
  ⟨meets (msg 4 ([0, 4, 0, 0, 255, 255, 255, 255, 255, 255, 255, 255] ++ List.replicate 28 0)) (house.putStage 4 (side 2)) (by decide +kernel) (by
      decide +kernel),
   meets (msg 0 ([3, 0, 0, 0, 128, 81, 1, 0] ++ List.replicate 32 0)) house (by decide +kernel) (by decide +kernel),
   meets (msg 0 [3, 0, 0, 0]) (house.onCapture 0 3 (fun c => { c with state := 1 })) (by decide +kernel) (by decide +kernel),
   meets (msg 0 []) house (by decide +kernel) (by decide +kernel),
   meets (msg 0 [5, 1, 63, 0, 0, 0, 0, 0, 255, 255, 255, 255]) (ringed house 3 (anItem 0 .waiting none)) (by decide +kernel) (by decide +kernel),
   meets (msgExt 0 [1, 3, 0, 0, 0, 0, 0, 0] [0]) (drived id) (by decide +kernel) (by decide +kernel),
   meets (msgExt 0 [0, 3, 0, 0, 0, 0, 0, 0] [0]) (drived id) (by decide +kernel) (by decide +kernel),
   meets (msg 0 [2, 4, 0, 0, 1, 0, 0, 0]) ((drived id).putStage 4 (side 2)) (by decide +kernel) (by decide +kernel),
   meets (msg 0 [255, 0, 255, 0, 0, 0, 0, 0, 255, 255, 255, 255]) (ledgered house 1 []) (by decide +kernel) (by decide +kernel),
   meets (msg 0 []) house (by decide +kernel) (by decide +kernel),
   meets (msg 0 []) house (by decide +kernel) (by decide +kernel)⟩

theorem witness_UnlistedAddressesDoNothing :
    (∃ (addr _ _ : Nat) (_ : State), barListed (addr / 4 * 4) = false) :=
  ⟨0x28, 5, 15, house, by decide +kernel⟩

theorem witness_ViewsLatchTheirHigherDwords :
    (∃ (addr : Nat) (x : Latched) (s : State), s.blockOpen (addr / 4 * 4) = true ∧ latchedAt (addr / 4 * 4) = some x ∧ x.place = 0) ∧
    (∃ (addr : Nat) (x : Latched) (s : State), s.blockOpen (addr / 4 * 4) = true ∧ latchedAt (addr / 4 * 4) = some x ∧ x.place ≠ 0) :=
  ⟨⟨0x800000, { view := 5, place := 0, low := 0x800000, count := 2 }, house, by decide +kernel⟩,
   ⟨0x800004, { view := 5, place := 1, low := 0x800000, count := 2 }, house, by decide +kernel⟩⟩

theorem witness_CommandsAreJudgedFirst :
    (∃ (c : Instr) (o : Op) (m : Msg) (_ : State), c.command = some (o, m)) :=
  ⟨.sysPing (msg 0 []), opSysPing, msg 0 [], house, by decide +kernel⟩

theorem witness_ReadCommandsOnlyAnswer :
    (∃ (c : Instr) (o : Op) (m : Msg) (s t : State), c.command = some (o, m) ∧ o.cls = .read ∧ exec c s = .next t) :=
  ⟨.sysPing (msg 0 []), opSysPing, msg 0 [], house, _, rfl, rfl, rfl⟩

/-! ### Each case of CommandsAreJudgedFirst -/

/-- The journal holds an entry of n bytes. -/
def journaled (n : Nat) : State := house.onCtl (fun c => { c with
  journal := [{ acceptEntry 0x0101 (msg 0 []) house with payload := zeros n }] })
theorem journaled_serves (n : Nat) : (journaled n).ctl.noService = false := rfl
theorem journaled_full (n : Nat) (h : 16777216 ≤ n) : (journaled n).journalFull (msg 0 []) = true := by
  simp [State.journalFull, journaled, State.journalUsed, State.onCtl, JEntry.size, zeros, acceptEntry, msg, octets]
  omega
theorem witness_CommandsAreJudgedFirst_cases :
    (∃ (c : Instr) (o : Op) (m : Msg), c.command = some (o, m) ∧ laneOk m.lane = false) ∧
    (∃ (c : Instr) (o : Op) (m : Msg) (s : State), c.command = some (o, m) ∧ laneOk m.lane = true ∧ s.ctl.noService = true) ∧
    (∃ (c : Instr) (o : Op) (m : Msg) (s : State), c.command = some (o, m) ∧ laneOk m.lane = true ∧ s.ctl.noService = false ∧
      s.journalFull m = true) ∧
    (∃ (c : Instr) (o : Op) (m : Msg) (s : State) (st : Nat), c.command = some (o, m) ∧ laneOk m.lane = true ∧ s.ctl.noService = false ∧
      s.journalFull m = false ∧ judge o m (s.intake o m) = some st) :=
  ⟨⟨.sysPing { msg 0 [] with lane := .mailbox 8 }, opSysPing, { msg 0 [] with lane := .mailbox 8 }, rfl, by decide +kernel⟩,
   ⟨.sysPing (msg 0 []), opSysPing, msg 0 [], house.onCtl (fun c => { c with noService := true }), rfl, by decide +kernel⟩,
   ⟨.sysPing (msg 0 []), opSysPing, msg 0 [], journaled (2 ^ 24), rfl, rfl, journaled_serves _, journaled_full _ (by decide)⟩,
   ⟨.memRegion (msg 1 []), opMemRegion, msg 1 [], run, St.notPermitted, rfl, by decide +kernel⟩⟩

end Sys2Proof.Tests
end

section
/-! SUPPORT. Sparse maps and units: a write at one key leaves every other key as it was, whether or not the keys rise; a meaning on units stops
by name or answers a next state. -/
namespace Sys2Proof
open Sys2Proof.Machine

namespace SMap
variable {α : Type}

theorem find_insert_self {k : Nat} {v : α} : ∀ m : SMap α, find k (insert k v m) = some v
  | [] => by simp [insert, find]
  | (i, w) :: m => by
    unfold insert
    split
    · simp [find]
    · split
      · simp [find]
      · rename_i hne
        simp [find, Ne.symm hne, find_insert_self m]

theorem find_insert_ne {k j : Nat} {v : α} (h : j ≠ k) : ∀ m : SMap α, find j (insert k v m) = find j m
  | [] => by simp [insert, find, Ne.symm h]
  | (i, w) :: m => by
    unfold insert
    split
    · simp [find, Ne.symm h]
    · split
      · rename_i heq
        simp [find, Ne.symm h, ← heq]
      · simp [find, find_insert_ne h m]

theorem find_erase_ne {k j : Nat} (h : j ≠ k) : ∀ m : SMap α, find j (erase k m) = find j m
  | [] => rfl
  | (i, w) :: m => by
    unfold erase
    split
    · rename_i heq
      simp [find, heq, Ne.symm h]
    · simp [find, find_erase_ne h m]

theorem find_put_ne [DecidableEq α] {d v : α} {k j : Nat} (h : j ≠ k) (m : SMap α) : find j (put d k v m) = find j m := by
  unfold put
  split
  · exact find_erase_ne h m
  · exact find_insert_ne h m

end SMap

theorem Msg.laneOk_of_wf {m : Msg} (h : m.wf = true) : laneOk m.lane = true := by
  simp only [Msg.wf, Bool.and_eq_true] at h
  obtain ⟨⟨⟨hlane, -⟩, -⟩, -⟩ := h
  exact hlane

namespace Machine

theorem onUnit_absent {ok : Bool} {t : State} (h : ok = false) : onUnit ok t = .fault .noSuchUnit := by simp [h]

theorem onUnit_answers {ok : Bool} {t : State} (h : ok = true) : ∃ u, onUnit ok t = .next u := ⟨t, onUnit_next.2 ⟨h, rfl⟩⟩

theorem commandRow_answers {o : Op} {body : Msg → State → Answer} {m : Msg} {s : State} (h : m.wf = true) :
    ∃ u, commandRow o body m s = .next u := onUnit_answers (Msg.laneOk_of_wf h)

end Machine
end Sys2Proof
end

section
/-! SUPPORT. The step: its two cases, and what every command, event and tick keeps. -/
namespace Sys2Proof.Machine
open Sys2Proof

theorem step_cons {c : Instr} {rest : List Instr} {s : State} (h : s.pending = c :: rest) :
    step s = exec c { s with pending := rest } := by
  simp only [step, h]

theorem step_nil {s : State} (h : s.pending = []) : step s = .next s.tick := by
  simp only [step, h]

/-- Every command and event keeps the queue, the clock, a legal mode and canonical memories. -/
theorem exec_keeps (c : Instr) (s : State) : KeepsOut s (exec c s) := by
  have r := Keeps.refl s
  cases c with
  | sysPing => exact execSysPing_keeps r
  | sysStatus => exact execSysStatus_keeps r
  | sysControlStatus => exact execSysControlStatus_keeps r
  | sysFwLoad => exact execSysFwLoad_keeps r
  | fwStaged => exact execFwStaged_keeps r
  | sysFwActivate => exact execSysFwActivate_keeps r
  | fwActivated => exact execFwActivated_keeps r
  | fwActivateFailed => exact execFwActivateFailed_keeps r
  | sysSwitchover => exact execSysSwitchover_keeps r
  | sysReset => exact execSysReset_keeps r
  | sysResetStart => exact execSysResetStart_keeps r
  | sysSet => exact execSysSet_keeps r
  | sysGet => exact execSysGet_keeps r
  | sysAsyncStatus => exact execSysAsyncStatus_keeps r
  | modeSet => exact execModeSet_keeps r
  | modeChanged => exact execModeChanged_keeps r
  | modeStatus => exact execModeStatus_keeps r
  | stageCreate => exact execStageCreate_keeps r
  | stageReady => exact execStageReady_keeps r
  | stageResize => exact execStageResize_keeps r
  | stageResized => exact execStageResized_keeps r
  | stageDissolve => exact execStageDissolve_keeps r
  | stageDissolved => exact execStageDissolved_keeps r
  | stageStatus => exact execStageStatus_keeps r
  | portConfig => exact execPortConfig_keeps r
  | portStatus => exact execPortStatus_keeps r
  | portHealth => exact execPortHealth_keeps r
  | portSerdesBounds => exact execPortSerdesBounds_keeps r
  | moduleStatus => exact execModuleStatus_keeps r
  | moduleRead => exact execModuleRead_keeps r
  | moduleWrite => exact execModuleWrite_keeps r
  | moduleReset => exact execModuleReset_keeps r
  | parseLoad => exact execParseLoad_keeps r
  | graphStaged => exact execGraphStaged_keeps r
  | parseDiscard => exact execParseDiscard_keeps r
  | parseRead => exact execParseRead_keeps r
  | parseStatus => exact execParseStatus_keeps r
  | tableCreate => exact execTableCreate_keeps r
  | instanceReady => exact execInstanceReady_keeps r
  | tableProfile => exact execTableProfile_keeps r
  | tableDomain => exact execTableDomain_keeps r
  | tablePfxAdd => exact execTablePfxAdd_keeps r
  | tablePfxDelete => exact execTablePfxDelete_keeps r
  | tableEntryWrite => exact execTableEntryWrite_keeps r
  | tableEntryDelete => exact execTableEntryDelete_keeps r
  | tableRead => exact execTableRead_keeps r
  | tableFlushLearned => exact execTableFlushLearned_keeps r
  | tableCommit => exact execTableCommit_keeps r
  | commitArming => exact execCommitArming_keeps r
  | versionFlip => exact execVersionFlip_keeps r
  | tableCommitCancel => exact execTableCommitCancel_keeps r
  | tableAbort => exact execTableAbort_keeps r
  | tableVstatus => exact execTableVstatus_keeps r
  | drainComplete => exact execDrainComplete_keeps r
  | drainExpired => exact execDrainExpired_keeps r
  | versionRetired => exact execVersionRetired_keeps r
  | sweepPass => exact execSweepPass_keeps r
  | ruleBlock => exact execRuleBlock_keeps r
  | ruleLayout => exact execRuleLayout_keeps r
  | ruleRange => exact execRuleRange_keeps r
  | rulePreselect => exact execRulePreselect_keeps r
  | ruleDefault => exact execRuleDefault_keeps r
  | ruleAdd => exact execRuleAdd_keeps r
  | ruleDelete => exact execRuleDelete_keeps r
  | ruleRead => exact execRuleRead_keeps r
  | respaced => exact execRespaced_keeps r
  | patternLoad => exact execPatternLoad_keeps r
  | patternStaged => exact execPatternStaged_keeps r
  | patternDiscard => exact execPatternDiscard_keeps r
  | patternRead => exact execPatternRead_keeps r
  | patternStatus => exact execPatternStatus_keeps r
  | patternBounds => exact execPatternBounds_keeps r
  | patternQuery => exact execPatternQuery_keeps r
  | patternStep => exact execPatternStep_keeps r
  | editLoad => exact execEditLoad_keeps r
  | editStaged => exact execEditStaged_keeps r
  | editSwap => exact execEditSwap_keeps r
  | editRead => exact execEditRead_keeps r
  | editStatus => exact execEditStatus_keeps r
  | editRegion => exact execEditRegion_keeps r
  | queuePolicer => exact execQueuePolicer_keeps r
  | queuePolicerRead => exact execQueuePolicerRead_keeps r
  | queuePolicerRange => exact execQueuePolicerRange_keeps r
  | queuePrecolour => exact execQueuePrecolour_keeps r
  | queueService => exact execQueueService_keeps r
  | queueLport => exact execQueueLport_keeps r
  | queueCuesheet => exact execQueueCuesheet_keeps r
  | queueStatus => exact execQueueStatus_keeps r
  | bufferClass => exact execBufferClass_keeps r
  | bufferLport => exact execBufferLport_keeps r
  | bufferSession => exact execBufferSession_keeps r
  | bufferStatus => exact execBufferStatus_keeps r
  | memConfig => exact execMemConfig_keeps r
  | memRegion => exact execMemRegion_keeps r
  | memShare => exact execMemShare_keeps r
  | memSpeed => exact execMemSpeed_keeps r
  | memRepair => exact execMemRepair_keeps r
  | memStatus => exact execMemStatus_keeps r
  | timeStatus => exact execTimeStatus_keeps r
  | timeConfig => exact execTimeConfig_keeps r
  | timeSet => exact execTimeSet_keeps r
  | timeAdjustFreq => exact execTimeAdjustFreq_keeps r
  | timeAdjustSlew => exact execTimeAdjustSlew_keeps r
  | timeAdjustStep => exact execTimeAdjustStep_keeps r
  | timePortConfig => exact execTimePortConfig_keeps r
  | timePortRead => exact execTimePortRead_keeps r
  | slewEnd => exact execSlewEnd_keeps r
  | powerStatus => exact execPowerStatus_keeps r
  | powerLimit => exact execPowerLimit_keeps r
  | powerPrecedence => exact execPowerPrecedence_keeps r
  | powerBounds => exact execPowerBounds_keeps r
  | faultStatus => exact execFaultStatus_keeps r
  | faultAck => exact execFaultAck_keeps r
  | faultConfig => exact execFaultConfig_keeps r
  | faultPin => exact execFaultPin_keeps r
  | recordConfig => exact execRecordConfig_keeps r
  | recordTrigger => exact execRecordTrigger_keeps r
  | recordStatus => exact execRecordStatus_keeps r
  | recordRead => exact execRecordRead_keeps r
  | recordDrive => exact execRecordDrive_keeps r
  | lifeRead => exact execLifeRead_keeps r
  | lifeStatus => exact execLifeStatus_keeps r
  | lifeBackup => exact execLifeBackup_keeps r
  | counterRead => exact execCounterRead_keeps r
  | counterSnapshot => exact execCounterSnapshot_keeps r
  | counterEvents => exact execCounterEvents_keeps r
  | counterSlots => exact execCounterSlots_keeps r
  | counterLport => exact execCounterLport_keeps r
  | ringAssign => exact execRingAssign_keeps r
  | ringPools => exact execRingPools_keeps r
  | ringQuota => exact execRingQuota_keeps r
  | ringCap => exact execRingCap_keeps r
  | ringRelease => exact execRingRelease_keeps r
  | ringStatusCmd => exact execRingStatusCmd_keeps r
  | identityChain => exact execIdentityChain_keeps r
  | identityQuote => exact execIdentityQuote_keeps r
  | identityOwnerEnrol => exact execIdentityOwnerEnrol_keeps r
  | identityRollbackCommit => exact execIdentityRollbackCommit_keeps r
  | testLoopback => exact execTestLoopback_keeps r
  | testPrbs => exact execTestPrbs_keeps r
  | testInject => exact execTestInject_keeps r
  | testStatus => exact execTestStatus_keeps r
  | commandTake => exact execCommandTake_keeps r
  | responseDelivery => exact execResponseDelivery_keeps r
  | eventPost => exact execEventPost_keeps r
  | frameReceive => exact execFrameReceive_keeps r
  | pipePlacement => exact execPipePlacement_keeps r
  | parseWalk => exact execParseWalk_keeps r
  | classifyAndLookUp => exact execClassifyAndLookUp_keeps r
  | paddockRead => exact execPaddockRead_keeps r
  | specGrant => exact execSpecGrant_keeps r
  | patternScan => exact execPatternScan_keeps r
  | scanFallback => exact execScanFallback_keeps r
  | orderedMatchSearch => exact execOrderedMatchSearch_keeps r
  | confirm => exact execConfirm_keeps r
  | specReturn => exact execSpecReturn_keeps r
  | reorderRelease => exact execReorderRelease_keeps r
  | lateRelease => exact execLateRelease_keeps r
  | xoffRefresh => exact execXoffRefresh_keeps r
  | xonSend => exact execXonSend_keeps r
  | egressGrant => exact execEgressGrant_keeps r
  | cellLaunch => exact execCellLaunch_keeps r
  | cellArrival => exact execCellArrival_keeps r
  | multicastReplication => exact execMulticastReplication_keeps r
  | reentryRead => exact execReentryRead_keeps r
  | dresserAssign => exact execDresserAssign_keeps r
  | editProgram => exact execEditProgram_keeps r
  | handOff => exact execHandOff_keeps r
  | transmitFrame => exact execTransmitFrame_keeps r
  | tailVerdict => exact execTailVerdict_keeps r
  | provisionVerdict => exact execProvisionVerdict_keeps r
  | staticLearnedRemoval => exact execStaticLearnedRemoval_keeps r
  | moveStorm => exact execMoveStorm_keeps r
  | ageingVisit => exact execAgeingVisit_keeps r
  | paddockScrub => exact execPaddockScrub_keeps r
  | poisonRepair => exact execPoisonRepair_keeps r
  | graphNodeRepair => exact execGraphNodeRepair_keeps r
  | patternRepair => exact execPatternRepair_keeps r
  | editRepair => exact execEditRepair_keeps r
  | policerRepair => exact execPolicerRepair_keeps r
  | throttleReading => exact execThrottleReading_keeps r
  | surveyJob => exact execSurveyJob_keeps r
  | surveyWaitExpiry => exact execSurveyWaitExpiry_keeps r
  | lportFlush => exact execLportFlush_keeps r
  | flushCellsFreed => exact execFlushCellsFreed_keeps r
  | foldScrub => exact execFoldScrub_keeps r
  | pauseFrameReceive => exact execPauseFrameReceive_keeps r
  | pauseExpiry => exact execPauseExpiry_keeps r
  | pauseWatchdog => exact execPauseWatchdog_keeps r
  | shaperRefill => exact execShaperRefill_keeps r
  | gateChange => exact execGateChange_keeps r
  | cuesheetSwitch => exact execCuesheetSwitch_keeps r
  | peerHelloSend => exact execPeerHelloSend_keeps r
  | peerHelloReceive => exact execPeerHelloReceive_keeps r
  | peerTimeout => exact execPeerTimeout_keeps r
  | laneFault => exact execLaneFault_keeps r
  | widthChangeOrderedSet => exact execWidthChangeOrderedSet_keeps r
  | widthChange => exact execWidthChange_keeps r
  | restoreHoldExpiry => exact execRestoreHoldExpiry_keeps r
  | healthWindowEnd => exact execHealthWindowEnd_keeps r
  | probationStart => exact execProbationStart_keeps r
  | probationEnd => exact execProbationEnd_keeps r
  | linkUp => exact execLinkUp_keeps r
  | linkDown => exact execLinkDown_keeps r
  | laneRateFallback => exact execLaneRateFallback_keeps r
  | serdesAdaptation => exact execSerdesAdaptation_keeps r
  | stateComparison => exact execStateComparison_keeps r
  | refclkLaneLoss => exact execRefclkLaneLoss_keeps r
  | dramAlert => exact execDramAlert_keeps r
  | memChannelReset => exact execMemChannelReset_keeps r
  | patrolScrub => exact execPatrolScrub_keeps r
  | channelTraining => exact execChannelTraining_keeps r
  | dqsOscillatorRead => exact execDqsOscillatorRead_keeps r
  | memSpeedStep => exact execMemSpeedStep_keeps r
  | mr4Read => exact execMr4Read_keeps r
  | retainSelfRefresh => exact execRetainSelfRefresh_keeps r
  | dimmTemperatureRead => exact execDimmTemperatureRead_keeps r
  | frameSpill => exact execFrameSpill_keeps r
  | frameFill => exact execFrameFill_keeps r
  | frameFault => exact execFrameFault_keeps r
  | threadWake => exact execThreadWake_keeps r
  | rootWrite => exact execRootWrite_keeps r
  | generationSeal => exact execGenerationSeal_keeps r
  | generationAdopt => exact execGenerationAdopt_keeps r
  | heartbeatWrite => exact execHeartbeatWrite_keeps r
  | heartbeatMiss => exact execHeartbeatMiss_keeps r
  | leadYield => exact execLeadYield_keeps r
  | understudyReady => exact execUnderstudyReady_keeps r
  | controlRecoveryAttempt => exact execControlRecoveryAttempt_keeps r
  | startUp => exact execStartUp_keeps r
  | perstN => exact execPerstN_keeps r
  | functionLevelReset => exact execFunctionLevelReset_keeps r
  | hostLinkLoss => exact execHostLinkLoss_keeps r
  | hostLinkReset => exact execHostLinkReset_keeps r
  | irqHoldoffExpiry => exact execIrqHoldoffExpiry_keeps r
  | mbDoorbell => exact execMbDoorbell_keeps r
  | mbUdoorbell => exact execMbUdoorbell_keeps r
  | rspValidWrite => exact execRspValidWrite_keeps r
  | urspValidWrite => exact execUrspValidWrite_keeps r
  | mbEvtConsWrite => exact execMbEvtConsWrite_keeps r
  | smbusSetOffset => exact execSmbusSetOffset_keeps r
  | smbusBlockWrite => exact execSmbusBlockWrite_keeps r
  | smbusBlockRead => exact execSmbusBlockRead_keeps r
  | ringEnable => exact execRingEnable_keeps r
  | ringDisable => exact execRingDisable_keeps r
  | ringFlush => exact execRingFlush_keeps r
  | flushDone => exact execFlushDone_keeps r
  | ringPoll => exact execRingPoll_keeps r
  | injectItem => exact execInjectItem_keeps r
  | injectCompletion => exact execInjectCompletion_keeps r
  | puntWrite => exact execPuntWrite_keeps r
  | workItem => exact execWorkItem_keeps r
  | dumpFill => exact execDumpFill_keeps r
  | sheepdogVisit => exact execSheepdogVisit_keeps r
  | faultReport => exact execFaultReport_keeps r
  | faultWindowExpiry => exact execFaultWindowExpiry_keeps r
  | fltAck => exact execFltAck_keeps r
  | faultRepaired => exact execFaultRepaired_keeps r
  | pipeStall => exact execPipeStall_keeps r
  | dresserStall => exact execDresserStall_keeps r
  | quietPeriodEnd => exact execQuietPeriodEnd_keeps r
  | faultNPulseEnd => exact execFaultNPulseEnd_keeps r
  | injectorConsumed => exact execInjectorConsumed_keeps r
  | ppsEdge => exact execPpsEdge_keeps r
  | ppsLost => exact execPpsLost_keeps r
  | hostTimeout => exact execHostTimeout_keeps r
  | todSentence => exact execTodSentence_keeps r
  | calendarWrite => exact execCalendarWrite_keeps r
  | journalRecordWrite => exact execJournalRecordWrite_keeps r
  | snapIntervalRecord => exact execSnapIntervalRecord_keeps r
  | captureTriggered => exact execCaptureTriggered_keeps r
  | capturePostEnd => exact execCapturePostEnd_keeps r
  | captureDone => exact execCaptureDone_keeps r
  | flowSample => exact execFlowSample_keeps r
  | flowExport => exact execFlowExport_keeps r
  | driveAdded => exact execDriveAdded_keeps r
  | driveRemoved => exact execDriveRemoved_keeps r
  | smartRead => exact execSmartRead_keeps r
  | ledgerCheckpoint => exact execLedgerCheckpoint_keeps r
  | laneTrend => exact execLaneTrend_keeps r
  | dramEcs => exact execDramEcs_keeps r
  | ledgerCompaction => exact execLedgerCompaction_keeps r
  | ledgerBackup => exact execLedgerBackup_keeps r
  | vinBand => exact execVinBand_keeps r
  | currentLimitStep => exact execCurrentLimitStep_keeps r
  | currentLimitRelease => exact execCurrentLimitRelease_keeps r
  | avsStep => exact execAvsStep_keeps r
  | clockingChange => exact execClockingChange_keeps r
  | temperatureReading => exact execTemperatureReading_keeps r
  | thermalTrip => exact execThermalTrip_keeps r
  | thermalDarkExit => exact execThermalDarkExit_keeps r
  | resetN => exact execResetN_keeps r
  | moduleInserted => exact execModuleInserted_keeps r
  | moduleLowPower => exact execModuleLowPower_keeps r
  | modulePowerUp => exact execModulePowerUp_keeps r
  | moduleReady => exact execModuleReady_keeps r
  | moduleTimeout => exact execModuleTimeout_keeps r
  | moduleInterrupt => exact execModuleInterrupt_keeps r
  | modulePoll => exact execModulePoll_keeps r
  | moduleRemoved => exact execModuleRemoved_keeps r
  | mgmtBusRecover => exact execMgmtBusRecover_keeps r
  | pmcSnap => exact execPmcSnap_keeps r
  | snapshotEdge => exact execSnapshotEdge_keeps r
  | snapshotTaken => exact execSnapshotTaken_keeps r
  | pmcSnapIdRead => exact execPmcSnapIdRead_keeps r
  | statisticsClearingRead => exact execStatisticsClearingRead_keeps r
  | viewLatchRead => exact execViewLatchRead_keeps r
  | ucsWordsRead => exact execUcsWordsRead_keeps r
  | devResetKey => exact execDevResetKey_keeps r
  | devResetDisarm => exact execDevResetDisarm_keeps r
  | devReset => exact execDevReset_keeps r
  | diagRead => exact execDiagRead_keeps r
  | diagWrite => exact execDiagWrite_keeps r
  | diagComplete => exact execDiagComplete_keeps r
  | ucsDwordLoad => exact execUcsDwordLoad_keeps r
  | ucsWordWrite => exact execUcsWordWrite_keeps r
  | injArm => exact execInjArm_keeps r
  | injDisarm => exact execInjDisarm_keeps r
  | registerWrite => exact execRegisterWrite_keeps r
  | ppsOutPulse => exact execPpsOutPulse_keeps r
  | refclkLaneReturn => exact execRefclkLaneReturn_keeps r
  | prbsLocked => exact execPrbsLocked_keeps r
  | prbsLockLost => exact execPrbsLockLost_keeps r
  | cgRstNRelease => exact execCgRstNRelease_keeps r
  | smbusTimeout => exact execSmbusTimeout_keeps r
  | snapshotPinLapse => exact execSnapshotPinLapse_keeps r
  | channelZeroingDone => exact execChannelZeroingDone_keeps r
  | testAccessPort => exact execTestAccessPort_keeps r

/-- A tick moves the clock on; all else that `Keeps` names it keeps. -/
theorem tick_keeps (s : State) : Keeps { s with now := s.now + 1 } s.tick := by
  have r := Keeps.refl { s with now := s.now + 1 }
  have e := Keeps.ite (c := (s.now + 1) % 60 = 0) (State.onTime_keeps (f := TimeSt.cclkEdge) r) r
  exact Keeps.ite r (Keeps.ite (State.pclkEdge_keeps e) e)

/-- A legal mode is a matter of the mode and the activation: neither the queue nor the clock that a step moves on enters it. -/
theorem step_keeps_legalMode {s t : State} (h : LegalMode s) (ht : step s = .next t) : LegalMode t := by
  cases hq : s.pending with
  | nil =>
    rw [step_nil hq] at ht
    cases ht
    exact (tick_keeps s).mode h
  | cons c rest =>
    rw [step_cons hq] at ht
    exact (exec_keeps c _ t ht).mode h

/-- Bits [2:0] of DEV_MODE are the mode's (R553): every other field starts at bit 8 or above. -/
theorem devMode_mod (s : State) : devMode s % 8 = s.cmd.mode % 8 := by
  unfold devMode
  omega

end Sys2Proof.Machine
end

section
/-! SUPPORT. What a host read does to a view's latch and to the statistics (R53, R548). -/
namespace Sys2Proof.Machine
open Sys2Proof

/-- The latch of a value's view takes the value's higher DWORDs as they stand. -/
def State.loadLatch (s : State) (x : Latched) : State :=
  s.onCount (fun c => { c with latches := SMap.insert x.view ((range 1 (x.count - 1)).map (fun j => s.regAt (x.low + 4 * j))) c.latches })

/-- A read of the lowest DWORD of a value loads the latch, returns the DWORD and clears a counter of the CLEAR view. -/
theorem State.hostRead_low {s : State} {addr : Nat} {x : Latched} (ho : s.blockOpen (addr / 4 * 4) = true)
    (hx : latchedAt (addr / 4 * 4) = some x) (hp : x.place = 0) :
    s.hostRead addr = ((s.loadLatch x).returns (s.regAt (addr / 4 * 4))).clearStat (addr / 4 * 4) := by
  simp [State.hostRead, ho, hx, hp, State.loadLatch]

/-- A read of a higher DWORD returns its place in the latch. -/
theorem State.hostRead_high {s : State} {addr : Nat} {x : Latched} (ho : s.blockOpen (addr / 4 * 4) = true)
    (hx : latchedAt (addr / 4 * 4) = some x) (hp : x.place ≠ 0) :
    s.hostRead addr = s.returns ((SMap.get [] x.view s.count.latches).getD (x.place - 1) 0) := by
  simp [State.hostRead, ho, hx, hp]

/-- Clearing a statistic changes the ports' part of the state alone. -/
theorem State.clearStat_eq (s : State) (a : Nat) : s.clearStat a = { s with port := (s.clearStat a).port } := by
  unfold State.clearStat
  split <;> rfl

@[simp] theorem State.clearStat_count (s : State) (a : Nat) : (s.clearStat a).count = s.count := by rw [State.clearStat_eq]

/-- Outside the CLEAR view nothing is cleared. -/
theorem State.clearStat_outside {s : State} {a : Nat} (h : ¬(0x800000 ≤ a ∧ a < 0x840000)) : s.clearStat a = s := if_neg h

/-- Every statistic but the one at the address stands. -/
theorem State.clearStat_stats_ne {s : State} {a key : Nat} (h : key ≠ (a - 0x800000) / 0x200 * 64 + a % 0x200 / 8) :
    SMap.find key (s.clearStat a).port.stats = SMap.find key s.port.stats := by
  unfold State.clearStat
  split
  · exact SMap.find_put_ne (d := 0) (v := 0) h s.port.stats
  · rfl

/-- The values of the CLEAR view latch in view 5. -/
theorem latchedAt_view_clear {a : Nat} {x : Latched} (h : latchedAt a = some x) (hc : 0x800000 ≤ a ∧ a < 0x840000) : x.view = 5 := by
  unfold latchedAt at h
  repeat' split at h
  all_goals cases h
  all_goals
    dsimp only
    omega

end Sys2Proof.Machine
end

section
/-! SUPPORT. The statements on the machine's scope, settled. -/
namespace Sys2Proof
open Sys2Proof.Machine

/-- Settles O1: both equations are the two cases of `step` on the queue. -/
theorem stepTakesTheFront : Obligations.StepTakesTheFront :=
  ⟨fun _ _ _ h => step_cons h, fun _ h => step_nil h⟩

/-- Settles O2: at reset the mode is LOAD, no activation runs, and nothing is written to either memory. -/
theorem resetIsSound : Obligations.ResetIsSound := by
  refine ⟨⟨?_, ?_⟩, rfl, rfl⟩
  · decide
  · intro a h
    cases h

/-- Settles O8: each of these rows checks its unit first. -/
theorem absentUnitsStop : Obligations.AbsentUnitsStop :=
  ⟨fun _ _ h => ⟨commandRow_noLane h, commandRow_noLane h⟩,
   fun _ _ _ _ h => onUnit_absent (decide_eq_false (Nat.not_lt.2 h)),
   fun _ _ _ _ _ _ h => onUnit_absent (decide_eq_false (Nat.not_lt.2 h)),
   fun _ _ _ h => onUnit_absent (decide_eq_false (Nat.not_lt.2 h))⟩

/-- Settles O6: a command's row asks only for its lane; an event asks for no unit, or for those that its well-formedness names. -/
theorem wellFormedNeverStops : Obligations.WellFormedNeverStops := by
  intro c s h
  cases c with
  | sysPing | sysStatus | sysControlStatus | sysFwLoad | sysFwActivate | sysSwitchover | sysReset | sysSet | sysGet | sysAsyncStatus | modeSet
  | modeStatus | stageCreate | stageResize | stageDissolve | stageStatus | portConfig | portStatus | portHealth | portSerdesBounds | moduleStatus
  | moduleRead | moduleWrite | moduleReset | parseLoad | parseDiscard | parseRead | parseStatus | tableCreate | tableProfile | tableDomain
  | tablePfxAdd | tablePfxDelete | tableEntryWrite | tableEntryDelete | tableRead | tableFlushLearned | tableCommit | tableCommitCancel
  | tableAbort | tableVstatus | ruleBlock | ruleLayout | ruleRange | rulePreselect | ruleDefault | ruleAdd | ruleDelete | ruleRead | patternLoad
  | patternDiscard | patternRead | patternStatus | patternBounds | patternQuery | patternStep | editLoad | editSwap | editRead | editStatus
  | editRegion | queuePolicer | queuePolicerRead | queuePolicerRange | queuePrecolour | queueService | queueLport | queueCuesheet | queueStatus
  | bufferClass | bufferLport | bufferSession | bufferStatus | memConfig | memRegion | memShare | memSpeed | memRepair | memStatus | timeStatus
  | timeConfig | timeSet | timeAdjustFreq | timeAdjustSlew | timeAdjustStep | timePortConfig | timePortRead | powerStatus | powerLimit
  | powerPrecedence | powerBounds | faultStatus | faultAck | faultConfig | faultPin | recordConfig | recordTrigger | recordStatus | recordRead
  | recordDrive | lifeRead | lifeStatus | lifeBackup | counterRead | counterSnapshot | counterEvents | counterSlots | counterLport | ringAssign
  | ringPools | ringQuota | ringCap | ringRelease | ringStatusCmd | identityChain | identityQuote | identityOwnerEnrol | identityRollbackCommit
  | testLoopback | testPrbs | testInject | testStatus =>
    exact commandRow_answers h
  | fwStaged | fwActivated | fwActivateFailed | sysResetStart | modeChanged | slewEnd | parseWalk | classifyAndLookUp | paddockRead | specGrant
  | scanFallback | orderedMatchSearch | confirm | cellLaunch | cellArrival | reentryRead | dresserAssign | editProgram | handOff | transmitFrame
  | tailVerdict | surveyJob | surveyWaitExpiry | stateComparison | memSpeedStep | generationSeal | generationAdopt | heartbeatMiss | leadYield
  | understudyReady | controlRecoveryAttempt | startUp | perstN | functionLevelReset | hostLinkLoss | hostLinkReset | smbusSetOffset
  | smbusBlockWrite | smbusBlockRead | sheepdogVisit | faultWindowExpiry | fltAck | faultRepaired | quietPeriodEnd | faultNPulseEnd | ppsEdge
  | ppsLost | hostTimeout | todSentence | calendarWrite | journalRecordWrite | snapIntervalRecord | ledgerCheckpoint | laneTrend | dramEcs
  | ledgerCompaction | ledgerBackup | vinBand | currentLimitStep | currentLimitRelease | clockingChange | thermalDarkExit | resetN | pmcSnap
  | snapshotEdge | snapshotTaken | pmcSnapIdRead | statisticsClearingRead | viewLatchRead | ucsWordsRead | devResetKey | devResetDisarm | devReset
  | diagRead | diagWrite | diagComplete | registerWrite | ppsOutPulse | smbusTimeout | snapshotPinLapse | testAccessPort =>
    exact ⟨_, rfl⟩
  | stageReady | stageResized | stageDissolved | graphStaged | instanceReady | commitArming | versionFlip | drainComplete | drainExpired
  | versionRetired | sweepPass | respaced | patternStaged | editStaged | commandTake | responseDelivery | eventPost | frameReceive | pipePlacement
  | patternScan | specReturn | reorderRelease | lateRelease | xoffRefresh | xonSend | egressGrant | multicastReplication | provisionVerdict
  | staticLearnedRemoval | moveStorm | ageingVisit | paddockScrub | poisonRepair | graphNodeRepair | patternRepair | editRepair | policerRepair
  | throttleReading | lportFlush | flushCellsFreed | foldScrub | pauseFrameReceive | pauseExpiry | pauseWatchdog | shaperRefill | gateChange
  | cuesheetSwitch | peerHelloSend | peerHelloReceive | peerTimeout | laneFault | widthChangeOrderedSet | widthChange | restoreHoldExpiry
  | healthWindowEnd | probationStart | probationEnd | linkUp | linkDown | laneRateFallback | serdesAdaptation | refclkLaneLoss | dramAlert
  | memChannelReset | patrolScrub | channelTraining | dqsOscillatorRead | mr4Read | retainSelfRefresh | dimmTemperatureRead | frameSpill
  | frameFill | frameFault | threadWake | rootWrite | heartbeatWrite | irqHoldoffExpiry | mbDoorbell | mbUdoorbell | rspValidWrite | urspValidWrite
  | mbEvtConsWrite | ringEnable | ringDisable | ringFlush | flushDone | ringPoll | injectItem | injectCompletion | workItem | dumpFill
  | faultReport | pipeStall | dresserStall | injectorConsumed | driveAdded | driveRemoved | smartRead | avsStep | temperatureReading | thermalTrip
  | moduleInserted | moduleLowPower | modulePowerUp | moduleReady | moduleTimeout | moduleInterrupt | modulePoll | moduleRemoved | mgmtBusRecover
  | ucsDwordLoad | ucsWordWrite | injArm | injDisarm | refclkLaneReturn | prbsLocked | prbsLockLost | cgRstNRelease | channelZeroingDone =>
    exact onUnit_answers h
  | puntWrite | captureTriggered | capturePostEnd | captureDone | flowSample | flowExport =>
    exact onUnit_answers (by simpa only [Instr.wf, Nat.lt_succ_iff] using h)

/-- Settles O4: every step keeps the invariant, and a legal mode fits the field's three bits. -/
theorem everyStepKeepsALegalMode : Obligations.EveryStepKeepsALegalMode := by
  intro s t hs ht
  have hl : LegalMode t := step_keeps_legalMode hs ht
  exact ⟨hl, (devMode_mod t).trans (Nat.mod_eq_of_lt (Nat.lt_succ_of_le hl.1))⟩

/-- Settles O58: after a low DWORD's read (`hostRead_low`) the latches are the loaded map and only `clearStat` has touched the ports; a higher
DWORD's read is `hostRead_high`. -/
theorem viewsLatchTheirHigherDwords : Obligations.ViewsLatchTheirHigherDwords := by
  refine ⟨fun addr x s ho hx hp => ⟨_, congrArg Host.Outcome.next (State.hostRead_low ho hx hp), ?_, ?_, ?_, ?_, ?_, ?_⟩,
    fun addr x s ho hx hp => congrArg Host.Outcome.next (State.hostRead_high ho hx hp)⟩
  · rw [State.clearStat_count]
    rfl
  · rw [State.clearStat_count]
    exact SMap.find_insert_self _
  · intro v hv
    rw [State.clearStat_count]
    exact SMap.find_insert_ne hv _
  · rw [State.clearStat_count]
    exact State.clearStat_eq _ _
  · intro hv
    rw [State.clearStat_outside (fun hc => hv (latchedAt_view_clear hx hc))]
    rfl
  · intro key hkey
    exact State.clearStat_stats_ne hkey

end Sys2Proof
end

section
/-! SUPPORT. A packet's journey: laws that several of its rows use, and the statements on them settled. -/
namespace Sys2Proof.Machine
open Sys2Proof

/-- Where its condition holds, a guarded change is made. -/
theorem State.when_of {s : State} {c : Bool} {f : State → State} (h : c = true) : s.when c f = f s := if_pos h

/-- A frame of a sub-port without PEER carries no peer tag and is no hello: it is judged by its length as it stands (R37). -/
theorem execFrameReceive_untagged {l : Nat} {w : List Byte} {e full high : Bool} {s : State} (hl : l < 384) (hup : (s.lport l).linkUp = true)
    (hpeer : (s.lport l).peer = false) (hpause : isPause w = false) :
    execFrameReceive l w e full high s = .next (if w.length < 64 then s.stat l 6
      else if cfgMaxFrame (s.lport l).conf < w.length then s.stat l 7
      else s.takeFrame l w w none (e || !fcsGood w) full high) := by
  refine onUnit_next.2 ⟨decide_eq_true hl, ?_⟩
  simp [hup, hpeer, hpause]

/-- The version a packet takes leaves its injection as it was. -/
@[simp] theorem State.versioned_direct (s : State) (q : Pkt) : (s.versioned q).direct = q.direct := rfl

@[simp] theorem State.nodeCorr_zero (s : State) (p : Pkt) : s.nodeCorr p 0 = s := rfl

/-- A placed packet whose stage has no graph in its tile is parsed with exception 0xF7 (R78). -/
theorem execParseWalk_noGraph {id corr ue : Nat} {q : Pkt} {s : State} (hq : s.pkt id = some q) (hplaced : q.phase = .placed)
    (hdirect : q.direct = false) (hg : s.graphFor (s.versioned q) = none) :
    execParseWalk id corr ue s = .next (s.parsed id (s.versioned q) (Walk.start.raise 0xF7)) := by
  simp [execParseWalk, hq, hplaced, hdirect, hg]

/-- A placed packet that meets no uncorrectable node word is parsed by the walk of its stage's graph (R92). -/
theorem execParseWalk_walk {id corr ue : Nat} {q : Pkt} {g : Graph} {s : State} (hq : s.pkt id = some q) (hplaced : q.phase = .placed)
    (hdirect : q.direct = false) (hg : s.graphFor (s.versioned q) = some g) (hue : (s.walkGraph (s.versioned q) g ue).res.pxCode ≠ 0xF6) :
    execParseWalk id corr ue s =
      .next ((s.nodeCorr (s.versioned q) corr).parsed id (s.versioned q) (s.walkGraph (s.versioned q) g ue)) := by
  simp [execParseWalk, hq, hplaced, hdirect, hg, hue]

/-- A fallback decided after PCLK 34 comes too late for a speculative request: the scan is missed and nothing else happens (R27, R213). -/
theorem execScanFallback_late {id : Nat} {p : Pkt} {s : State} (hp : s.pkt id = some p) (hphase : p.phase = .lookedUp) (hqueued : p.scan.st = 1)
    (hlate : 34 < p.scan.latest) :
    execScanFallback id s = .next (s.scanMissed id
      (if s.stepOf (dieOfTile p.tile) = 3 then 3 else if s.stepOf (dieOfTile p.tile) = 0 then 1 else 2) p) := by
  have hissued : ¬ p.scan.latest ≤ 34 := Nat.not_le.2 hlate
  simp [execScanFallback, hp, hphase, hqueued, hissued]

/-- A matched packet for an lport, whose frame is known to be good, has its copies made and is settled: neither the pass limit nor a fault
drops it (R33, R36). -/
theorem execConfirm_good {id : Nat} {sel : Bool} {p : Pkt} {s : State} (hp : s.pkt id = some p) (hphase : p.phase = .matched) (hspec : p.spec ≠ 1)
    (hexit : p.fin.exit < 392) (hverdict : p.verdict.isSome = true) (hgood : p.knownBad 45 = false) :
    execConfirm id sel s = .next ((s.makeCopies id p sel).settle id p p.lk.drop) := by
  have hlimit : decide (392 ≤ p.fin.exit) = false := decide_eq_false (Nat.not_le.2 hexit)
  have hknown : p.verdict.isNone = false := by simpa using hverdict
  simp [execConfirm, hp, hphase, hspec, hlimit, hknown, hgood]

end Sys2Proof.Machine

namespace Sys2Proof
open Sys2Proof.Machine

/-- Settles O28: each row's unit exists, and its guard holds by the clause's hypotheses. -/
theorem arrivalsAndPausesAct : Obligations.ArrivalsAndPausesAct := by
  refine ⟨?_, ?_, ?_, ?_, ?_, ?_, ?_⟩
  · intro l w e full high s hl hup hpeer hpause
    exact execFrameReceive_untagged hl hup hpeer hpause
  · intro t held s ht
    exact onUnit_next.2 ⟨decide_eq_true ht, rfl⟩
  · intro l c at_ s hl hc hat hholds hdue
    refine onUnit_next.2 ⟨by simp [hl, hc], ?_⟩
    rw [hat]
    exact State.when_of (by simp [hholds, hdue])
  · intro l c s hl hc hsent hclear
    refine onUnit_next.2 ⟨by simp [hl, Nat.le_of_lt hc], ?_⟩
    rw [State.when_of (by simp [hsent, hclear]), if_neg (Nat.ne_of_lt hc)]
  · intro l q s hl hup hfc
    refine onUnit_next.2 ⟨decide_eq_true hl, ?_⟩
    simp [hup, hfc]
  · intro l c p s hl hc hp hover
    refine onUnit_next.2 ⟨by simp [hl, hc], ?_⟩
    rw [hp]
    exact State.when_of (decide_eq_true hover)
  · intro l c p s hl hc hp hwd hlong
    refine onUnit_next.2 ⟨by simp [hl, hc], ?_⟩
    rw [hp]
    exact State.when_of (by simp [hwd, hlong])

/-- Settles O29: the packet is in the phase its row acts on; each law of a row takes the branch the clause names. -/
theorem pipeLookupsAct : Obligations.PipeLookupsAct := by
  refine ⟨?_, ?_, ?_, ?_, ?_, ?_, ?_⟩
  · intro id ue q s hq hplaced hdirect hg
    exact execParseWalk_noGraph hq hplaced hdirect hg
  · intro id ue q g s hq hplaced hdirect hg hue
    exact execParseWalk_walk hq hplaced hdirect hg hue
  · intro id n p s hp hphase
    change execPaddockRead id n s = _
    simp only [execPaddockRead, hp]
    rw [if_pos (by simpa [or_assoc] using hphase)]
  · intro id room q s hq hphase hdirect
    change execClassifyAndLookUp id room s = _
    simp [execClassifyAndLookUp, hq, hphase, hdirect]
  · intro t id start engine p s ht hp hstarts
    refine onUnit_next.2 ⟨decide_eq_true ht, ?_⟩
    rw [hp]
    exact State.when_of hstarts
  · intro id p s hp hphase hqueued hlate
    exact execScanFallback_late hp hphase hqueued hlate
  · intro id wait p s hp hphase hscanned
    change execOrderedMatchSearch id wait s = _
    simp [execOrderedMatchSearch, hp, hphase, hscanned]

/-- Settles O30: the scheduler's answer is one of two branches; a row of an exit or a source finds its unit, and what it waits for is due. -/
theorem pipeEndsAct : Obligations.PipeEndsAct := by
  refine ⟨?_, ?_, ?_, ?_, ?_, ?_, ?_⟩
  · intro id p s hp hspec hgrant
    change execSpecGrant id s = _
    simp [execSpecGrant, hp, hspec, hgrant]
  · intro id p s hp hspec hdefer
    change execSpecGrant id s = _
    simp [execSpecGrant, hp, hspec, hdefer]
  · intro id sel p s hp hphase hspec hexit hverdict hgood
    exact execConfirm_good hp hphase hspec hexit hverdict hgood
  · intro x r s hx hr
    refine onUnit_next.2 ⟨decide_eq_true hx, ?_⟩
    rw [hr]
  · intro id p s hp hdue
    change execTailVerdict id s = _
    simp only [execTailVerdict, hp]
    rw [State.when_of hdue]
  · intro t src s ht hsrc
    exact onUnit_next.2 ⟨by simp [ht, hsrc], rfl⟩
  · intro t src id p s ht hsrc hp hheld hlong
    refine onUnit_next.2 ⟨by simp [ht, hsrc], ?_⟩
    -- The packet named is held and has waited long enough, so one of those held has.
    refine State.when_of (List.any_eq_true.2 ⟨id, List.contains_iff_mem.1 hheld, ?_⟩)
    rw [hp]
    exact decide_eq_true hlong

end Sys2Proof
end

section
/-! SUPPORT. Shapes that many rows share: a guarded change of a unit, a command of checks and work; and laws of lanes and of BAR0's blocks. -/
namespace Sys2Proof.Machine
open Sys2Proof

/-- Where its units exist and its condition holds, a guarded meaning makes its change. -/
theorem onUnit_when_of {ok c : Bool} {s : State} {f : State → State} (hok : ok = true) (hc : c = true) :
    onUnit ok (s.when c f) = .next (f s) :=
  onUnit_next.2 ⟨hok, State.when_of hc⟩

/-- Only what a change makes of the lane as it stands matters. -/
theorem State.onLane_congr {s : State} {n : Nat} {f g : LaneSt → LaneSt} (h : f (s.lane n) = g (s.lane n)) : s.onLane n f = s.onLane n g := by
  unfold State.onLane SMap.upd
  unfold State.lane at h
  simp only [State.onPort, h]

/-- Degraded width is only for a link that is up (R58). -/
theorem linkUp_of_widthCapable {x : Lport} (h : widthCapable x = true) : x.linkUp = true := by
  simp only [widthCapable, Bool.and_eq_true] at h
  obtain ⟨⟨⟨⟨hup, -⟩, -⟩, -⟩, -⟩ := h
  exact hup

/-- From LOAD on the DEV block answers (R545). -/
theorem State.blockOpen_dev {s : State} {a : Nat} (hmode : 1 ≤ s.cmd.mode) (ha : a < 0x10000) : s.blockOpen a = true := by
  unfold State.blockOpen
  rw [if_neg (by omega), if_neg (by omega)]
  exact decide_eq_true hmode

/-- From HOUSE on the UCS block answers (R545). -/
theorem State.blockOpen_ucs {s : State} {a : Nat} (hmode : 2 ≤ s.cmd.mode) (hlow : 0xA00000 ≤ a) (hhigh : a < 0xB00000) :
    s.blockOpen a = true := by
  unfold State.blockOpen
  rw [if_neg (by omega), if_pos (by omega)]
  exact decide_eq_true hmode

/-- A read of a block that does not answer in the mode returns zero (R545). -/
theorem State.hostRead_closed {s : State} {addr : Nat} (hclosed : s.blockOpen (addr / 4 * 4) = false) : s.hostRead addr = s.returns 0 := by
  simp [State.hostRead, hclosed]

/-- A read of a DWORD that no latch covers returns the register. -/
theorem State.hostRead_unlatched {s : State} {addr : Nat} (hopen : s.blockOpen (addr / 4 * 4) = true) (hx : latchedAt (addr / 4 * 4) = none) :
    s.hostRead addr = s.returns (s.regAt (addr / 4 * 4)) := by
  simp [State.hostRead, hopen, hx]

/-- A whole DWORD at an aligned address outside the mailbox areas is written to its register (R546). -/
theorem execRegisterWrite_whole {a v : Nat} {s : State} (ha : a % 4 = 0) (hv : v < 2 ^ 32) (hopen : s.blockOpen a = true)
    (hout : a < 0x100000 ∨ 0x200000 ≤ a) : execRegisterWrite a v 15 s = .next (s.writeReg a v) := by
  have haddr : a / 4 * 4 = a := by omega
  have hreg : ¬(0x100000 ≤ a ∧ a < 0x200000 ∧ a % 0x20000 < 0x1F000) := by omega
  simp only [execRegisterWrite, haddr, Nat.mod_eq_of_lt hv, State.when_of hopen, if_neg hreg]
  rfl

/-- S0's inactive bank takes the whole word w: the three DWORDs held and the bytes enabled of the fourth (R249, R565). -/
def State.putHeldWord (s : State) (w value be : Nat) : State :=
  let bank := 1 - (s.edit 0).curBank
  ((s.putUword bank w ((range 0 3).foldl (fun a k => a + ((s.count.held k w).getD 0) * 2 ^ (32 * k)) 0 +
      mergeBytes (bitsOf (s.uwordAt bank w) 96 32) value be * 2 ^ 96)).onEdit 0
    (fun e => { e with window := if e.window.contains w then e.window else e.window ++ [w] })).setBatch 0

@[simp] theorem State.setBatch_count (s : State) (k : Nat) : (s.setBatch k).count = s.count := rfl
@[simp] theorem State.onEdit_count (s : State) (k : Nat) (f : EditSt → EditSt) : (s.onEdit k f).count = s.count := rfl
@[simp] theorem State.putUword_count (s : State) (bank a v : Nat) : (s.putUword bank a v).count = s.count := rfl
@[simp] theorem State.putHeldWord_count (s : State) (w value be : Nat) : (s.putHeldWord w value be).count = s.count := by
  unfold State.putHeldWord
  rw [State.setBatch_count, State.onEdit_count, State.putUword_count]

/-- Where nothing refuses it, a write to DWORD 3 puts the whole word into the bank, empties the holding registers and is counted. -/
theorem execUcsWordWrite_taken {w value be : Nat} {s : State} (hlow : 6144 ≤ w) (hhigh : w < 8192) (hmode : 2 ≤ s.cmd.mode)
    (htaken : s.ucsRefusal w = none) :
    execUcsWordWrite w value be s = .next ((s.putHeldWord w value be).onCount (fun c => { c with
      ucsHold := [none, none, none], ucsWords := (c.ucsWords + 1) % 2 ^ 32 })) := by
  refine (onUnit_when_of (by simp [hlow, hhigh]) (State.blockOpen_ucs hmode (by decide) (by decide))).trans ?_
  rw [htaken]
  rfl

end Sys2Proof.Machine

namespace Sys2Proof
open Sys2Proof.Machine

/-- A row whose meaning is its checks and then its work completes with the work's answer where the checks pass. -/
theorem completes_of_checks {o : Op} {row : Msg → Instr} {ok : Msg → State → Prop} {ans : Msg → State → Answer}
    (checks : Msg → State → List (Bool × Nat)) (work : Msg → State → Answer)
    (hrow : ∀ m s, exec (row m) s = commandRow o (fun m s => orDeny (checks m s) s (work m s)) m s)
    (hpass : ∀ m s, ok m s → firstRefusal (checks m s) = none) (hwork : ∀ m s, ok m s → work m s = ans m s) : Completes o row ok ans :=
  completes_of _ hrow fun m s h => (orDeny_none (hpass m s h)).trans (hwork m s h)

end Sys2Proof
end

section
/-! SUPPORT. The statements on ports and lanes, the COUNTER group and BAR0's registers, settled. -/
namespace Sys2Proof
open Sys2Proof.Machine

/-- Settles O13: each command's checks pass by the clause's conditions. A generator that TEST.PRBS starts leaves the lane's checker as it
stands, so only its pattern is written. -/
theorem portCommandsAct : Obligations.PortCommandsAct := by
  refine ⟨?_, ?_, ?_, ?_, ?_, ?_, ?_, ?_⟩
  · refine completes_of_checks _ _ (fun _ _ => rfl) ?_ (fun _ _ _ => rfl)
    rintro m s ⟨hlow, hhigh, hlen, hport, hzero, hset, howns⟩
    simp [hlow, hhigh, hlen, hport, hzero, hset, howns]
  · refine completes_of_checks _ _ (fun _ _ => rfl) ?_ (fun _ _ _ => rfl)
    rintro m s ⟨hlen, hport, hzero, howns⟩
    simp [hlen, hport, hzero, howns]
  · refine completes_of_checks _ _ (fun _ _ => rfl) ?_ (fun _ _ _ => rfl)
    rintro m s ⟨hlen, hl, hzero, howns, hcfg⟩
    simp [hlen, hl, hzero, howns, hcfg]
  · refine completes_of_checks _ _ (fun _ _ => rfl) ?_ (fun _ _ _ => rfl)
    rintro m s ⟨hsome, hlen, hmax, hrecs⟩
    simp [hsome, hlen, hmax, hrecs]
  · refine completes_of_checks _ _ (fun _ _ => rfl) ?_ ?_
    · rintro m s ⟨hlen, hl, hzero, hkind, hcfg⟩
      have hkinds : m.u8 2 ≤ 2 := by omega
      simp [hlen, hl, hzero, hkinds, hcfg]
    · rintro m s ⟨-, -, -, hkind, -⟩
      exact congrArg done (if_neg (by omega))
  · refine completes_of_checks _ _ (fun _ _ => rfl) ?_ ?_
    · rintro m s ⟨hlen, hl, hzero, hends, hcfg, -⟩
      simp [hlen, hl, hzero, hends, hcfg]
    · rintro m s ⟨-, -, -, hends, -, hloop⟩
      simp [hends, hloop]
  · intro l
    refine completes_of_checks _ _ (fun _ _ => rfl) ?_ ?_
    · rintro m s ⟨hlen, hn, hdir, -, hpat, hzero, hl⟩
      simp [hlen, hn, hdir, hpat, hzero, hl]
    · rintro m s ⟨-, -, hdir, hstarts, -, -, hl⟩
      have hpat : m.u8 3 ≠ 0 := by omega
      have hgen : bitOf 1 0 = true := rfl
      have hchk : bitOf 1 1 = false := rfl
      have hkept : s.onLane (m.u16 0) (fun x => { x with gen := m.u8 3, chk := (s.lane (m.u16 0)).chk }) =
          s.onLane (m.u16 0) (fun x => { x with gen := m.u8 3 }) := State.onLane_congr rfl
      simp [hdir, hgen, hchk, hpat, hl, hkept]
  · intro x
    refine completes_of_checks _ _ (fun _ _ => rfl) ?_ ?_
    · rintro m s ⟨hlen, -⟩
      simp [hlen]
    · rintro m s ⟨-, rfl⟩
      cases m.ext <;> rfl

/-- Settles O14: the lport or tile exists, and the row's condition holds by the clause's hypotheses. -/
theorem linkEventsAct : Obligations.LinkEventsAct := by
  refine ⟨?_, ?_, ?_, ?_, ?_⟩
  · intro l s hl hadmin hdown hadmitted htrain htest hprob
    refine (onUnit_when_of (decide_eq_true hl) (by simp [hadmin, hdown, hadmitted, htrain, htest])).trans ?_
    simp [hprob]
  · intro l cause s hl hcfg hlink
    exact onUnit_when_of (decide_eq_true hl) (by simp [hcfg, hlink])
  · intro l s hl htrain
    refine (onUnit_when_of (decide_eq_true hl) (by simp [htrain])).trans ?_
    simp
  · intro k s hk
    exact onUnit_next.2 ⟨decide_eq_true hk, rfl⟩
  · intro k s hk hlost
    exact onUnit_when_of (decide_eq_true hk) hlost

/-- Settles O15: the lport exists and its row is due. A sub-port that can lose lanes has its link up, and with two pairs out at most it goes
on at the new width. -/
theorem peerAndWidthEventsAct : Obligations.PeerAndWidthEventsAct := by
  refine ⟨?_, ?_, ?_, ?_, ?_, ?_, ?_⟩
  · intro l s hl hpeer hup hdue
    exact onUnit_when_of (decide_eq_true hl) (by simp [hpeer, hup, hdue])
  · intro l flags s hl hpeer hup hpeerUp hack
    refine (onUnit_when_of (decide_eq_true hl) (by simp [hpeer, hup])).trans ?_
    simp [hpeerUp, hack]
  · intro l t s hl hlast hlate
    exact onUnit_when_of (decide_eq_true hl) (by simp [hlast, hlate])
  · intro lane l s hlane hlport hcap hfour
    refine onUnit_next.2 ⟨decide_eq_true hlane, ?_⟩
    simp [hlport, linkUp_of_widthCapable hcap, hcap, Nat.not_lt.2 hfour]
  · intro l pair s hl hpair hcap hfour
    refine (onUnit_when_of (by simp [hl, hpair]) hcap).trans ?_
    simp [Nat.not_lt.2 hfour]
  · intro l w s hl hstep
    refine ⟨_, onUnit_next.2 ⟨decide_eq_true hl, ?_⟩, rfl⟩
    rw [hstep]
  · intro l pair t s hl hpair hup hout hstep hsince hheld
    exact onUnit_when_of (by simp [hl, hpair]) (by simp [hup, hout, hstep, hsince, hheld])

/-- Settles O16: a window's end and a probation's end are due by the clause's hypotheses; the bounds decide a lane's loop, and the checker's
lock its counts. -/
theorem healthAndLaneEventsAct : Obligations.HealthAndLaneEventsAct := by
  refine ⟨?_, ?_, ?_, ?_, ?_, ?_, ?_⟩
  · intro l cw corr sym unc s hl hup hend
    exact onUnit_when_of (decide_eq_true hl) (by simp [hup, hend])
  · intro l cw corr sym unc s hl hup hout hwithdraw hdeg
    refine (onUnit_when_of (decide_eq_true hl) hup).trans ?_
    simp [hout, hwithdraw, hdeg]
  · intro l e s hl hprob hend hdue
    exact onUnit_when_of (decide_eq_true hl) (by simp [hprob, hend, hdue])
  · intro lane field want s hlane hfield hinside
    refine onUnit_next.2 ⟨by simp [hlane, hfield], ?_⟩
    simp [hinside]
  · intro lane field want s hlane hfield houtside hnew
    refine ⟨_, onUnit_next.2 ⟨by simp [hlane, hfield], ?_⟩, rfl⟩
    simp [houtside, hnew]
  · intro lane s hlane hruns hunlocked
    exact onUnit_when_of (decide_eq_true hlane) (by simp [hruns, hunlocked])
  · intro lane s hlane hruns
    exact onUnit_when_of (decide_eq_true hlane) (by simp [hruns])

/-- Settles O44: each command's checks pass by the clause's conditions, at most 1,000 counters being allowed on every lane; without CLEAR a
read leaves the counters, and VIEW 0 is the live one. -/
theorem counterGroupActs : Obligations.CounterGroupActs := by
  refine ⟨?_, ?_, ?_, ?_, ?_⟩
  · intro i
    refine completes_of_checks _ _ (fun _ _ => rfl) ?_ ?_
    · rintro m s ⟨hlen, hsome, hmost, hkeep, hzero, hinst, hcap⟩
      have hn : m.u16 4 ≠ 0 := by omega
      have hring : m.u16 4 ≤ 4000 := by omega
      cases m.lane <;> simp [hlen, hn, hkeep, hzero, hinst, hcap, hmost, hring]
    · rintro m s ⟨-, -, -, hkeep, -, hinst, -⟩
      simp [hinst, hkeep, bitOf]
  · refine completes_of_checks _ _ (fun _ _ => rfl) ?_ (fun _ _ _ => rfl)
    intro m s hlen
    simp [hlen]
  · refine completes_of_checks _ _ (fun _ _ => rfl) ?_ ?_
    · rintro m s ⟨hlen, hview, htile, hstage, hzero, hsome, hmost, howner⟩
      have hn : m.u16 6 ≠ 0 := by omega
      simp [hlen, hview, htile, hstage, hzero, hn, hmost, howner]
    · rintro m s ⟨-, hview, -, hstage, -, -, -, -⟩
      simp [hview, hstage]
  · refine completes_of_checks _ _ (fun _ _ => rfl) ?_ ?_
    · rintro m s ⟨hlen, hview, hzero⟩
      simp [hlen, hview, hzero]
    · rintro m s ⟨-, hview, -⟩
      simp [hview]
  · refine completes_of_checks _ _ (fun _ _ => rfl) ?_ ?_
    · rintro m s ⟨hlen, hl, hview, hzero, howns⟩
      simp [hlen, hl, hview, hzero, howns]
    · rintro m s ⟨-, -, hview, -, -⟩
      simp [hview]

/-- Settles O46: reads are the laws of `hostRead`; a row of the DEV or UCS block finds its block open in the mode the clause gives; what a
window write puts into the bank leaves the counters' part of the state alone. -/
theorem registersAct : Obligations.RegistersAct := by
  refine ⟨?_, ?_, ?_, ?_, ?_, ?_, ?_, ?_, ?_, ?_, ?_, ?_⟩
  · intro addr s hopen hlatch
    exact congrArg Host.Outcome.next (State.hostRead_unlatched hopen hlatch)
  · intro addr s hclosed
    exact congrArg Host.Outcome.next (State.hostRead_closed hclosed)
  · intro l i s hl hi hopen
    exact congrArg Host.Outcome.next (if_neg (by omega))
  · intro s hmode
    exact congrArg Host.Outcome.next (State.when_of (State.blockOpen_ucs hmode (by decide) (by decide)))
  · intro a v s ha hv hopen hout
    exact execRegisterWrite_whole ha hv hopen hout
  · intro s hmode
    exact congrArg Host.Outcome.next (State.when_of (State.blockOpen_dev hmode (by decide)))
  · intro e s harmed hdue
    refine congrArg Host.Outcome.next ?_
    simp [harmed, hdue]
  · intro v e s hgo harmed hnow hmode
    have hopen : s.blockOpen 0x24 = true := State.blockOpen_dev hmode.ge (by decide)
    refine congrArg Host.Outcome.next ((State.when_of (by simp [hopen, hgo])).trans ?_)
    simp [harmed, hnow, hmode]
  · intro v s hgo hidle hmode
    have hopen : s.blockOpen 0x24 = true := State.blockOpen_dev hmode (by decide)
    refine congrArg Host.Outcome.next ((State.when_of (by simp [hopen, hgo])).trans ?_)
    simp [hidle]
  · intro w k v be s hlow hhigh hk hmode howns
    have hopen : s.blockOpen 0xA00000 = true := State.blockOpen_ucs hmode (by decide) (by decide)
    refine (onUnit_when_of (by simp [hlow, hhigh, hk]) hopen).trans ?_
    simp [howns]
  · intro w v be cause s hlow hhigh hmode hrefused
    have hopen : s.blockOpen 0xA00000 = true := State.blockOpen_ucs hmode (by decide) (by decide)
    refine (onUnit_when_of (by simp [hlow, hhigh]) hopen).trans ?_
    rw [hrefused]
  · intro w v be s hlow hhigh hmode htaken
    refine ⟨_, execUcsWordWrite_taken hlow hhigh hmode htaken, ?_, ?_⟩
    · simp
    · simp

end Sys2Proof
end

section
/-! SUPPORT. Laws of staging, chunked images and parse graphs; the statements on the SYS and MODE commands and on parse graphs, settled. -/
namespace Sys2Proof.Machine
open Sys2Proof

/-- The staging checks pass exactly where the stage may stage writes: no resize runs and no commit waits (R182, R438). -/
@[simp] theorem firstRefusal_stagingChecks {s : State} {k : Nat} : firstRefusal (stagingChecks s k) = none ↔ StagingOpen s k := by
  simp [stagingChecks]

/-- The checks of an image's READ pass for 8 bytes that name a version of 0 to 13, or 0xF for what is staged. -/
theorem firstRefusal_imageReadChecks {m : Msg} (hlen : m.plen = 8) (hzero : m.zero 1 3 = true) (hver : m.u8 0 ≤ 13 ∨ m.u8 0 = 15) :
    firstRefusal (imageReadChecks m) = none := by
  have hnamed : 13 < m.u8 0 → m.u8 0 = 15 := by omega
  simpa [imageReadChecks, hlen, hzero] using hnamed

/-- A chunk that fits its assembly is kept, or, the final one, accepted for verification within the limit of R419 (R97, R368). -/
theorem bodySysFwLoad_taken {m : Msg} {s : State} {a : Assembly} (hchecks : firstRefusal (chunkChecks m) = none)
    (htaken : takeChunk s.ctl.fwAssembly m = .taken a) (hlimit : a.final = true → s.atLimit m = false) :
    bodySysFwLoad m s =
      if a.final then accept (s.onCtl (fun c => { c with fwAssembly := none, fwChecking := c.fwChecking ++ [a.bytes] }))
      else done (s.onCtl (fun c => { c with fwAssembly := some a })) := by
  have hroom : (a.final && s.atLimit m) = false := by
    cases hfinal : a.final
    · rfl
    · exact hlimit hfinal
  simp [bodySysFwLoad, hchecks, htaken, hroom]

/-- What PARSE.READ answers for a bound graph and an OFFSET inside its image (R99). -/
theorem bodyParseRead_bound {m : Msg} {s : State} {g : Graph} (hchecks : firstRefusal (imageReadChecks m) = none)
    (hbound : bindOf s (s.stageOf m) (m.u8 0) (s.graphs (s.stageOf m)) = some g) (hinside : m.u32 4 < g.image.length) :
    bodyParseRead m s = doneWith (imageChunk g.image (m.u32 4)) s := by
  simp only [bodyParseRead, hchecks, hbound]
  exact orDeny_none (by simp [hinside])

/-- A change of the tables that leaves the graphs alone leaves every node word with its stage. -/
theorem State.onTab_nodeOwner {s : State} {f : TableSt → TableSt} (hgraphs : (f s.tab).graphs = s.tab.graphs) (t w : Nat) :
    (s.onTab f).nodeOwner t w = s.nodeOwner t w := by
  simp [State.nodeOwner, hgraphs]

end Sys2Proof.Machine

namespace Sys2Proof
open Sys2Proof.Machine

/-- Settles O10: each command's checks pass by the clause's conditions; taking a chunk up leaves the assembly and the limit as they were. -/
theorem sysCommandsAct : Obligations.SysCommandsAct := by
  refine ⟨?_, ?_, ?_, ?_, ?_, ?_⟩
  · intro m s a hadmitted hchecks htaken hlimit
    exact hadmitted.row (bodySysFwLoad_taken hchecks htaken hlimit)
  · refine completes_of_checks _ _ (fun _ _ => rfl) ?_ (fun _ _ _ => rfl)
    rintro m s ⟨hlen, hlimit, hcommit, hstaged⟩
    simp [hlen, hlimit, hcommit, hstaged]
  · refine completes_of_checks _ _ (fun _ _ => rfl) ?_ (fun _ _ _ => rfl)
    rintro m s ⟨hlen, hsynced⟩
    simp [hlen, hsynced]
  · refine completes_of_checks _ _ (fun _ _ => rfl) ?_ (fun _ _ _ => rfl)
    rintro m s ⟨hlen, hkind, hzero, hkey⟩
    simp [hlen, hkind, hzero, hkey]
  · refine completes_of_checks _ _ (fun _ _ => rfl) ?_ (fun _ _ _ => rfl)
    rintro m s ⟨hsome, hwhole, hmost, hrecords⟩
    simpa [hsome, hwhole, hmost, imp_and, forall_and] using hrecords
  · refine completes_of_checks _ _ (fun _ _ => rfl) ?_ (fun _ _ _ => rfl)
    rintro m s ⟨hlen, htarget, hzero, hlimit, hmove, hhouse, hidle⟩
    simpa [hlen, hzero, hlimit, hmove, hidle, or_iff_not_imp_left] using And.intro htarget hhouse

/-- Settles O19: the group's checks pass by each clause's conditions; an image and a damaged word take the branch that the clause names. -/
theorem parseGroupActs : Obligations.ParseGroupActs := by
  refine ⟨?_, ?_, ?_, ?_, ?_, ?_, ?_⟩
  · refine loadCompletes_of parseLoadConds (fun _ _ => rfl) ?_
    rintro s k ⟨hstage, hcommit, hfree⟩
    simp [parseLoadConds, hstage, hcommit, hfree]
  · intro k img s hk hfirst hvalid hfits
    refine onUnit_next.2 ⟨decide_eq_true hk, ?_⟩
    simp [hfirst, hvalid, hfits]
  · intro k st node img written s hk hfirst hbad
    refine onUnit_next.2 ⟨decide_eq_true hk, ?_⟩
    simp [hfirst, hbad]
  · refine completes_of_checks _ _ (fun _ _ => rfl) ?_ (fun _ _ _ => rfl)
    rintro m s ⟨hlen, hopen⟩
    simpa [hlen] using hopen
  · intro g
    refine completes_of _ (fun _ _ => rfl) ?_
    rintro m s ⟨hlen, hzero, hver, hbound, hinside⟩
    exact bodyParseRead_bound (firstRefusal_imageReadChecks hlen hzero hver) hbound hinside
  · refine completes_of_checks _ _ (fun _ _ => rfl) ?_ (fun _ _ _ => rfl)
    intro m s hlen
    simp [hlen]
  · rintro t w s s1 ht hw hbad rfl
    refine (onUnit_when_of (by simp [ht, hw]) hbad).trans (congrArg Host.Outcome.next ?_)
    cases howner : s.nodeOwner t w with
    | none => simp [State.onTab_nodeOwner, howner]
    | some o => simp [State.onTab_nodeOwner, howner]

end Sys2Proof
end

section
/-! SUPPORT. Laws of the commands that stage and read tables and of what tiles do to their tables; the statements on exact tables and learning,
settled. -/
namespace Sys2Proof.Machine
open Sys2Proof

/-- Two lists of checks in a row pass where each passes. -/
@[simp] theorem firstRefusal_append {l l' : List (Bool × Nat)} :
    firstRefusal (l ++ l') = none ↔ firstRefusal l = none ∧ firstRefusal l' = none := by
  induction l with
  | nil => simp
  | cons c l ih => rw [List.cons_append, firstRefusal_eq_none, firstRefusal_eq_none, ih, and_assoc]

/-- The bank checks pass exactly where the stage may change a bank: besides, no version of it is retiring (R165, R182). -/
@[simp] theorem firstRefusal_bankChecks {s : State} {k : Nat} : firstRefusal (bankChecks s k) = none ↔ BankOpen s k := by
  simp [bankChecks]

/-- Staged writes are held exactly while a version of the stage is retiring (R180). -/
@[simp] theorem State.holdsWrites_eq (s : State) (k : Nat) : s.holdsWrites k = s.hasRetiring k := rfl

/-- Items of which none is bad give the answer. -/
@[simp] theorem orDenyAt_none (s : State) (a : Answer) : orDenyAt none s a = a := rfl

/-- Well-formed prefix records of a stage that may stage writes: all are staged or none, and they are held while a version is retiring
(R152, R180). -/
theorem bodyPfx_wellFormed {opcode : Nat} {add : Bool} {m : Msg} {s : State} (hwhole : m.plen % 28 = 0) (hsome : (m.records 0 28).isEmpty = false)
    (hmost : (m.records 0 28).length ≤ 512) (hgood : firstBad (pfxBad (s.nextCfg (s.stageOf m)) add) (m.records 0 28) 0 = none)
    (hopen : StagingOpen s (s.stageOf m)) :
    bodyPfx opcode add m s =
      if s.holdsWrites (s.stageOf m) then
        hold ((s.directHeld (s.stageOf m) (m.records 0 28)).holdCommand opcode (s.stageOf m) (m.records 0 28).length m)
      else stagedAnswer (stagePfx (s.stageOf m) add) (m.records 0 28) s := by
  have hlength : firstRefusal
      [(m.plen % 28 != 0 || (m.records 0 28).isEmpty || decide (512 < (m.records 0 28).length), St.badLength)] = none := by
    simp [hwhole, hsome, hmost]
  simp only [bodyPfx, orDeny_none hlength, hgood, orDenyAt_none, orDeny_none (firstRefusal_stagingChecks.2 hopen)]

/-- Well-formed entry records of a stage that may stage writes: all are staged or none, and they are held while a version is retiring
(R428, R180). -/
theorem bodyEntries_wellFormed {opcode : Nat} {delete : Bool} {m : Msg} {s : State} {rs : List EntRec} (hrecs : entRecs m.payload 513 0 = some rs)
    (hsome : rs ≠ []) (hmost : rs.length ≤ 512) (hgood : firstBad (entBad s (s.stageOf m) delete) rs 0 = none)
    (hown : firstBad (entForeign s (s.stageOf m)) rs 0 = none) (hopen : StagingOpen s (s.stageOf m)) :
    bodyEntries opcode delete m s =
      if s.holdsWrites (s.stageOf m) then hold (s.holdCommand opcode (s.stageOf m) rs.length m)
      else stagedAnswer (if delete then unstageEntry (s.stageOf m) else stageEntry (s.stageOf m)) rs s := by
  have hlength : firstRefusal [(rs.isEmpty || decide (512 < rs.length), St.badLength)] = none := by
    simp [hsome, hmost]
  simp only [bodyEntries, hrecs, orDeny_none hlength, hgood, hown, orDenyAt_none, orDeny_none (firstRefusal_stagingChecks.2 hopen)]

/-- TABLE.DOMAIN of well-formed records applies them to the next version's bank (R154). -/
theorem bodyTableDomain_wellFormed {m : Msg} {s : State} (hlen : m.plen = 4 + 4 * m.u16 0 + 8 * m.u8 2) (hrds : m.u16 0 ≤ 4096)
    (hd6s : m.u8 2 ≤ 32) (hzero : m.zero 3 1 = true) (hgood : domainBad m s (s.stageOf m) = none) (hopen : BankOpen s (s.stageOf m)) :
    bodyTableDomain m s = done (s.stageCfg (s.stageOf m) (applyDomain m)) := by
  refine (orDeny_none (by simp [hlen, hrds, hd6s, hzero])).trans ?_
  rw [hgood, orDenyAt_none, orDeny_none (firstRefusal_bankChecks.2 hopen)]

/-- The kinds a read may name lie in the range of kinds and are neither PFX4_DIRECT nor a filter (R105, R136). -/
theorem readKind_range {kind : Nat} (h : 1 ≤ kind ∧ kind ≤ 5 ∨ 9 ≤ kind ∧ kind ≤ 12) :
    (1 ≤ kind ∧ kind ≤ 12) ∧ kind ≠ 6 ∧ kind ≠ 7 ∧ kind ≠ 8 := by omega

end Sys2Proof.Machine

namespace Sys2Proof
open Sys2Proof.Machine

/-- Settles O23: each command's checks pass by the clause's conditions; with no version retiring the records are staged, not held. -/
theorem tableStagingActs : Obligations.TableStagingActs := by
  refine ⟨?_, ?_, ?_, ?_, ?_, ?_, ?_, ?_⟩
  · refine completes_of_checks _ _ (fun _ _ => rfl) ?_ ?_
    · rintro m s ⟨hlen, hpads, hsplit, hzero, hzeros, hlimit, ⟨hstage, hcommit⟩, hroom, hnext⟩
      simpa [hlen, hpads, hsplit, hzero, hzeros, hlimit, hstage, hcommit, hnext] using hroom
    · rintro m s ⟨-, -, hsplit, -⟩
      rw [hsplit]
      rfl
  · intro k kind i s hk hkind hnext hready
    refine onUnit_next.2 ⟨by simp [hk, hkind], ?_⟩
    simp [hnext, hready]
  · refine completes_of_checks _ _ (fun _ _ => rfl) ?_ (fun _ _ _ => rfl)
    rintro m s ⟨hlen, hgood, hopen⟩
    simpa [hlen, hgood] using hopen
  · refine completes_of _ (fun _ _ => rfl) ?_
    rintro m s ⟨hlen, hrds, hd6s, hzero, hgood, hopen⟩
    exact bodyTableDomain_wellFormed hlen hrds hd6s hzero hgood hopen
  · refine completes_of _ (fun _ _ => rfl) ?_
    rintro m s ⟨-, -, hwhole, hsome, hmost, hgood, hopen, hkept⟩
    exact (bodyPfx_wellFormed hwhole hsome hmost hgood hopen).trans (if_neg (by simp [hkept]))
  · refine completes_of _ (fun _ _ => rfl) ?_
    rintro m s ⟨-, -, hwhole, hsome, hmost, hgood, hopen, hkept⟩
    exact (bodyPfx_wellFormed hwhole hsome hmost hgood hopen).trans (if_neg (by simp [hkept]))
  · intro rs
    refine completes_of _ (fun _ _ => rfl) ?_
    rintro m s ⟨hrecs, hsome, hmost, hgood, hown, hopen, hkept⟩
    exact (bodyEntries_wellFormed hrecs hsome hmost hgood hown hopen).trans (if_neg (by simp [hkept]))
  · intro rs
    refine completes_of _ (fun _ _ => rfl) ?_
    rintro m s ⟨hrecs, hsome, hmost, hgood, hown, hopen, hkept⟩
    exact (bodyEntries_wellFormed hrecs hsome hmost hgood hown hopen).trans (if_neg (by simp [hkept]))

/-- Settles O24: each command's checks pass by the clause's conditions; a key that is found is returned, and a walk goes on in the instance of
the version named. -/
theorem tableReadsAndAborts : Obligations.TableReadsAndAborts := by
  refine ⟨?_, ?_, ?_, ?_, ?_, ?_⟩
  · refine completes_of_checks _ _ (fun _ _ => rfl) ?_ ?_
    · rintro m s ⟨hlen, hkind, htile, hhow, hversion, hzero, hcursor, hcount, hkey, howns, hlive, -⟩
      simpa [hlen, htile, hhow, hversion, hzero, hcursor, hcount, hkey, hlive, and_assoc] using And.intro (readKind_range hkind) howns
    · rintro m s ⟨-, -, -, hhow, -, -, -, -, -, -, -, hfound⟩
      simp [hhow, hfound]
  · intro i
    refine completes_of_checks _ _ (fun _ _ => rfl) ?_ ?_
    · rintro m s ⟨hlen, hkind, htile, hhow, hversion, hzero, hsome, hmost, hzeros, howns, hlive, -⟩
      have hcount : m.u16 8 ≠ 0 := by omega
      simpa [hlen, htile, hhow, hversion, hzero, hcount, hmost, hzeros, hlive, and_assoc] using And.intro (readKind_range hkind) howns
    · rintro m s ⟨-, -, -, hhow, -, -, -, -, -, -, -, hinst⟩
      simp [hhow, hinst]
  · refine completes_of_checks _ _ (fun _ _ => rfl) ?_ ?_
    · rintro m s ⟨hlen, hhow, hzero, hvid, hzeros, hroom⟩
      simp [hlen, hhow, hzero, hvid, hzeros, hroom]
    · rintro m s ⟨-, hhow, -⟩
      rw [hhow]
  · refine completes_of_checks _ _ (fun _ _ => rfl) ?_ ?_
    · rintro m s ⟨hlen, hopen, -⟩
      simpa [hlen] using hopen
    · rintro m s ⟨-, -, hkept⟩
      simp [hkept]
  · refine completes_of_checks _ _ (fun _ _ => rfl) ?_ ?_
    · rintro m s ⟨hlen, hopen, -⟩
      simpa [hlen] using hopen
    · rintro m s ⟨-, -, hretiring⟩
      simp [hretiring]
  · refine completes_of_checks _ _ (fun _ _ => rfl) ?_ (fun _ _ _ => rfl)
    intro m s hlen
    simp [hlen]

/-- Settles O27: the tile or the place exists, and the row's condition holds by the clause's hypotheses; what a scrub found and whether a rewrite
worked decide the branch. -/
theorem tileTableEventsAct : Obligations.TileTableEventsAct := by
  refine ⟨?_, ?_, ?_, ?_, ?_, ?_⟩
  · intro t p s ht hfirst
    refine onUnit_next.2 ⟨decide_eq_true ht, ?_⟩
    rw [hfirst]
  · intro k s hk
    exact onUnit_next.2 ⟨decide_eq_true hk, rfl⟩
  · intro t k n s ht hk hrate hlimit hfirst
    refine (onUnit_when_of (by simp [ht, hk]) (by simp [hrate, hlimit, hfirst])).trans ?_
    rw [hrate]
  · intro t pad line word hit s hplace hinst hvalid hlearned hfirm
    exact onUnit_when_of hplace (by simpa [hvalid, hlearned, hfirm] using hinst)
  · rintro t pad line word k kind addr w s hplace rfl rfl rfl rfl
    refine ⟨?_, ?_, ?_⟩
    · exact onUnit_next.2 ⟨hplace, rfl⟩
    · exact onUnit_next.2 ⟨hplace, rfl⟩
    · exact onUnit_next.2 ⟨hplace, rfl⟩
  · rintro t pad line word w s hplace rfl hpoisoned
    refine ⟨?_, ?_⟩
    · exact onUnit_when_of hplace hpoisoned
    · exact onUnit_when_of hplace hpoisoned

end Sys2Proof
end

section
/-! SUPPORT. Laws of the commands on rules and their blocks; the statement on prefix and rule matching, settled. -/
namespace Sys2Proof.Machine
open Sys2Proof

/-- Where the block has room for the rule, RULE.ADD leaves the block with it, counts its arrival, marks the batch and looks at the holes (R167). -/
theorem State.addRule_inserted {s : State} {k b : Nat} {m : Msg} {x : Block} (hroom : (s.block b).insertRule (s.ruleOf k m) = some x) :
    s.addRule k b m = done (((((s.onBlock b (fun _ => x)).cleanBlock b).onTab (fun t => { t with
      arrivals := t.arrivals + 1 })).setBatch k).checkHoles b) := by
  simp only [State.addRule, hroom]

/-- A rule that needs no policer, or names one of its stage's own, passes the policer check of RULE.ADD (R295). -/
theorem policerCheck_pass {s : State} {k a : Nat} (h : actPolEn a = true → s.ownsPolicer k (actPolicer a) = true) :
    (actPolEn a && !s.ownsPolicer k (actPolicer a)) = false := by
  cases hen : actPolEn a
  · rfl
  · simp [h hen]

/-- RESPACED of a block that holds no more than its holes allow and uses one of them: the rules are respaced, and the block's stage is told (R167, R173). -/
theorem execRespaced_restores {b : Nat} {s : State} (hb : b < 32) (hfits : (s.block b).rules.length ≤ (s.block b).capacity)
    (hused : (s.block b).holeUsed = true) :
    execRespaced b s = .next (((s.onBlock b (fun x => x.respaced)).cleanBlock b).post (s.block b).stage Ev.respaced Lv.device
      (s.block b).stage (leBytes 1 b ++ zeros 3)) :=
  onUnit_next.2 ⟨decide_eq_true hb, (if_neg (Nat.not_lt.2 hfits)).trans (State.when_of hused)⟩

end Sys2Proof.Machine

namespace Sys2Proof
open Sys2Proof.Machine

/-- Settles O25: each command's checks pass by the clause's conditions; with no version retiring RULE.ADD and RULE.DELETE act at once, the one
because the id is new and the block has room, the other on the rule that is found. -/
theorem ruleGroupActs : Obligations.RuleGroupActs := by
  refine ⟨?_, ?_, ?_, ?_, ?_, ?_, ?_, ?_, ?_⟩
  · refine completes_of_checks _ _ (fun _ _ => rfl) ?_ (fun _ _ _ => rfl)
    rintro m s ⟨hlen, hblock, hstage, hlive, hlayout, hlow, hhigh, hzero, hempty, hunnamed⟩
    have hinterval : 1 < m.u8 3 := hlow
    simpa [hlen, hblock, hstage, hlive, hlayout, hinterval, hhigh, hzero, hempty] using hunnamed
  · refine completes_of_checks _ _ (fun _ _ => rfl) ?_ (fun _ _ _ => rfl)
    rintro m s ⟨hlen, hlayout, hlanes, hopen⟩
    simpa [hlen, hlayout, -List.all_map] using And.intro hlanes hopen
  · refine completes_of_checks _ _ (fun _ _ => rfl) ?_ (fun _ _ _ => rfl)
    rintro m s ⟨hlen, hcomparator, hsource, hshift, hflag, hothers, hopen⟩
    simpa [hlen, hcomparator, hsource, hshift, hflag, hothers] using hopen
  · intro v w
    refine completes_of_checks _ _ (fun _ _ => rfl) ?_ ?_
    · rintro m s ⟨hlen, hentry, hflag, hblocks, rfl, rfl, hmasked, hvalue, hmask, hothers, hown, hopen⟩
      simpa [hlen, hentry, hflag, hblocks, hmasked, hvalue, hmask, hothers, hown] using hopen
    · rintro m s ⟨-, -, -, -, rfl, rfl, -⟩
      rfl
  · refine completes_of_checks _ _ (fun _ _ => rfl) ?_ (fun _ _ _ => rfl)
    rintro m s ⟨hlen, hdefault, hprefix, hopen⟩
    simpa [hlen, hdefault, hprefix] using hopen
  · intro x
    refine completes_of_checks _ _ (fun _ _ => rfl) ?_ ?_
    · rintro m s ⟨hlen, hblock, hzero, hmasked, haction, hown, hpolicer, ⟨hopen, -⟩, -⟩
      simpa [hlen, hblock, hzero, hmasked, haction, hown, policerCheck_pass hpolicer] using hopen
    · rintro m s ⟨-, -, -, -, -, -, -, ⟨-, hkept⟩, hnew, hroom⟩
      simpa [hkept, hnew] using State.addRule_inserted hroom
  · intro b p r
    refine completes_of_checks _ _ (fun _ _ => rfl) ?_ ?_
    · rintro m s ⟨hlen, ⟨hopen, -⟩, -⟩
      simpa [hlen] using hopen
    · rintro m s ⟨-, ⟨-, hkept⟩, hfound⟩
      simp [hkept, hfound]
  · refine completes_of_checks _ _ (fun _ _ => rfl) ?_ (fun _ _ _ => rfl)
    rintro m s ⟨hlen, hblock, hzero, hsome, hmost, hinside, hown⟩
    have hcount : m.u16 6 ≠ 0 := by omega
    simp [hlen, hblock, hzero, hcount, hmost, hinside, hown]
  · intro b s hb hfits hused
    exact execRespaced_restores hb hfits hused

end Sys2Proof
end

section
/-! SUPPORT. When a commit or a pending sheet may still be withdrawn or replaced, and changes of the counters' part; the statements on commits, on
cue sheets and buffers, and on the DIAG window and the test access port, settled. -/
namespace Sys2Proof.Machine
open Sys2Proof

/-- Neither a commit that waits to be armed nor one armed for more than 2 µs ahead is too late to withdraw (R187). -/
theorem cancelStateChecks_pass {v : Ver} {t : Nat} (h : v.state = 1 ∨ v.state = 2 ∧ t + 2000 < v.flipTime) :
    v.state ≠ 0 ∧ (v.state == 2 && decide (v.flipTime ≤ t + 2000) || v.state == 3 || v.state == 4) = false := by
  rcases h with harming | ⟨harmed, hahead⟩
  · simp [harming]
  · simp [harmed, hahead]

/-- A pending sheet whose switch time lies after t does not switch by t: it may still be replaced (R318). -/
theorem sheetFar_notSoon {e : Egress} {p : CueSheet × Nat} {t : Nat} (hp : e.pending = some p)
    (hfar : (e.pending.map (fun p => decide (t < p.2))).getD true = true) : decide (p.2 ≤ t) = false := by
  simpa [hp] using hfar

/-- Only what a change makes of the counters' part as it stands matters. -/
theorem State.onCount_congr {s : State} {f g : CountSt → CountSt} (h : f s.count = g s.count) : s.onCount f = s.onCount g := by
  simp only [State.onCount, h]

end Sys2Proof.Machine

namespace Sys2Proof
open Sys2Proof.Machine

/-- Settles O26: the checks of TABLE.COMMIT and TABLE.COMMIT_CANCEL pass by the clauses' conditions; each event finds its stage, and the version's
state and time make it due. -/
theorem commitsAct : Obligations.CommitsAct := by
  refine ⟨?_, ?_, ?_, ?_, ?_, ?_, ?_, ?_⟩
  · refine completes_of_checks _ _ (fun _ _ => rfl) ?_ (fun _ _ _ => rfl)
    rintro m s ⟨hlen, hzero, hns, hflags, hzeros, htime, hlimit, hstage, hidle⟩
    simpa [hlen, hzero, hns, hflags, hzeros, hlimit, hstage, hidle, or_iff_not_imp_left] using htime
  · intro k s hk hstate hready
    exact onUnit_when_of (decide_eq_true hk) (by simp [hstate, hready])
  · intro k s hk hstate hready
    exact onUnit_when_of (decide_eq_true hk) (by simp [hstate, hready])
  · intro k s hk hstate hdue
    exact onUnit_when_of (decide_eq_true hk) (by simp [hstate, hdue])
  · refine completes_of_checks _ _ (fun _ _ => rfl) ?_ (fun _ _ _ => rfl)
    rintro m s ⟨hlen, hstage, hcommit⟩
    simpa [hlen, hstage] using cancelStateChecks_pass hcommit
  · intro k r s hk hstate hretiring hdrained
    exact onUnit_when_of (decide_eq_true hk) (by simp [hstate, hretiring, hdrained])
  · intro k r s hk hstate hretiring
    refine (onUnit_when_of (decide_eq_true hk) (by simp [hstate])).trans ?_
    rw [hretiring]
    rfl
  · intro k s hk hlive
    exact onUnit_when_of (decide_eq_true hk) hlive

/-- Settles O34: each command's checks pass by the clause's conditions, a sheet replacing none or one that is not too close; a switch or an expiry is
due, and a tile without headroom in use lists none. -/
theorem sheetsAndBuffersAct : Obligations.SheetsAndBuffersAct := by
  refine ⟨?_, ?_, ?_, ?_, ?_, ?_, ?_, ?_⟩
  · refine completes_of_checks _ _ (fun _ _ => rfl) ?_ (fun _ _ _ => rfl)
    rintro m s ⟨-, hlen, hl, hcount, hzero, hzeros, hbase, hset, hlow, hhigh, hentries, howns, hfar⟩
    cases hp : (s.eg (m.u16 0)).pending with
    | none => simpa [hlen, hl, hcount, hzero, hzeros, hbase, hset, hlow, hhigh, howns] using hentries
    | some p =>
      simpa [hlen, hl, hcount, hzero, hzeros, hbase, hset, hlow, hhigh, howns, sheetFar_notSoon hp hfar] using hentries
  · intro l s hl
    exact onUnit_next.2 ⟨decide_eq_true hl, rfl⟩
  · intro l p s hl hp hdue
    refine onUnit_next.2 ⟨decide_eq_true hl, ?_⟩
    rw [hp]
    exact State.when_of (decide_eq_true hdue)
  · intro k r s hk hretiring hstate hfirst hlate hheld
    refine onUnit_next.2 ⟨decide_eq_true hk, ?_⟩
    rw [hretiring]
    exact State.when_of (by simp [hstate, hfirst, hlate, hheld])
  · intro x
    refine completes_of_checks _ _ (fun _ _ => rfl) ?_ ?_
    · rintro m s ⟨hsome, hwhole, hrecords, rfl, hfits⟩
      simpa [hsome, hwhole, hfits] using hrecords
    · rintro m s ⟨-, -, -, rfl, -⟩
      rfl
  · refine completes_of_checks _ _ (fun _ _ => rfl) ?_ (fun _ _ _ => rfl)
    rintro m s ⟨hsome, hwhole, hrecords, hfits⟩
    simpa [hsome, hwhole, hfits, imp_and, forall_and, and_assoc] using hrecords
  · refine completes_of_checks _ _ (fun _ _ => rfl) ?_ (fun _ _ _ => rfl)
    rintro m s ⟨hsome, hwhole, hrecords, howns⟩
    simpa [hsome, hwhole] using And.intro hrecords howns
  · intro voqs
    refine completes_of_checks _ _ (fun _ _ => rfl) ?_ ?_
    · rintro m s ⟨hlen, htile, hzero, howns, -⟩
      simpa [hlen, htile, hzero] using howns
    · rintro m s ⟨-, -, -, -, rfl, hheads⟩
      simp [hheads]

/-- Settles O47: an operation starts where DIAG is free, and the target's status decides whether it reads or writes; a completed READ has its word;
TRST_N decides a cycle of TCK, and outside REHEARSAL no debug unlock acts. -/
theorem diagAndTapAct : Obligations.DiagAndTapAct := by
  refine ⟨?_, ?_, ?_, ?_, ?_, ?_⟩
  · intro s hfree hdone
    refine congrArg Host.Outcome.next ((State.when_of hfree).trans ?_)
    simp [hdone]
  · rintro st s hfree rfl hrefused
    refine congrArg Host.Outcome.next ((State.when_of hfree).trans ?_)
    simp [hrefused]
  · intro s hfree hdone
    refine congrArg Host.Outcome.next ((State.when_of hfree).trans ?_)
    simp [hdone]
  · intro st w s hbusy hread
    refine congrArg Host.Outcome.next ?_
    rw [hbusy]
    refine congrArg (fun t => t.raiseIrq 93) (State.onCount_congr ?_)
    rw [hread]
  · intro tms tdi low pins s
    exact congrArg Host.Outcome.next (if_pos rfl)
  · intro tms tdi low pins s hmode
    refine congrArg Host.Outcome.next ((if_neg Bool.false_ne_true).trans (if_neg ?_))
    rintro ⟨-, -, hrehearsal⟩
    exact hmode hrehearsal

end Sys2Proof
end

section
/-! SUPPORT. Laws of surveys and of the commands on pattern sets; the statements on the pattern engine and on frames from and to the host, settled. -/
namespace Sys2Proof.Machine
open Sys2Proof

/-- What PATTERN.READ answers for a bound set and an OFFSET inside its image (R223). -/
theorem bodyPatternRead_bound {m : Msg} {s : State} {x : PatSet} (hchecks : firstRefusal (imageReadChecks m) = none)
    (hbound : bindOf s (s.stageOf m) (m.u8 0) (s.sets (s.stageOf m)) = some x) (hinside : m.u32 4 < x.image.length) :
    bodyPatternRead m s = doneWith (imageChunk x.image (m.u32 4)) s := by
  simp only [bodyPatternRead, hchecks, hbound]
  exact orDeny_none (by simp [hinside])

/-- Only a query's end is told: a punt's or a capture's survey posts nothing (R219). -/
theorem State.surveyResult_ofFrame {j : Survey} (h : j.query = none) (s : State) (status : Nat) (rec_ : List Byte) :
    s.surveyResult j status rec_ = s := by
  simp only [State.surveyResult, h]

/-- A waiting job in a tile with engines runs to its end; with at most eight matches none is left out of its record (R220). -/
theorem execSurveyJob_runs {h : Nat} {j : Survey} {s : State} (hj : SMap.find h s.tab.surveys = some j) (hwaits : j.done = false)
    (hengines : s.engines j.tile ≠ 0) (hmatches : (allMatches j.auto j.data).length ≤ 8) :
    execSurveyJob h s = .next ((((s.endSurvey j (surveyRecord j false)).bumpN j.tile j.stage 0xA9
      (if j.auto.isEmpty then 0 else surveyStrides j)).bump j.tile j.stage 0xAA).surveyResult j St.done (surveyRecord j false)) := by
  have hlisted : ¬ 8 < (allMatches j.auto j.data).length := Nat.not_lt.2 hmatches
  simp [execSurveyJob, hj, hwaits, hengines, hlisted]

/-- At SURVEY_WAIT the waiting job of a punt or a capture is stopped where it stands, whatever the throttle's step (R219). -/
theorem execSurveyWaitExpiry_stops {h : Nat} {j : Survey} {s : State} (hj : SMap.find h s.tab.surveys = some j) (hwaits : j.done = false)
    (hframe : j.query = none) (hdue : j.startedAt + tkUs (s.setting 0x0014 j.stage) ≤ s.now) :
    execSurveyWaitExpiry h s = .next ((s.endSurvey j (surveyRecord j true)).bump j.tile j.stage 0xAC) := by
  simp [execSurveyWaitExpiry, hj, hwaits, hframe, Nat.not_lt.2 hdue, State.surveyResult_ofFrame hframe]

/-- PATTERN.STEP answers from the job of a handle whose buffer is still retained for it (R221). -/
theorem bodyPatternStep_live {m : Msg} {s : State} {j : Survey} {b : Buffer} (hlen : m.plen = 8)
    (hj : SMap.find (m.u32 0) s.tab.surveys = some j) (hstage : j.stage = s.stageOf m) (hb : s.buffer (keyOfHandle (m.u32 0)) = some b)
    (hgen : b.gen = genOfHandle (m.u32 0)) (hretained : b.retained = true) :
    bodyPatternStep m s = doneWith (leBytes 1 (flagNat (decide (((allMatches j.auto j.data).drop (m.u32 4)).length ≤ 256))) ++ zeros 1 ++
      leBytes 2 (min ((allMatches j.auto j.data).drop (m.u32 4)).length 256) ++
      ((((allMatches j.auto j.data).drop (m.u32 4)).take 256).map matchBytes).flatten) s := by
  have hlength : firstRefusal [(m.plen != 8, St.badLength)] = none := by simp [hlen]
  simp only [bodyPatternStep, hlength, hj, hb]
  exact orDeny_none (by simp [hstage, hgen, hretained])

/-- A lane of a host queue exists where its stage, queue, tile and class do (R398). -/
theorem hostLane_exists {k q t c : Nat} (hk : k < 5) (hq : q < 8) (ht : t < 8) (hc : c < 8) :
    (decide (k < 5) && decide (q < 8) && decide (t < 8) && decide (c < 8)) = true := by
  simp [hk, hq, ht, hc]

end Sys2Proof.Machine

namespace Sys2Proof
open Sys2Proof.Machine

/-- Settles O20: the group's checks pass by each clause's conditions; an image takes the branch that its checks name, and a reading and a repair
find their die or engine. -/
theorem patternGroupActs : Obligations.PatternGroupActs := by
  refine ⟨?_, ?_, ?_, ?_, ?_, ?_, ?_, ?_, ?_⟩
  · refine loadCompletes_of patternLoadConds (fun _ _ => rfl) ?_
    rintro s k ⟨hstage, hcommit, hfree⟩
    simp [patternLoadConds, hstage, hcommit, hfree]
  · intro k img s hk hfirst hvalid hfits
    refine onUnit_next.2 ⟨decide_eq_true hk, ?_⟩
    simp only [hfirst, hvalid, hfits]
    rfl
  · intro k st img written s hk hfirst hbad
    refine onUnit_next.2 ⟨decide_eq_true hk, ?_⟩
    simp only [hfirst, hbad]
  · refine completes_of_checks _ _ (fun _ _ => rfl) ?_ (fun _ _ _ => rfl)
    rintro m s ⟨hlen, hopen⟩
    simpa [hlen] using hopen
  · intro x
    refine completes_of _ (fun _ _ => rfl) ?_
    rintro m s ⟨hlen, hzero, hver, hbound, hinside⟩
    exact bodyPatternRead_bound (firstRefusal_imageReadChecks hlen hzero hver) hbound hinside
  · refine completes_of_checks _ _ (fun _ _ => rfl) ?_ (fun _ _ _ => rfl)
    intro m s hlen
    simp [hlen]
  · refine completes_of_checks _ _ (fun _ _ => rfl) ?_ (fun _ _ _ => rfl)
    rintro m s ⟨hlen, hfloor, hcap, hzero⟩
    simp [hlen, hfloor, hcap, hcap.trans hfloor, hzero]
  · intro die tj s hdie
    exact onUnit_next.2 ⟨decide_eq_true hdie, rfl⟩
  · intro t e s ht he hbad
    exact onUnit_when_of (by simp [ht, he]) hbad

/-- Settles O21: a query's checks pass by the clause's conditions, and a buffer takes its bytes; the events act on the job of their handle, and
PATTERN.STEP on one whose buffer is live. -/
theorem surveysAct : Obligations.SurveysAct := by
  refine ⟨?_, ?_, ?_, ?_⟩
  · intro key x
    refine completes_of_checks _ _ (fun _ _ => rfl) ?_ ?_
    · rintro m s ⟨hlow, hhigh, htile, hzero, hserved, hlimit, -⟩
      simpa [hlow, hhigh, htile, hzero, hlimit] using hserved
    · rintro m s ⟨-, -, -, -, -, -, hbuffer⟩
      simp only [hbuffer]
  · intro h j s hj hwaits hengines hmatches
    exact execSurveyJob_runs hj hwaits hengines hmatches
  · intro h j s hj hwaits hframe hdue
    exact execSurveyWaitExpiry_stops hj hwaits hframe hdue
  · intro j b
    refine completes_of _ (fun _ _ => rfl) ?_
    rintro m s ⟨hlen, hj, hstage, hb, hgen, hretained⟩
    exact bodyPatternStep_live hlen hj hstage hb hgen hretained

/-- Settles O37: an INJECT row acts on the entry that its ring's state names; a host queue's rows find their lane, and what waits or whose turn it
is decides the branch. -/
theorem hostFramesAct : Obligations.HostFramesAct := by
  refine ⟨?_, ?_, ?_, ?_, ?_, ?_, ?_⟩
  · intro p key it frame cqOk s s1 hp hkind hstate hfirst hallowed hbuffer
    refine (onUnit_when_of (decide_eq_true hp) (by simp [hkind, hstate])).trans ?_
    simp [hfirst, hallowed, hbuffer]
  · intro p it frame dmaOk cqOk s hp hkind hstate hfirst hdenied
    refine (onUnit_when_of (decide_eq_true hp) (by simp [hkind, hstate])).trans ?_
    simp [hfirst, hdenied]
  · intro p f it rest cqOk s hp hkind hstate hitems hfated
    refine (onUnit_when_of (decide_eq_true hp) (by simp [hkind, hstate])).trans ?_
    simp [hitems, hfated]
  · intro k q t c err cell j key it dmaOk cqOk s hk hq ht hc hdue
    refine onUnit_next.2 ⟨hostLane_exists hk hq ht hc, ?_⟩
    simp only [hdue]
  · intro k q t c err cell w dmaOk cqOk s hk hq ht hc hnone hdue
    refine onUnit_next.2 ⟨hostLane_exists hk hq ht hc, ?_⟩
    simp only [hnone, hdue]
  · intro k q t c cell id d key p dmaOk cqOk s s1 hk hq ht hc hnoPunt hnoCapture hhead hnext hpair hbuffer
    refine onUnit_next.2 ⟨hostLane_exists hk hq ht hc, ?_⟩
    have hnotFlow : ¬ 68 ≤ d := by omega
    simp [hnoPunt, hnoCapture, hhead, hnext, hnotFlow, hpair, hbuffer]
  · intro k q t c cell id d p s hk hq ht hc hhead hnext hflow
    refine onUnit_next.2 ⟨hostLane_exists hk hq ht hc, ?_⟩
    simp [hhead, hnext, Nat.not_lt.2 hflow]

end Sys2Proof
end

section
/-! SUPPORT. Laws of the commands on microcode, of the images they stage and of the dressers' rows; the statements on the edit engine, settled. -/
namespace Sys2Proof.Machine
open Sys2Proof

/-- The conditions of EDIT.LOAD and EDIT.SWAP pass exactly where the stage has an inactive bank and may stage writes (R247, R438). -/
@[simp] theorem firstRefusal_editConds {s : State} {k : Nat} :
    firstRefusal (editConds s k) = none ↔ (s.stage k).state ≠ 3 ∧ s.noInactive k = false ∧ s.committing k = false := by
  simp [editConds]

/-- Words that all lie in the vendor region, or all in the stage's range, pass the range check of EDIT.READ (R246, R256). -/
theorem editReadRange_pass {first n : Nat} {e : EditSt} (h : first + n ≤ 6144 ∨ e.base ≤ first ∧ first + n ≤ e.base + e.count) :
    (decide (first + n ≤ 6144) || (decide (e.base ≤ first) && decide (first + n ≤ e.base + e.count))) = true := by
  simpa using h

/-- A valid image, written to every tile, goes to the stage's inactive bank (R252). -/
theorem execEditStaged_valid {k bank : Nat} {img : List Byte} {s : State} (hk : k ≤ 4) (hfirst : s.firstChecking k 3 = some img)
    (hvalid : editBad (s.edit k) img = none) (hbank : (s.edit k).inactive (s.hasRetiring k) = some bank) :
    execEditStaged k true s = .next ((s.popChecking k 3).stageEdit k bank img) := by
  refine onUnit_next.2 ⟨decide_eq_true hk, ?_⟩
  simp only [hfirst, hvalid, hbank]
  rfl

/-- An image that fails a check is rejected with its status and word, whether or not its writing went well (R252). -/
theorem execEditStaged_invalid {k st w : Nat} {img : List Byte} {written : Bool} {s : State} (hk : k ≤ 4)
    (hfirst : s.firstChecking k 3 = some img) (hbad : editBad (s.edit k) img = some (st, w)) :
    execEditStaged k written s = .next ((s.popChecking k 3).rejectEdit k st w) := by
  refine onUnit_next.2 ⟨decide_eq_true hk, ?_⟩
  simp only [hfirst, hbad]

/-- Where a dresser of its exit's tile is free, a packet that is not cut takes it as soon as its first cell is in staging (R227). -/
theorem execDresserAssign_free {id wait d : Nat} {p : Pkt} {s : State} (hp : s.pkt id = some p) (hfree : s.nextDresser p.egress = some d)
    (hphase : p.phase = .crossed) (harrived : 0 < p.arrived) (hwhole : p.cut = false) :
    execDresserAssign id wait s = .next (((((s.bumpN p.egress p.ctx.stage 0xB8 wait).onSw (fun w => { w with
      lastDresser := SMap.put 95 p.egress d w.lastDresser })).arr 8 p.egress d
        (4 + (s.edit p.ctx.stage).bankOf (s.isOld p.ctx.stage p.ctx.ver)) 1).onEg p.ctx.exit (fun g => { g with
          outOrder := g.outOrder ++ [id] })).onPkt id (fun q => { q with phase := .dresser, dresser := d })) := by
  simp only [execDresserAssign, hp, hfree]
  exact congrArg Host.Outcome.next (State.when_of (by simp [hphase, harrived, hwhole]))

/-- A program that ends within the head allowance of 12 cycles leaves its window to be sent, and is not counted EDIT_LONG (R232, R233). -/
theorem execEditProgram_ends {id wait corr ue : Nat} {p : Pkt} {r : Dr} {s : State} (hp : s.pkt id = some p) (hphase : p.phase = .dresser)
    (hexc : p.exc = 0) (hrun : s.runProgram p ue = (r, .fin)) (hcycles : r.cycles ≤ 12) :
    execEditProgram id wait corr ue s = .next ((s.countRun p wait corr r.cycles).onPkt id (fun q => { q with
      phase := .edited, out := r.win, cycles := r.cycles })) := by
  simp [execEditProgram, hp, hphase, hexc, hrun, Nat.not_lt.2 hcycles]

/-- A program that meets no uncorrectable word and ends with an exception is counted, and its exception is taken (R244). -/
theorem execEditProgram_excepts {id wait corr code sub : Nat} {p : Pkt} {r : Dr} {s : State} (hp : s.pkt id = some p)
    (hphase : p.phase = .dresser) (hexc : p.exc = 0) (hrun : s.runProgram p 0 = (r, .exc code sub)) :
    execEditProgram id wait corr 0 s = .next ((s.countRun p wait corr r.cycles).editException id p r.cycles code sub) := by
  simp [execEditProgram, hp, hphase, hexc, hrun]

end Sys2Proof.Machine

namespace Sys2Proof
open Sys2Proof.Machine

/-- Settles O22: each command's checks pass by the clause's conditions, and whether a version is retiring decides EDIT.STATUS's record; an image takes
the branch that its checks name, and a repair finds its damaged word. -/
theorem editGroupActs : Obligations.EditGroupActs := by
  refine ⟨?_, ?_, ?_, ?_, ?_, ?_, ?_, ?_, ?_⟩
  · exact loadCompletes_of editConds (fun _ _ => rfl) fun _ _ => firstRefusal_editConds.2
  · intro k bank img s hk hfirst hvalid hbank
    exact execEditStaged_valid hk hfirst hvalid hbank
  · intro k st w img written s hk hfirst hbad
    exact execEditStaged_invalid hk hfirst hbad
  · refine completes_of_checks _ _ (fun _ _ => rfl) ?_ (fun _ _ _ => rfl)
    rintro m s ⟨hlen, hopen⟩
    simpa [hlen] using hopen
  · refine completes_of_checks _ _ (fun _ _ => rfl) ?_ (fun _ _ _ => rfl)
    rintro m s ⟨hlen, hzero, hzeros, hversion, hsome, hmost, hrange, hlive⟩
    have hcount : m.u16 4 ≠ 0 := by omega
    simpa [hlen, hzero, hzeros, hversion, hcount, hmost, editReadRange_pass hrange, or_iff_not_imp_left] using hlive
  · intro r
    refine completes_of_checks _ _ (fun _ _ => rfl) ?_ ?_
    · rintro m s ⟨hlen, -⟩
      simp [hlen]
    · rintro m s ⟨-, hretiring⟩
      simp only [hretiring, Option.getD_some]
  · refine completes_of_checks _ _ (fun _ _ => rfl) ?_ ?_
    · rintro m s ⟨hlen, -⟩
      simp [hlen]
    · rintro m s ⟨-, hretiring⟩
      simp only [hretiring, Option.getD_none]
  · refine completes_of_checks _ _ (fun _ _ => rfl) ?_ (fun _ _ _ => rfl)
    rintro m s ⟨hlen, hk, hlive, hzero, hzeros, hbase, hcount, hlow, hhigh, hapart, hunused⟩
    rw [firstRefusal_eq_none, firstRefusal_eq_none, firstRefusal_eq_none]
    refine ⟨by simp [hlen], ?_, hunused, rfl⟩
    rw [hapart]
    simp [hk, hlive, hzero, hzeros, hbase, hcount, hlow, hhigh]
  · intro t bank w s ht hbank hw hbad
    exact onUnit_when_of (by simp [ht, hbank, hw]) hbad

/-- Settles O32: the packet is in the phase its row acts on; a program's end names the row's branch. -/
theorem dressersAct : Obligations.DressersAct := by
  refine ⟨?_, ?_, ?_, ?_, ?_⟩
  · intro id wait d p s hp hfree hphase harrived hwhole
    exact execDresserAssign_free hp hfree hphase harrived hwhole
  · intro id wait corr ue p r s hp hphase hexc hrun hcycles
    exact execEditProgram_ends hp hphase hexc hrun hcycles
  · intro id wait corr code sub p r s hp hphase hexc hrun
    exact execEditProgram_excepts hp hphase hexc hrun
  · intro id p s hp hphase holdest hcomplete
    change execHandOff id s = _
    simp only [execHandOff, hp]
    rw [State.when_of (by simpa [hphase, holdest] using hcomplete)]
  · intro id room p s hp hleaves
    change execTransmitFrame id room s = _
    simp only [execTransmitFrame, hp]
    rw [State.when_of hleaves]

end Sys2Proof
end

section
/-! SUPPORT. Laws of the rows of the crossbar and of the packet buffers; the statement on grants, cells, replication, re-entry and flushes, settled. -/
namespace Sys2Proof.Machine
open Sys2Proof

/-- An lport that is up and holds no frame chooses its queue once frames past their limit have gone, and grants that queue's head (R265). -/
theorem execEgressGrant_head {x wait c i id : Nat} {room : Bool} {p : Pkt} {s s1 s2 : State} (hx : x < 384) (hidle : (s.eg x).frame = none)
    (hup : (s.lport x).linkUp = true) (hkept : s1 = forEach (range 0 8) (fun c s => s.dropTooLong x c 64) s)
    (hchosen : s1.chooseQueue x = some (c, s2)) (hhead : s2.queueHead x c = some (i, id)) (hp : s2.pkt id = some p) :
    execEgressGrant x wait room s = .next (s2.grantHead x c i id p wait) := by
  have hlport : ¬(384 ≤ x ∧ (!room) = true) := fun h => Nat.not_le.2 hx h.1
  refine onUnit_next.2 ⟨by simp [hx], ?_⟩
  rw [if_neg (by simp [hidle, hup]), if_pos hx, ← hkept]
  simp only [if_neg hlport, hchosen, hhead, hp]

/-- A cell read without error is launched, unless it is the first of a frame for another stage's lport (R270). -/
theorem execCellLaunch_clean {id cell : Nat} {p : Pkt} {s : State} (hp : s.pkt id = some p) (hmay : s.mayLaunch id p = true) :
    execCellLaunch id 0 cell s = .next (
      if p.launched = 0 ∧ p.ctx.exit < 384 ∧ s.portStage (p.ctx.exit / 8) ≠ p.ctx.stage then s.stageRefuse id p else s.launchCell id p) := by
  simp [execCellLaunch, hp, hmay]

/-- A launched cell of a frame that is not cut reaches staging, whether or not it is the last (R263). -/
theorem execCellArrival_whole {id : Nat} {p : Pkt} {s : State} (hp : s.pkt id = some p) (hflying : p.arrived < p.launched) (hwhole : p.cut = false) :
    execCellArrival id s = .next (s.onPkt id (fun q => { q with
      arrived := q.arrived + 1, phase := (if q.phase == .granted then .crossed else q.phase) })) := by
  simp only [execCellArrival, hp]
  rw [State.when_of (decide_eq_true hflying), if_neg (by simp [hwhole])]

/-- A tile takes the multicast frame whose turn it is from its own die without a wait for the bridge, while its hold has room (R266, R272). -/
theorem execMulticastReplication_near {k wait c i id : Nat} {p : Pkt} {s : State} (hk : k < 8)
    (hturn : (range 0 8).reverse.findSome? (fun c => (s.mcHead k c).map (fun h => (c, h))) = some (c, i, id)) (hp : s.pkt id = some p)
    (hroom : s.holdUsed k + p.cells ≤ 8192) (hnear : dieOfTile p.tile = dieOfTile k) :
    execMulticastReplication k wait s = .next (((s.bumpN k p.ctx.stage 0xD0 0).onSw (fun w => { w with
      mcRot := SMap.put 39 (k * 8 + c) i w.mcRot })).takeMulticast k id p) := by
  have hbridge : (dieOfTile p.tile != dieOfTile k) = false := by simp [hnear]
  refine onUnit_next.2 ⟨decide_eq_true hk, ?_⟩
  simp only [hturn, hp]
  rw [State.when_of (decide_eq_true hroom), hbridge, if_neg Bool.false_ne_true]

/-- The oldest far frame of a VOQ, read without error, is queued again while the meter, the tile's reserve and the VOQ have room (R283, R284). -/
theorem execReentryRead_whole {key id : Nat} {p : Pkt} {s : State} (holdest : (s.voq key).find? s.farAt = some id) (hp : s.pkt id = some p)
    (hmeter : s.spillReadable p.ctx.stage (spillBytes p.ctx.len) = true) (hreserve : s.reentryUsed p.tile + p.cells ≤ 4096)
    (hvoq : s.voqReentry key + p.cells ≤ 64) (hverdict : p.verdict.isSome = true) (hwhole : p.damaged = false) :
    execReentryRead key none s = .next (((s.spillRead p.ctx.stage (spillBytes p.ctx.len)).onPkt id (fun q => { q with
      phase := .queued, reentered := true })).settleSpill p.ctx.stage key) := by
  simp only [execReentryRead, holdest, hp]
  rw [State.when_of (by simp [hmeter, hreserve, hvoq, hverdict]), if_neg (by simp [hwhole])]

end Sys2Proof.Machine

namespace Sys2Proof
open Sys2Proof.Machine

/-- Settles O31: each packet's row takes the branch its law names; a row of an lport, a tile or a cell finds its unit. -/
theorem crossbarActs : Obligations.CrossbarActs := by
  refine ⟨?_, ?_, ?_, ?_, ?_, ?_, ?_, ?_⟩
  · intro x wait c i id p s s1 s2 hx hidle hup hkept hchosen hhead hp
    exact execEgressGrant_head hx hidle hup hkept hchosen hhead hp
  · intro id cell p s hp hmay
    exact execCellLaunch_clean hp hmay
  · intro id p s hp hflying hwhole
    exact execCellArrival_whole hp hflying hwhole
  · intro k wait c i id p s hk hturn hp hroom hnear
    exact execMulticastReplication_near hk hturn hp hroom hnear
  · intro key id p s holdest hp hmeter hreserve hvoq hverdict hwhole
    exact execReentryRead_whole holdest hp hmeter hreserve hvoq hverdict hwhole
  · intro l s hl hdown
    exact onUnit_next.2 ⟨decide_eq_true hl, if_pos (by simp [hdown])⟩
  · intro t k s ht hk
    exact onUnit_next.2 ⟨by simp [ht, hk], rfl⟩
  · intro t cell s ht hcell
    have hunit : (decide (t < 8) && decide (cell < 262144)) = true := by simp [ht, hcell]
    -- The scrub's finding names the branch: good, corrected, uncorrectable.
    exact ⟨onUnit_next.2 ⟨hunit, rfl⟩, onUnit_next.2 ⟨hunit, rfl⟩, onUnit_next.2 ⟨hunit, rfl⟩⟩

end Sys2Proof
end

section
/-! SUPPORT. What reset leaves of queues, lports and mailboxes; the statements on the defaults of reset and on policers, queues and shapers, settled. -/
namespace Sys2Proof.Machine
open Sys2Proof

/-- At reset nothing is written to the sparse maps, so each unit reads as its kind's default. -/
@[simp] theorem State.reset_queue (l q : Nat) : State.reset.queue l q = queueReset q := rfl
@[simp] theorem State.reset_eg (l : Nat) : State.reset.eg l = Egress.reset := rfl
@[simp] theorem State.reset_mb (r : Nat) : State.reset.mb r = Mailbox.reset := rfl

/-- Queue 7 stands alone at level 3, the others at level 0 (R305). -/
theorem queueReset_level_seven : (queueReset 7).level = 3 := rfl
theorem queueReset_level_of_ne {q : Nat} (h : q ≠ 7) : (queueReset q).level = 0 := by
  rw [queueReset, if_neg h]
  rfl

/-- The level aside, every queue has one default: QUANTUM 6 and no shaper (R320). -/
theorem queueReset_quantum (q : Nat) : (queueReset q).quantum = 6 := by
  unfold queueReset
  split <;> rfl
theorem queueReset_shaper (q : Nat) : (queueReset q).shaper = Shaper.reset := by
  unfold queueReset
  split <;> rfl

/-- A policer's damaged word: its buckets become full, and report and event name the first live stage that owns the policer (R304). -/
theorem execPolicerRepair_owned {t pol k : Nat} {s : State} (ht : t < 8) (hpol : pol < 8192)
    (hk : s.liveStages.find? (fun k => s.ownsPolicer k pol) = some k) :
    execPolicerRepair t pol s = .next (((s.onBucket t pol (fun b => b.full (s.policerRec pol) s.localNs)).report
      (Report.of Fc.policerUe Lv.tile t k (1 * 1024 + 16 * t) 0 pol 0)).post k Ev.policerRepair Lv.tile t
        (leBytes 1 t ++ zeros 1 ++ leBytes 2 pol)) := by
  refine onUnit_next.2 ⟨by simp [ht, hpol], ?_⟩
  rw [hk]
  rfl

end Sys2Proof.Machine

namespace Sys2Proof
open Sys2Proof.Machine

/-- Settles O3: every queue, lport and mailbox reads as its kind's default; the rest are single fields of the reset state. -/
theorem resetDefaults : Obligations.ResetDefaults := by
  refine ⟨?_, ?_, ?_, ⟨rfl, rfl, rfl, rfl⟩, ⟨rfl, rfl, rfl⟩, ?_, rfl, rfl⟩
  · intro l
    simp only [State.reset_queue]
    exact ⟨queueReset_level_seven, fun q hq => queueReset_level_of_ne (Nat.ne_of_lt hq)⟩
  · intro l q
    rw [State.reset_queue, queueReset_quantum, queueReset_shaper]
    exact ⟨rfl, rfl⟩
  · intro l
    rw [State.reset_eg]
    exact ⟨rfl, rfl, rfl⟩
  · intro r
    rw [State.reset_mb]
    exact ⟨rfl, rfl⟩

/-- Settles O33: each command's checks pass by the clause's conditions, a record that is good and owned passing the check of its fields and that of
its owner; whether a sheet is pending decides the end of QUEUE.STATUS's record; a policer's word finds its stage, and a refill is due. -/
theorem queueGroupActs : Obligations.QueueGroupActs := by
  refine ⟨?_, ?_, ?_, ?_, ?_, ?_, ?_, ?_, ?_⟩
  · refine completes_of_checks _ _ (fun _ _ => rfl) ?_ (fun _ _ _ => rfl)
    rintro m s ⟨hsome, hwhole, hrecords⟩
    simpa [hsome, hwhole, imp_and, forall_and, and_assoc] using hrecords
  · refine completes_of_checks _ _ (fun _ _ => rfl) ?_ (fun _ _ _ => rfl)
    rintro m s ⟨hlen, hpol, hzero, howns⟩
    simp [hlen, hpol, hzero, howns]
  · refine completes_of_checks _ _ (fun _ _ => rfl) ?_ (fun _ _ _ => rfl)
    rintro m s ⟨hlen, hk, hlive, hzero, hzeros, hbase, hcount, hfits, hunnamed, hapart⟩
    rw [firstRefusal_eq_none, firstRefusal_eq_none, firstRefusal_eq_none]
    refine ⟨by simp [hlen], ?_, hunnamed, rfl⟩
    rw [hapart]
    simp [hk, hlive, hzero, hzeros, hbase, hcount, hfits]
  · refine completes_of_checks _ _ (fun _ _ => rfl) ?_ (fun _ _ _ => rfl)
    rintro m s ⟨hlen, hsource, hslot, hshift, hcolours⟩
    obtain hpay | ⟨hmeta, hlow, hhigh⟩ := hsource
    · simpa [hlen, hpay, hslot, hshift] using hcolours
    · have hwidth : m.u8 3 ≠ 0 := by omega
      simpa [hlen, hmeta, hwidth, hhigh, hslot, hshift] using hcolours
  · intro t pol k s ht hpol hk
    exact execPolicerRepair_owned ht hpol hk
  · refine completes_of_checks _ _ (fun _ _ => rfl) ?_ (fun _ _ _ => rfl)
    rintro m s ⟨hsome, hwhole, hrecords⟩
    simpa [hsome, hwhole, imp_and, forall_and, and_assoc] using hrecords
  · refine completes_of_checks _ _ (fun _ _ => rfl) ?_ (fun _ _ _ => rfl)
    rintro m s ⟨hsome, hwhole, hrecords⟩
    simpa [hsome, hwhole, imp_and, forall_and, and_assoc] using hrecords
  · intro l s hl hdue
    exact onUnit_when_of (decide_eq_true hl) (decide_eq_true hdue)
  · refine completes_of_checks _ _ (fun _ _ => rfl) ?_ ?_
    · rintro m s ⟨hlen, hl, hzero, howns⟩
      simp [hlen, hl, hzero, howns]
    · intro m s _
      cases hp : (s.eg (m.u16 0)).pending <;> rfl

end Sys2Proof
end

section
/-! SUPPORT. What every step and every command row does; the statements on the byte memories, the queue, the order of judging and the commands
that only read, settled. -/
namespace Sys2Proof.Machine
open Sys2Proof

/-- A command's meaning is a command row of its catalogue entry. -/
theorem exec_command {c : Instr} {o : Op} {m : Msg} (h : c.command = some (o, m)) :
    ∃ body : Msg → State → Answer, ∀ s, exec c s = commandRow o body m s := by
  cases c <;> cases h
  -- The events have no catalogue entry.
  all_goals exact ⟨_, fun _ => rfl⟩

/-- With the journal full a command is answered BUSY and nothing more (R371). -/
theorem commandRow_full {o : Op} {body : Msg → State → Answer} {m : Msg} {s : State} (hl : laneOk m.lane = true)
    (hs : s.ctl.noService = false) (hj : s.journalFull m = true) :
    commandRow o body m s = .next (s.putResponse m (responseOf o.code m s St.busy [])) := by
  simp [commandRow, runCommand, hl, hs, hj]

/-- An answer that only tells: a final status and a payload on the state as it stands, but for TABLE.READ's note of where a walk began. -/
def Answer.Tells (code : Nat) (s : State) (a : Answer) : Prop :=
  ∃ (st : Nat) (pay : List Byte) (w : SMap Nat), st ≠ St.accepted ∧ (code ≠ 0x0708 → w = s.tab.walks) ∧
    a = { state := s.onTab (fun t => { t with walks := w }), status := st, payload := pay, held := false }

theorem Answer.Tells.doneWith {code : Nat} {s : State} (pay : List Byte) : (doneWith pay s).Tells code s :=
  ⟨St.done, pay, s.tab.walks, by decide, fun _ => rfl, rfl⟩
theorem Answer.Tells.deny {code st : Nat} {s : State} (h : st ≠ St.accepted) : (deny st s).Tells code s :=
  ⟨st, [], s.tab.walks, h, fun _ => rfl, rfl⟩

/-- The status of a refusal is that of one of the checks. -/
theorem mem_of_firstRefusal {st : Nat} : ∀ {l : List (Bool × Nat)}, firstRefusal l = some st → ∃ c ∈ l, c.2 = st
  | [], h => by cases h
  | (true, x) :: l, h => ⟨(true, x), List.mem_cons_self, Option.some.inj h⟩
  | (false, x) :: l, h => by
    obtain ⟨c, hc, hst⟩ := mem_of_firstRefusal (l := l) h
    exact ⟨c, List.mem_cons_of_mem _ hc, hst⟩

/-- No check of these refuses with ACCEPTED. -/
abbrev FinalChecks (l : List (Bool × Nat)) : Prop := l.all (fun c => c.2 != St.accepted) = true

theorem ne_accepted_of_firstRefusal {st : Nat} {l : List (Bool × Nat)} (hl : FinalChecks l) (h : firstRefusal l = some st) :
    st ≠ St.accepted := by
  obtain ⟨c, hc, rfl⟩ := mem_of_firstRefusal h
  simpa using List.all_eq_true.1 hl c hc

/-- A refusal tells a status, and what is answered without one tells what it tells. -/
theorem Answer.Tells.orDeny {code : Nat} {s : State} {a : Answer} {checks : List (Bool × Nat)} (hc : FinalChecks checks) (ha : a.Tells code s) :
    (orDeny checks s a).Tells code s := by
  cases h : firstRefusal checks with
  | none => rwa [orDeny_none h]
  | some st => rw [orDeny_some h]; exact .deny (ne_accepted_of_firstRefusal hc h)

/-- Noting where a walk began changes the note alone. -/
theorem State.walkMoved_snd (s : State) (k kind t cursor : Nat) :
    ∃ w, (s.walkMoved k kind t cursor).2 = s.onTab (fun a => { a with walks := w }) := by
  unfold State.walkMoved
  split
  · exact ⟨_, rfl⟩
  · exact ⟨s.tab.walks, rfl⟩

/-- TABLE.READ tells records, or that it finds none; a walk at cursor 0 notes where it begins. -/
theorem bodyTableRead_tells (m : Msg) (s : State) : (bodyTableRead m s).Tells 0x0708 s := by
  refine .orDeny rfl ?_
  split
  · split
    · dsimp only
      obtain ⟨w, hw⟩ := s.walkMoved_snd (s.stageOf m) (m.u8 0) (m.u8 1) (m.u32 4)
      rw [hw]
      exact ⟨St.done, _, w, by decide, fun h => absurd rfl h, rfl⟩
    · exact .doneWith _
  · dsimp only
    split
    · exact .deny (by decide)
    · exact .doneWith _

/-- An image's READ tells a chunk of the image bound, or that there is none. -/
theorem bodyParseRead_tells (m : Msg) (s : State) (code : Nat) : (bodyParseRead m s).Tells code s := by
  unfold bodyParseRead
  split
  · next h => exact .deny (ne_accepted_of_firstRefusal rfl h)
  · dsimp only
    split
    · exact .deny (by decide)
    · exact .orDeny rfl (.doneWith _)

theorem bodyPatternRead_tells (m : Msg) (s : State) (code : Nat) : (bodyPatternRead m s).Tells code s := by
  unfold bodyPatternRead
  split
  · next h => exact .deny (ne_accepted_of_firstRefusal rfl h)
  · dsimp only
    split
    · exact .deny (by decide)
    · exact .orDeny rfl (.doneWith _)

/-- The meaning of a command of class R only tells; it has neither mark A nor mark E. -/
theorem exec_readCommand {c : Instr} {o : Op} {m : Msg} (h : c.command = some (o, m)) (hcls : o.cls = .read) :
    o.either = false ∧ ∃ body : Msg → State → Answer, (∀ s, exec c s = commandRow o body m s) ∧ ∀ s, (body m s).Tells o.code s := by
  cases c with
  | tableRead => cases h; exact ⟨rfl, _, fun _ => rfl, fun s => bodyTableRead_tells m s⟩
  | parseRead => cases h; exact ⟨rfl, _, fun _ => rfl, fun s => bodyParseRead_tells m s _⟩
  | patternRead => cases h; exact ⟨rfl, _, fun _ => rfl, fun s => bodyPatternRead_tells m s _⟩
  | sysPing | sysStatus | sysControlStatus | sysGet | sysAsyncStatus | modeStatus | stageStatus | portStatus | portHealth | moduleStatus
  | parseStatus | tableVstatus | ruleRead | patternStatus | editRead | editStatus | queuePolicerRead | queueStatus | bufferStatus | memStatus
  | timeStatus | powerStatus | faultStatus | recordStatus | lifeStatus | ringStatusCmd =>
    -- Checks, and then a record of the state.
    cases h
    exact ⟨rfl, _, fun _ => rfl, fun s => .orDeny rfl (.doneWith _)⟩
  | _ => cases h <;> cases hcls

/-- A command whose meaning only tells waits, is BUSY for want of journal room, or gives an answer that only tells. -/
theorem commandRow_tells {o : Op} {body : Msg → State → Answer} {m : Msg} {s t : State} (heither : o.either = false)
    (hbody : ∀ s, (body m s).Tells o.code s) (h : commandRow o body m s = .next t) :
    t = s ∨ t = s.putResponse m (responseOf o.code m s St.busy []) ∨ ∃ a : Answer, a.Tells o.code (s.intake o m) ∧ t = respond o.code m a := by
  obtain ⟨-, rfl⟩ := onUnit_next.1 h
  unfold runCommand
  split
  · exact .inl rfl
  · split
    · exact .inr (.inl rfl)
    · refine .inr (.inr ?_)
      dsimp only
      split
      · next hst => exact ⟨_, .deny (ne_accepted_of_firstRefusal rfl hst), rfl⟩
      · refine ⟨_, ?_, respondEither_plain _ (.inl heither)⟩
        unfold withoutDram
        split
        · exact .deny (by decide)
        · exact hbody _

end Sys2Proof.Machine

namespace Sys2Proof
open Sys2Proof.Machine

/-- Settles O5: the queue is no part of the memories, so a command's step and a tick keep their form as `exec` and `tick` do. -/
theorem everyStepKeepsMemoryCanonical : Obligations.EveryStepKeepsMemoryCanonical := by
  intro s t hs ht
  cases hq : s.pending with
  | nil =>
    rw [step_nil hq] at ht
    cases ht
    exact (tick_keeps s).mem hs
  | cons c rest =>
    rw [step_cons hq] at ht
    exact (exec_keeps c _ t ht).mem hs

/-- Settles O7: both are parts of what every command and event keeps. -/
theorem commandsLeaveTheQueueAndTheClock : Obligations.CommandsLeaveTheQueueAndTheClock := fun c s t ht =>
  ⟨(exec_keeps c s t ht).pending, (exec_keeps c s t ht).now⟩

/-- Settles O59: every command is a command row, and a row judges before its meaning acts. -/
theorem commandsAreJudgedFirst : Obligations.CommandsAreJudgedFirst := by
  intro c o m s h
  obtain ⟨body, hrow⟩ := exec_command h
  rw [hrow]
  exact ⟨commandRow_noLane, commandRow_waits, commandRow_full, fun _ => commandRow_refused⟩

/-- Settles O60: the row of a command of class R waits, answers BUSY or tells. -/
theorem readCommandsOnlyAnswer : Obligations.ReadCommandsOnlyAnswer := by
  intro c o m s t h hcls ht
  obtain ⟨heither, body, hrow, htells⟩ := exec_readCommand h hcls
  rw [hrow] at ht
  obtain hwaits | hbusy | ⟨a, ⟨st, pay, w, hst, hw, rfl⟩, hans⟩ := commandRow_tells heither htells ht
  · exact .inl hwaits
  · exact .inr (.inl hbusy)
  · exact .inr (.inr ⟨st, pay, w, hst, hw, hans⟩)

end Sys2Proof
end

section
/-! SUPPORT. The shape of the commands that only return a record; the statements on the SYS and MODE reads, on firmware and mode events, on external
memory's commands and on the POWER and IDENTITY groups, settled. -/
namespace Sys2Proof.Machine
open Sys2Proof

/-- The dividers of a DRAM clock are 3 to 6 (R341). -/
theorem dividerOk_of {d : Nat} (hlow : 3 ≤ d) (hhigh : d ≤ 6) : dividerOk d = true := by
  simp [dividerOk, hlow, hhigh]

/-- Numbers that are all at most n contain none above it. -/
theorem any_above_of_all {ps : List Nat} {n : Nat} (h : ps.all (fun p => decide (p ≤ n)) = true) : ps.any (fun p => decide (n < p)) = false := by
  simpa using h

end Sys2Proof.Machine

namespace Sys2Proof
open Sys2Proof.Machine

/-- A command that takes no payload and returns a record of the state completes with that record. -/
theorem completes_record {o : Op} {row : Msg → Instr} (pay : Msg → State → List Byte)
    (hrow : ∀ m s, exec (row m) s = commandRow o (fun m s => orDeny [(m.plen != 0, St.badLength)] s (doneWith (pay m s) s)) m s) :
    Completes o row (fun m _ => m.plen = 0) (fun m s => doneWith (pay m s) s) :=
  completes_of_checks _ _ hrow (fun _ _ hlen => by simp [hlen]) (fun _ _ _ => rfl)

/-- Settles O9: a ping is short enough for its lane, and SYS.GET's records are good and allowed; the others return their records. -/
theorem sysReadsAnswer : Obligations.SysReadsAnswer := by
  refine ⟨?_, completes_record _ (fun _ _ => rfl), completes_record _ (fun _ _ => rfl), completes_record _ (fun _ _ => rfl), ?_,
    completes_record _ (fun _ _ => rfl)⟩
  · refine completes_of_checks _ _ (fun _ _ => rfl) ?_ (fun _ _ _ => rfl)
    intro m s hlen
    simp [hlen]
  · refine completes_of_checks _ _ (fun _ _ => rfl) ?_ (fun _ _ _ => rfl)
    rintro m s ⟨hsome, hwhole, hmost, hrecords⟩
    simpa [hsome, hwhole, hmost, imp_and, forall_and] using hrecords

/-- Settles O11: what firmware checks, activates, plans or makes is there, and how it ended decides the branch. -/
theorem firmwareAndModeEventsAct : Obligations.FirmwareAndModeEventsAct := by
  refine ⟨?_, ?_, ?_, ?_, ?_⟩
  · intro v o h ms bytes rest s hchecking hasked hgood
    refine congrArg Host.Outcome.next ?_
    simp only [hchecking, hasked, hgood, if_true]
  · intro s a img hact hstaged
    refine ⟨_, congrArg Host.Outcome.next ?_, rfl⟩
    simp only [hact, hstaged]
  · intro s a hact
    refine ⟨congrArg Host.Outcome.next ?_, fun hlate => congrArg Host.Outcome.next ?_⟩
    · simp [hact, State.failActivation]
    · simp [hact, hlate, State.failActivation]
  · intro s p d hplan hset hdue
    refine congrArg Host.Outcome.next ?_
    simp only [hplan, hset, if_pos hdue]
  · intro s x htransition
    refine congrArg Host.Outcome.next ?_
    simp only [htransition]

/-- Settles O36: each command's checks pass by the clause's conditions: a share that takes no more bandwidth is not overcommitted, and a
populated rank of a running channel is found. -/
theorem memGroupActs : Obligations.MemGroupActs := by
  refine ⟨?_, ?_, ?_, ?_, ?_, ?_, ?_⟩
  · refine completes_of_checks _ _ (fun _ _ => rfl) ?_ (fun _ _ _ => rfl)
    rintro m s ⟨hlen, hrun, horder, hlean, hfloor, hfloor', hmode, hbest, heff1, heff1', heff2, heff2', hzero, hretrain, hretrain', hlimit, hlimit',
      hhouse, hreserved⟩
    have hsome : m.u16 10 ≠ 0 := by omega
    rw [firstRefusal_eq_none, firstRefusal_eq_none, firstRefusal_eq_none, firstRefusal_eq_none]
    refine ⟨by simp [hlen], ?_, hhouse, hreserved, rfl⟩
    simp [dividerOk_of hrun (horder.trans hlean), dividerOk_of (hrun.trans horder) hlean, dividerOk_of hfloor hfloor', hmode, hbest, horder, heff1,
      heff1', heff2, heff2', hzero, hretrain, hretrain', hsome, hlimit']
  · intro x y z
    refine completes_of_checks _ _ (fun _ _ => rfl) ?_ ?_
    · rintro m s ⟨hlen, hlow, hhigh, height, hspill, hflow, hcapture, hfits, hspills, hflows, hcaptures, -⟩
      simp [hlen, hlow, hhigh, height, hspill, hflow, hcapture, hfits, hspills, hflows, hcaptures]
    · rintro m s ⟨-, -, -, -, -, -, -, -, -, -, -, rfl, rfl, rfl⟩
      rfl
  · refine completes_of_checks _ _ (fun _ _ => rfl) ?_ (fun _ _ _ => rfl)
    rintro m s ⟨hlen, hk, hlive, hlow, hhigh, hzero, hfits, hbw⟩
    simpa [hlen, hk, hlive, hhigh, hzero, hfits, Nat.not_lt.2 hbw] using Nat.lt_of_succ_le hlow
  · refine completes_of_checks _ _ (fun _ _ => rfl) ?_ (fun _ _ _ => rfl)
    rintro m s ⟨hlen, hlow, hhigh, hbest, hzero, hlimit, hlean⟩
    simp [hlen, dividerOk_of hlow hhigh, hbest, hzero, hlimit, hlean]
  · intro d
    refine completes_of_checks _ _ (fun _ _ => rfl) ?_ ?_
    · rintro m s ⟨hlen, hc, hdevice, hkind, hlimit, hruns, hdimm, hrank, -⟩
      have hchannel : m.u8 0 < 8 := by omega
      simp [hlen, hc, hdevice, hkind, hlimit, hruns, hdimm, hrank, hchannel]
    · rintro m s ⟨-, -, -, -, -, -, -, -, hext⟩
      simp only [hext]
      rfl
  · refine completes_of_checks _ _ (fun _ _ => rfl) ?_ ?_
    · rintro m s ⟨hlen, -⟩
      simp [hlen]
    · rintro m s ⟨-, hside⟩
      exact congrArg (doneWith · s) (if_neg hside)
  · refine completes_of_checks _ _ (fun _ _ => rfl) ?_ ?_
    · rintro m s ⟨hlen, -⟩
      simp [hlen]
    · rintro m s ⟨-, howner⟩
      exact congrArg (doneWith · s) (if_pos howner)

/-- Settles O41: each command's checks pass by the clause's conditions. -/
theorem powerAndIdentityGroupsAct : Obligations.PowerAndIdentityGroupsAct := by
  refine ⟨completes_record _ (fun _ _ => rfl), ?_, ?_, ?_, completes_record _ (fun _ _ => rfl), ?_, ?_, ?_⟩
  · refine completes_of_checks _ _ (fun _ _ => rfl) ?_ (fun _ _ _ => rfl)
    rintro m s ⟨hlen, hlow, hhigh, hreserve⟩
    simp [hlen, hlow, hhigh, hreserve]
  · intro ps
    refine completes_of_checks _ _ (fun _ _ => rfl) ?_ ?_
    · rintro m s ⟨-, hlen, hmost, hzero, rfl, hports, hapart⟩
      rw [firstRefusal_eq_none, firstRefusal_eq_none]
      refine ⟨?_, ?_, rfl⟩
      · simp [hlen]
      · rw [any_above_of_all hports, decide_eq_true hapart]
        simp [hmost, hzero]
    · rintro m s ⟨-, -, -, -, rfl, -, -⟩
      rfl
  · refine completes_of_checks _ _ (fun _ _ => rfl) ?_ (fun _ _ _ => rfl)
    rintro m s ⟨hlen, hd, hwarn, hwarn', horder, hlow, hhigh⟩
    simp [hlen, hd, hwarn, hwarn', horder, hlow, hhigh]
  · refine completes_of_checks _ _ (fun _ _ => rfl) ?_ (fun _ _ _ => rfl)
    rintro m s ⟨hlow, hhigh⟩
    simp [hlow, hhigh]
  · refine completes_of_checks _ _ (fun _ _ => rfl) ?_ (fun _ _ _ => rfl)
    rintro m s ⟨hlen, hroom⟩
    simp [hlen, hroom]
  · refine completes_of_checks _ _ (fun _ _ => rfl) ?_ (fun _ _ _ => rfl)
    rintro m s ⟨hlen, hroot, hservice⟩
    simp [hlen, hroot, hservice]

end Sys2Proof
end

section
/-! SUPPORT. What matters of a change of one unit; laws of threads, takeovers and doorbells; the statements on threads and start-up, on takeovers and on
mailboxes, the SMBus path and the host path's resets, settled. -/
namespace Sys2Proof
open Sys2Proof.Machine

/-- Only what a change makes of the value at its key matters. -/
theorem SMap.upd_congr {α : Type} [DecidableEq α] {d : α} {k : Nat} {f g : α → α} {m : SMap α} (h : f (SMap.get d k m) = g (SMap.get d k m)) :
    SMap.upd d k f m = SMap.upd d k g m := by
  simp only [SMap.upd, h]

namespace Machine

/-- Only what a change makes of the control complexes as they stand matters. -/
theorem State.onCtl_congr {s : State} {f g : ControlSt → ControlSt} (h : f s.ctl = g s.ctl) : s.onCtl f = s.onCtl g := by
  simp only [State.onCtl, h]

/-- Only what a change makes of the thread as it stands matters. -/
theorem State.onThread_congr {s : State} {i : Nat} {f g : Thread → Thread} (h : f (s.thread i) = g (s.thread i)) :
    s.onThread i f = s.onThread i g :=
  State.onCtl_congr (by rw [SMap.upd_congr (f := f) (g := g) h])

/-- A ready understudy takes over from a lead that loses its place, adopting first the generation that is sealed and good (R373). -/
theorem State.loseLead_ready {s : State} (hserved : s.ctl.noService = false) (hready : s.ctl.understudy = 0) :
    s.loseLead = (s.onCtl (fun c => if c.sealValid then ({ c with adopted := c.sealed }).freeJournal c.sealed else c)).flipLead.takeUp := by
  simp [State.loseLead, hserved, hready]

/-- Without a ready understudy no complex serves the device (R375). -/
theorem State.loseLead_unready {s : State} (hserved : s.ctl.noService = false) (hunready : s.ctl.understudy ≠ 0) :
    s.loseLead = s.controlLostNow := by
  simp [State.loseLead, hserved, hunready]

/-- A doorbell's value carries SEQ in its upper and LEN in its lower half (R384). -/
theorem doorbell_seq {seq len : Nat} (hseq : seq < 65536) (hlen : len < 65536) : (seq * 65536 + len) / 65536 % 65536 = seq := by omega
theorem doorbell_len {seq len : Nat} (hlen : len < 65536) : (seq * 65536 + len) % 65536 = len := by omega

end Machine

/-- Settles O52: the thread exists and is in the state that its clause gives; at start-up the pick of each image decides how far it comes. -/
theorem threadsAct : Obligations.ThreadsAct := by
  refine ⟨?_, ?_, ?_, ?_, ?_, ?_, ?_, ?_⟩
  · intro i s hi hruns hfree
    refine (onUnit_when_of (decide_eq_true hi) (by simp [hruns])).trans (congrArg Host.Outcome.next (State.onThread_congr ?_))
    simp [hfree]
  · intro i s hi hruns hfull hroom
    refine (onUnit_when_of (decide_eq_true hi) (by simp [hruns])).trans (congrArg Host.Outcome.next (State.onThread_congr ?_))
    simp [hfull, hroom]
  · intro i s hi hruns hcached
    refine (onUnit_when_of (decide_eq_true hi) (by simp [hruns])).trans (congrArg Host.Outcome.next (State.onThread_congr ?_))
    simp [hcached]
  · intro i s hi hruns hidle
    refine (onUnit_when_of (decide_eq_true hi) (by simp [hruns])).trans ?_
    simp only [hidle]
  · intro i reason s hi hhalted
    refine onUnit_next.2 ⟨decide_eq_true hi, State.onThread_congr ?_⟩
    simp [hhalted]
  · intro i address s hi hservice
    exact onUnit_when_of (decide_eq_true hi) (by simpa using hservice)
  · rintro b root service s s0 hload hboots hlive rfl hroot hservice
    refine congrArg Host.Outcome.next ((State.when_of (by simp [hload, hboots, hlive])).trans ?_)
    simp only [hroot, hservice]
  · rintro b s s0 hload hboots hlive rfl hroot
    refine congrArg Host.Outcome.next ((State.when_of (by simp [hload, hboots, hlive])).trans ?_)
    simp only [hroot]

/-- Settles O53: each row finds the complexes in the state that its clause gives, and what became of a check, a self-test or an attempt decides the
branch. -/
theorem takeoverActs : Obligations.TakeoverActs := by
  refine ⟨?_, ?_, ?_, ?_, ?_, ?_, ?_, ?_, ?_, ?_⟩
  · intro s hserved hkeepsUp
    refine congrArg Host.Outcome.next ?_
    simp [hserved, hkeepsUp]
  · intro s hready hvalid hserved
    have hadopts : (s.ctl.understudy == 0 && s.ctl.sealValid && !s.ctl.noService) = true := by simp [hready, hvalid, hserved]
    exact ⟨congrArg Host.Outcome.next (State.when_of hadopts), congrArg Host.Outcome.next (State.when_of hadopts)⟩
  · intro s hlead hserved
    exact onUnit_next.2 ⟨decide_eq_true hlead, if_pos (by simp [hserved])⟩
  · intro x s hx hother
    exact onUnit_next.2 ⟨decide_eq_true hx, if_neg (by simp [hother])⟩
  · intro s hserved hmode hmissed
    exact congrArg Host.Outcome.next (State.when_of (by simp [hserved, hmode, hmissed]))
  · intro s hmode hserved hready hnone
    refine congrArg Host.Outcome.next ((State.when_of (decide_eq_true hmode)).trans ((State.loseLead_ready hserved hready).trans ?_))
    exact congrArg (fun t : State => t.flipLead.takeUp) (State.onCtl_congr (g := id) (by simp [hnone]))
  · intro s hmode hserved hready hsealed
    refine congrArg Host.Outcome.next ((State.when_of (decide_eq_true hmode)).trans ((State.loseLead_ready hserved hready).trans ?_))
    exact congrArg (fun t : State => t.flipLead.takeUp) (State.onCtl_congr (if_pos hsealed))
  · intro s hmode hserved hunready
    exact congrArg Host.Outcome.next ((State.when_of (decide_eq_true hmode)).trans (State.loseLead_unready hserved hunready))
  · intro s hreset hserved
    have htests : (s.ctl.understudy == 1 && !s.ctl.noService) = true := by simp [hreset, hserved]
    exact ⟨congrArg Host.Outcome.next (State.when_of htests), congrArg Host.Outcome.next (State.when_of htests)⟩
  · intro s hlost hfirst hdue
    have htries : (s.ctl.noService && decide (s.ctl.attempts < 6) &&
        decide (s.ctl.attemptAt + (if s.ctl.attempts = 0 then 0 else tkS 2) ≤ s.now)) = true := by simp [hlost, hfirst, hdue]
    refine ⟨congrArg Host.Outcome.next ((State.when_of htries).trans ?_), congrArg Host.Outcome.next (State.when_of htries)⟩
    simp [hfirst]

/-- Settles O48: the mailbox exists, and what waits in it, which area is free and whether the event ring has room decide the branch; a doorbell's value
is its SEQ and its LEN. -/
theorem mailboxesAct : Obligations.MailboxesAct := by
  refine ⟨?_, ?_, ?_, ?_, ?_, ?_, ?_, ?_, ?_, ?_, ?_⟩
  · intro r x rest ext s hr hopen hintake hvisible
    refine (onUnit_when_of (decide_eq_true hr) hopen).trans (congrArg Host.Outcome.next ?_)
    simp only [State.takeFrom, hintake]
    exact State.when_of (decide_eq_true hvisible)
  · intro r x rest s hr hwaits hfree
    refine onUnit_next.2 ⟨decide_eq_true hr, ?_⟩
    simp [State.deliver, hwaits, hfree]
  · intro r x rest s hr hwaits hfree
    refine onUnit_next.2 ⟨decide_eq_true hr, ?_⟩
    simp [State.deliver, hwaits, hfree]
  · intro r e rest s hr hroom hnone hposted
    refine onUnit_next.2 ⟨decide_eq_true hr, ?_⟩
    simp [State.eventStep, hroom, hnone, hposted]
  · intro r s hr hroom hdropped
    refine onUnit_next.2 ⟨decide_eq_true hr, ?_⟩
    simp [State.eventStep, hroom, hdropped]
  · intro r e s hr hfull holdest
    refine onUnit_next.2 ⟨decide_eq_true hr, ?_⟩
    simp [State.eventStep, hfull, holdest]
  · intro r seq len copy s hr hseq hlen htaken
    refine onUnit_next.2 ⟨decide_eq_true hr, ?_⟩
    simp only [State.ringDoorbell, doorbell_seq hseq hlen, doorbell_len hlen, htaken]
    rfl
  · intro r seq len copy c s hr hseq hlen hrefused
    refine onUnit_next.2 ⟨decide_eq_true hr, ?_⟩
    simp only [State.ringDoorbell, doorbell_seq hseq hlen, doorbell_len hlen, hrefused]
  · intro r seq len copy s hr hseq hlen htaken
    refine onUnit_next.2 ⟨decide_eq_true hr, ?_⟩
    simp only [State.ringUdoorbell, doorbell_seq hseq hlen, doorbell_len hlen, htaken]
    rfl
  · intro r value s hr
    exact ⟨onUnit_next.2 ⟨decide_eq_true hr, rfl⟩, onUnit_next.2 ⟨decide_eq_true hr, rfl⟩, onUnit_next.2 ⟨decide_eq_true hr, rfl⟩⟩
  · intro v t s hv hfirst hdue
    refine onUnit_when_of (decide_eq_true hv) ?_
    rw [hfirst]
    exact decide_eq_true hdue

/-- Settles O49: a block's length is 1 to 32; a wrong PEC, and the state of PERST_N and of the link, decide the branch. -/
theorem smbusAndHostResetsAct : Obligations.SmbusAndHostResetsAct := by
  refine ⟨?_, ?_, fun _ => rfl, fun _ => ⟨rfl, rfl⟩, fun _ => ⟨rfl, rfl⟩, ?_⟩
  · intro offset copy n data s hsome hmost hlow hhigh
    refine ⟨rfl, congrArg Host.Outcome.next (State.when_of ?_), congrArg Host.Outcome.next (State.when_of ?_)⟩
    · simp [hsome, hmost]
    · simp [hlow, hhigh]
  · intro offset copy n data s
    exact ⟨rfl, rfl, rfl⟩
  · intro s hperst hdown hunreported
    refine congrArg Host.Outcome.next ?_
    simp [hperst, hdown, hunreported]

end Sys2Proof
end

section
/-! SUPPORT. A fragment of a bulk transfer; the statements on descriptor rings and the RING group, settled. -/
namespace Sys2Proof.Machine
open Sys2Proof

/-- Without a buffer for its fragment the oldest posted entry of a DUMP pair completes with NO_POOL (R401). -/
theorem State.dumpFill_noPool {s : State} {p : Nat} {d : DumpJob} {it : Item} {dmaOk cqOk : Bool}
    (hd : s.host.dumps.find? (fun d => d.pair == p) = some d) (hit : (s.ring p).firstIn .waiting = some it)
    (hnone : s.allocBuffer p (s.ring p).stage (fieldLE it.entry 8 4) = none) :
    s.dumpFill p dmaOk cqOk = s.completeItem p it (Comp.of Rc.noPool) cqOk := by
  simp only [State.dumpFill, hd, hit, hnone]

/-- A fragment that is not the transfer's last fills its buffer and leaves the rest to the next one (R401). -/
theorem State.dumpFill_fragment {s s1 : State} {p key : Nat} {d : DumpJob} {it : Item} {cqOk : Bool}
    (hd : s.host.dumps.find? (fun d => d.pair == p) = some d) (hit : (s.ring p).firstIn .waiting = some it)
    (hbuffer : s.allocBuffer p (s.ring p).stage (fieldLE it.entry 8 4) = some (key, s1)) (hmore : fieldLE it.entry 8 4 < d.left.length) :
    s.dumpFill p true cqOk = ((((s1.setItem p it { it with buffer := some key }).hostWrite (fieldLE it.entry 0 8)
      (d.left.take (fieldLE it.entry 8 4))).moved p (fieldLE it.entry 8 4)).onHost (fun h => { h with
        dumps := h.dumps.map (fun (x : DumpJob) =>
          if x = d then { d with left := d.left.drop (fieldLE it.entry 8 4), fragment := d.fragment + 1 } else x) })).completeItem p
            { it with buffer := some key } { code := Rc.ok, b3 := 0, w4 := fieldLE it.entry 8 4, w8 := d.tag, w12 := d.fragment } cqOk := by
  have hlength : (d.left.take (fieldLE it.entry 8 4)).length = fieldLE it.entry 8 4 := List.length_take_of_le hmore.le
  have hrest : (d.left.drop (fieldLE it.entry 8 4)).isEmpty = false := by
    rw [List.isEmpty_eq_false_iff, ne_eq, List.drop_eq_nil_iff]
    exact Nat.not_le.2 hmore
  simp [State.dumpFill, hd, hit, hbuffer, hlength, hrest, flagNat]

end Sys2Proof.Machine

namespace Sys2Proof
open Sys2Proof.Machine

/-- Settles O50: the ring pair exists and its row finds it in the state that its clause gives; with nothing published or unstarted a flush only begins
or ends. -/
theorem ringEventsAct : Obligations.RingEventsAct := by
  refine ⟨?_, ?_, ?_, ?_, ?_, ?_, ?_, ?_, ?_, ?_, ?_⟩
  · intro p s hp hoff hassigned hlow hhigh hmode hfree
    refine onUnit_next.2 ⟨decide_eq_true hp, ?_⟩
    simp [State.enableRing, hoff, hassigned, hlow, hhigh, hmode, hfree]
  · intro p s hp hoff hunassigned hmode
    refine onUnit_next.2 ⟨decide_eq_true hp, ?_⟩
    simp [State.enableRing, hoff, hunassigned, Nat.not_lt.2 hmode]
  · intro p s hp
    exact onUnit_next.2 ⟨decide_eq_true hp, rfl⟩
  · intro p cqOk s hp hidle hon hgood hnone
    refine onUnit_next.2 ⟨decide_eq_true hp, ?_⟩
    simp [State.flushRing, hidle, hon, hgood, hnone]
  · intro p P entries fetchOk cqOk s hp hflush hfetched hcons hitems
    refine onUnit_next.2 ⟨decide_eq_true hp, ?_⟩
    simp [hflush, hfetched, hcons, hitems]
  · intro p entries cqOk s hp hon hruns hdue hsome
    have hpolls : ((s.ring p).enable && (s.ring p).state == 1 && decide ((s.ring p).nextPoll ≤ s.now)) = true := by simp [hon, hruns, hdue]
    refine ⟨(onUnit_when_of (decide_eq_true hp) hpolls).trans ?_, (onUnit_when_of (decide_eq_true hp) hpolls).trans ?_⟩
    · simp [Nat.ne_of_gt hsome]
    · simp [Nat.ne_of_gt hsome]
  · intro p it bytes dmaOk cqOk s hp hkind hruns hnone hheld hfetched hit
    refine (onUnit_when_of (decide_eq_true hp) (by simp [hkind, hruns])).trans ?_
    simp [hnone, hheld, hfetched, hit, hruns]
  · intro p r it bytes dmaOk cqOk s hp hkind hruns hanswer hheld
    refine (onUnit_when_of (decide_eq_true hp) (by simp [hkind, hruns])).trans ?_
    simp only [hanswer, hheld]
  · intro p d it cqOk s hp hkind hruns hd hit hnone
    exact (onUnit_when_of (decide_eq_true hp) (by simp [hkind, hruns])).trans (congrArg Host.Outcome.next (State.dumpFill_noPool hd hit hnone))
  · intro p d it key cqOk s s1 hp hkind hruns hd hit hbuffer hmore
    exact (onUnit_when_of (decide_eq_true hp) (by simp [hkind, hruns])).trans
      (congrArg Host.Outcome.next (State.dumpFill_fragment hd hit hbuffer hmore))
  · intro cqOk s
    rfl

/-- Settles O51: each command's checks pass by the clause's conditions. -/
theorem ringGroupActs : Obligations.RingGroupActs := by
  refine ⟨?_, ?_, ?_, ?_, ?_, completes_record _ (fun _ _ => rfl)⟩
  · refine completes_of_checks _ _ (fun _ _ => rfl) ?_ (fun _ _ _ => rfl)
    rintro m s ⟨hlen, hp, hk, hlive, hkind, hq, hpunt, hpeers, hoff, hdisabled⟩
    have hqueue : m.u8 2 ≠ 1 → m.u8 3 = 0 := hpunt.resolve_left
    simp only [firstRefusal_eq_none]
    refine ⟨by simp [hlen], ?_, by simp [hoff, hdisabled], rfl⟩
    rw [decide_eq_false (Nat.not_le.2 hpeers)]
    simpa [hp, hk, hlive, hkind, hq] using hqueue
  · refine completes_of_checks _ _ (fun _ _ => rfl) ?_ (fun _ _ _ => rfl)
    rintro m s ⟨hlen, h0, h1, h2, h3, hfits⟩
    simp only [firstRefusal_eq_none]
    exact ⟨by simp [hlen], by simp [h0, h1, h2, h3], decide_eq_false (Nat.not_lt.2 hfits), rfl⟩
  · refine completes_of_checks _ _ (fun _ _ => rfl) ?_ (fun _ _ _ => rfl)
    rintro m s ⟨hlen, hside, hk, hzero, hlive, hfits, hheld, howner⟩
    have hsides : m.u8 0 ≠ 0 := by omega
    simp only [firstRefusal_eq_none]
    refine ⟨by simp [hlen], by simp [hsides, hk, hzero, hlive], decide_eq_false (Nat.not_lt.2 hfits), ?_, rfl⟩
    rw [decide_eq_false (Nat.not_lt.2 hheld), decide_eq_false (Nat.not_lt.2 howner)]
    rfl
  · refine completes_of_checks _ _ (fun _ _ => rfl) ?_ (fun _ _ _ => rfl)
    rintro m s ⟨hlen, ho, hzero, hcap, hwarn, hwarn', horder, hreclaim, howns⟩
    simp [hlen, ho, hzero, hcap, hwarn, hwarn', horder, hreclaim, howns]
  · intro b
    refine completes_of_checks _ _ (fun _ _ => rfl) ?_ (fun _ _ _ => rfl)
    rintro m s ⟨hlen, hb, hgen, hstage, hretained⟩
    simp [hlen, hb, hgen, hstage, hretained]

end Sys2Proof
end

section
/-! SUPPORT. Laws of the dissolution of a stage, of FAULT.ACK and of the injectors; the statements on the STAGE group, the fault collector and the
FAULT group, settled. -/
namespace Sys2Proof.Machine
open Sys2Proof

/-- A stage that is being dissolved and holds no packet is dissolved, whether or not the wait for its packets is over (R439). -/
theorem execStageDissolved_empty {k : Nat} {s : State} (hlow : 1 ≤ k) (hhigh : k ≤ 4) (hstate : (s.stage k).state = 4) (hnone : s.stageHeld k = []) :
    execStageDissolved k s = .next (s.endDissolve k) := by
  refine (onUnit_when_of (by simp [hlow, hhigh]) (by simp [hstate])).trans ?_
  simp [hnone]

/-- ACK alone acknowledges the SEQ it names (R464). -/
theorem bodyFaultAck_ack {m : Msg} {s : State} (hlen : m.plen = 4) (hact : m.u8 2 = 1) (hzero : m.zero 3 1 = true)
    (htaken : (ackBySeq s (s.stageOf m) (m.u16 0)).1 = St.done) : bodyFaultAck m s = done (ackBySeq s (s.stageOf m) (m.u16 0)).2 := by
  have hack : bitOf 1 0 = true := rfl
  have hclear : bitOf 1 1 = false := rfl
  have hrestore : bitOf 1 2 = false := rfl
  refine (orDeny_none ?_).trans ?_
  · simp [hlen, hact, hzero, hclear, hrestore]
  · simp [hact, hack, hclear, hrestore, htaken]

/-- An access that a checker-0x42 injector corrupts reports nothing; while more are left it is counted down (R463). -/
theorem execInjectorConsumed_silent {i w level unit stage master access address n : Nat} {s : State} (hi : i < 16)
    (hclass : (Fc.severity w).isSome = true) (harmed : (s.injector i).state = 1) (hchecker : fieldLE (s.injector i).cfg 1 1 = 0x42)
    (hleft : (s.injector i).remaining = n + 2) :
    execInjectorConsumed i w level unit stage master access address s =
      .next (s.putInjector i { s.injector i with state := 1, remaining := n + 1 }) := by
  refine onUnit_next.2 ⟨by simp [hi, hclass], ?_⟩
  simp [harmed, hchecker, hleft]

end Sys2Proof.Machine

namespace Sys2Proof
open Sys2Proof.Machine

/-- Settles O12: the checks of each command pass by the clause's conditions, and an event finds its side stage in the state it ends. -/
theorem stageCommandsAct : Obligations.StageCommandsAct := by
  refine ⟨?_, ?_, ?_, ?_, ?_, ?_, completes_record _ (fun _ _ => rfl)⟩
  · refine completes_of_checks _ _ (fun _ _ => rfl) ?_ (fun _ _ _ => rfl)
    rintro m s ⟨hlen, hgood, hown, hlimit, habsent, hfree, hroom⟩
    simp [hlen, hgood, hown, hlimit, habsent, hfree, hroom]
  · intro k s hlow hhigh hcreating
    exact onUnit_when_of (by simp [hlow, hhigh]) (by simp [hcreating])
  · refine completes_of_checks _ _ (fun _ _ => rfl) ?_ (fun _ _ _ => rfl)
    rintro m s ⟨hlen, hgood, hown, hlimit, hready, hidle, hleaves, hfree, hroom, hadded⟩
    simp [hlen, hgood, hown, hlimit, hready, hidle, hleaves, hfree, hroom, hadded]
  · intro k new s hlow hhigh hresizing hnew
    refine onUnit_next.2 ⟨by simp [hlow, hhigh], ?_⟩
    rw [hnew]
    exact State.when_of (by simp [hresizing])
  · refine completes_of_checks _ _ (fun _ _ => rfl) ?_ (fun _ _ _ => rfl)
    rintro m s ⟨hlen, hside, hhigh, hzero, hlimit, hready, hidle⟩
    simp [hlen, hside, hhigh, hzero, hlimit, hready, hidle]
  · intro k s hlow hhigh hstate hnone
    exact execStageDissolved_empty hlow hhigh hstate hnone

/-- Settles O42: a report's class is known and its unit exists; the entry, record or time that a row looks for is there. -/
theorem faultEventsAct : Obligations.FaultEventsAct := by
  refine ⟨?_, fun _ => rfl, ?_, ?_, ?_, ?_, ?_, ?_, ?_⟩
  · intro c level unit stage master access address detail s hclass
    exact onUnit_next.2 ⟨hclass, rfl⟩
  · intro seq w e s hopen hack hwindow hintime
    refine congrArg Host.Outcome.next ?_
    simp [hopen, hack, hwindow, hintime]
  · intro c level unit ok r s hrecord
    refine congrArg Host.Outcome.next ?_
    simp only [hrecord]
  · intro t p k s ht hp
    exact onUnit_next.2 ⟨by simp [ht, hp], rfl⟩
  · intro t d k s ht hd
    exact onUnit_next.2 ⟨by simp [ht, hd], rfl⟩
  · intro e s hend hdue hsafe huncommanded hnone
    refine congrArg Host.Outcome.next ?_
    simp [hend, hdue, hsafe, huncommanded, hnone]
  · intro e s hend hdue hpulse
    refine ⟨_, rfl, ?_⟩
    simp [hend, hdue, hpulse]
  · intro s hmode hinterval hserved hdue
    exact congrArg Host.Outcome.next (State.when_of (by simp [hmode, hinterval, hserved, hdue]))

/-- Settles O43: each command's checks pass by the clause's conditions; an injector's state and configuration decide the branch. -/
theorem faultGroupActs : Obligations.FaultGroupActs := by
  refine ⟨completes_record _ (fun _ _ => rfl), ?_, ?_, ?_, ?_, ?_, ?_, ?_, ?_⟩
  · refine completes_of _ (fun _ _ => rfl) ?_
    rintro m s ⟨hlen, hact, hzero, htaken⟩
    exact bodyFaultAck_ack hlen hact hzero htaken
  · refine completes_of_checks _ _ (fun _ _ => rfl) ?_ (fun _ _ _ => rfl)
    rintro m s ⟨hlow, hwhole, hrecords, hquiet, hquiet', hpin, hmode, hcapture, hzero⟩
    rw [firstRefusal_eq_none, firstRefusal_eq_none]
    refine ⟨by simp [hlow, hwhole], ?_, rfl⟩
    simp [hrecords, hquiet, hquiet', hpin, hmode, hcapture, hzero]
  · refine completes_of_checks _ _ (fun _ _ => rfl) ?_ (fun _ _ _ => rfl)
    rintro m s ⟨hlen, haction, hzero⟩
    simp [hlen, haction, hzero]
  · refine completes_of_checks _ _ (fun _ _ => rfl) ?_ (fun _ _ _ => rfl)
    rintro m s ⟨hlen, hi, hcfg, hidle⟩
    simp [hlen, hi, hcfg, hidle]
  · intro i s hi hmode hidle hcfg
    refine onUnit_next.2 ⟨decide_eq_true hi, ?_⟩
    simp [hmode, hidle, hcfg]
  · intro i s hi hmode hidle hcfg
    refine onUnit_next.2 ⟨decide_eq_true hi, ?_⟩
    simp [hmode, hidle, hcfg]
  · intro i s hi hmode harmed
    refine onUnit_next.2 ⟨decide_eq_true hi, ?_⟩
    simp [hmode, harmed]
  · intro i w level unit stage master access address n s hi hclass harmed hchecker hleft
    exact execInjectorConsumed_silent hi hclass harmed hchecker hleft

end Sys2Proof
end

section
/-! SUPPORT. Laws of the time unit's edges; the statements on the time unit's events and the TIME group, settled. -/
namespace Sys2Proof.Machine
open Sys2Proof

/-- While LOCKED an edge more than 1 ms off is counted and rejected; only the third in a row has a further effect (R470). -/
theorem execPpsEdge_rejects {off f : Int} {s : State} (hsource : s.time.source = 2) (hlocked : s.time.state = 2) (hfar : 1000000 < off.natAbs)
    (hrun : s.time.rejectRun < 2) :
    execPpsEdge off f s = .next ((s.onTime (fun t => { t with rejects := t.rejects + 1, rejectRun := t.rejectRun + 1 })).bump 8 0 0xCE) := by
  have hthird : ¬ 3 ≤ s.time.rejectRun + 1 := by omega
  -- The count leaves the time unit as the rejection made it.
  exact congrArg Host.Outcome.next ((if_neg (by simp [hsource])).trans ((if_pos ⟨hlocked, hfar⟩).trans (if_neg hthird)))

/-- The checks that the operations of TIME.ADJUST share pass for 16 bytes of the operation, where the source is not PPS_TOD (R469, R476). -/
theorem firstRefusal_adjustChecks {op : Nat} {m : Msg} {s : State} (hlen : m.plen = 16) (hop : m.u8 0 = op) (hzero : m.zero 1 3 = true)
    (hfreq : op = 0 → -freqLimit ≤ m.int 4 4 ∧ m.int 4 4 ≤ freqLimit) (hsource : s.time.source ≠ 2) :
    firstRefusal (adjustChecks op m s) = none := by
  have hbound : (op == 0 && (decide (m.int 4 4 < -freqLimit) || decide (freqLimit < m.int 4 4))) = false := by
    cases op with
    | zero =>
      obtain ⟨hlow, hhigh⟩ := hfreq rfl
      rw [decide_eq_false (not_lt.2 hlow), decide_eq_false (not_lt.2 hhigh)]
      rfl
    | succ n => rfl
  simp [adjustChecks, hlen, hop, hzero, hsource, hbound]

end Sys2Proof.Machine

namespace Sys2Proof
open Sys2Proof.Machine

/-- Settles O38: the source, the state and the time make each row due. -/
theorem timeEventsAct : Obligations.TimeEventsAct := by
  refine ⟨?_, ?_, ?_, ?_, ?_, ?_, ?_, ?_, ?_⟩
  · intro off f s hsource hnear
    have htaken : ¬(s.time.state = 2 ∧ 1000000 < off.natAbs) := by omega
    exact congrArg Host.Outcome.next ((if_neg (by simp [hsource])).trans (if_neg htaken))
  · intro off f s hsource hlocked hfar hrun
    exact execPpsEdge_rejects hsource hlocked hfar hrun
  · intro e s hedge hsource hstate hlate
    refine congrArg Host.Outcome.next ?_
    simp only [hedge]
    exact if_pos (by simpa [hsource, hlate] using hstate)
  · intro s hsource hlocked hlate
    exact congrArg Host.Outcome.next (if_pos (by simp [hsource, hlocked, hlate]))
  · intro utc e s hedge hlow hhigh
    refine congrArg Host.Outcome.next ?_
    simp only [hedge]
    exact if_pos (by simp [hlow, hhigh])
  · intro s hlocked
    exact congrArg Host.Outcome.next (if_pos hlocked)
  · intro s hslew hlast
    exact congrArg Host.Outcome.next (if_pos (by simp [hslew, hlast]))
  · intro s hlow hdriven hsecond
    refine congrArg Host.Outcome.next ?_
    simp only [hlow]
    exact if_pos (by simp [hdriven, hsecond])
  · intro e s hhigh hdue
    refine congrArg Host.Outcome.next ?_
    simp only [hhigh]
    exact if_pos hdue

/-- Settles O39: each command's checks pass by the clause's conditions, and the source decides how TIME.SET acts. -/
theorem timeGroupActs : Obligations.TimeGroupActs := by
  refine ⟨completes_record _ (fun _ _ => rfl), ?_, ?_, ?_, ?_, ?_, ?_, ?_, ?_⟩
  · intro x
    refine completes_of_checks _ _ (fun _ _ => rfl) ?_ ?_
    · rintro m s ⟨hlen, hsource, hout, hwidth, hwidth', hstep, hstep', hhost, hhost', hbound, hbound', hbaud, hbaud', -⟩
      rw [firstRefusal_eq_none, firstRefusal_eq_none]
      refine ⟨by simp [hlen], ?_, rfl⟩
      have hpulse : m.u16 2 ≠ 0 := by omega
      have htimeout : m.u16 8 ≠ 0 := by omega
      simp [hsource, hout, hpulse, hwidth', hstep, hstep', htimeout, hhost', hbound, hbound', hbaud, hbaud']
    · rintro m s ⟨-, -, -, -, -, -, -, -, -, -, -, -, -, rfl⟩
      rfl
  · refine completes_of_checks _ _ (fun _ _ => rfl) ?_ ?_
    · rintro m s ⟨hlen, hzero, hns, hsource⟩
      simp [hlen, hzero, hns, hsource]
    · rintro m s ⟨-, -, -, hsource⟩
      exact congrArg done (if_neg hsource)
  · refine completes_of_checks _ _ (fun _ _ => rfl) ?_ ?_
    · rintro m s ⟨hlen, hzero, hns, -⟩
      simp [hlen, hzero, hns]
    · rintro m s ⟨-, -, -, hsource⟩
      exact congrArg done (if_pos hsource)
  · refine completes_of_checks _ _ (fun _ _ => rfl) ?_ (fun _ _ _ => rfl)
    rintro m s ⟨hlen, hop, hzero, hlow, hhigh, hsource⟩
    exact firstRefusal_adjustChecks hlen hop hzero (fun _ => ⟨hlow, hhigh⟩) hsource
  · refine completes_of_checks _ _ (fun _ _ => rfl) ?_ (fun _ _ _ => rfl)
    rintro m s ⟨hlen, hop, hzero, hsource⟩
    exact firstRefusal_adjustChecks hlen hop hzero (fun h => absurd h one_ne_zero) hsource
  · refine completes_of_checks _ _ (fun _ _ => rfl) ?_ (fun _ _ _ => rfl)
    rintro m s ⟨hlen, hop, hzero, hsource⟩
    exact firstRefusal_adjustChecks hlen hop hzero (fun h => absurd h two_ne_zero) hsource
  · refine completes_of_checks _ _ (fun _ _ => rfl) ?_ (fun _ _ _ => rfl)
    rintro m s ⟨hlen, hl, hop, hflags, howns⟩
    simp [hlen, hl, hop, hflags, howns]
  · refine completes_of_checks _ _ (fun _ _ => rfl) ?_ ?_
    · rintro m s ⟨hlen, hl, hop, hring, howns⟩
      simp [hlen, hl, hop, hring, howns]
    · rintro m s ⟨-, -, -, hring, -⟩
      simp only [hring, if_pos]

end Sys2Proof
end

section
/-! SUPPORT. Laws of a capture's end and of the commands on drives; the statements on records, captures, flows and drives, on the ledger and on the
RECORD and LIFE groups, settled. -/
namespace Sys2Proof.Machine
open Sys2Proof

/-- A capture that the drives accept, read without an uncorrectable burst, is written and told (R483, R484). -/
theorem execCaptureDone_written {k j : Nat} {s s1 : State} (hk : k < 5) (hj : j < 4) (hwriting : (s.capSession k j).state = 3)
    (hwritten : s.writeRecord k 3 (flagNat (s.capSession k j).damaged + 2 * flagNat (s.capSession k j).truncated)
      (captureBody ((s.capSession k j).before ++ (s.capSession k j).after)) = some s1) :
    execCaptureDone k j none s = .next ((s1.onCapture k j (fun c => { c with
      state := (if c.rearm then 1 else 0), before := [], after := [], truncated := false, damaged := false })).post k Ev.captureDone Lv.device j
        (leBytes 1 j ++ zeros 3 ++ leBytes 4 (s.capSession k j).before.length ++ leBytes 4 (s.capSession k j).after.length ++
          leBytes 4 (s.bookRing k 3).next ++ leBytes 2 (flagNat (s.capSession k j).damaged + 2 * flagNat (s.capSession k j).truncated) ++
          zeros 2)) := by
  refine (onUnit_when_of (by simp [hk, hj]) (by simp [hwriting])).trans ?_
  simp [hwritten]

/-- Sub-records that configure rings and flow sessions alone neither set SNAP_INTERVAL nor touch a capture session. -/
theorem recordTypes_other {recs : List (List Byte)} {t : Nat} (p : List Byte → Bool)
    (h : recs.all (fun r => fieldLE r 0 1 == 0 || fieldLE r 0 1 == 2) = true) (ht0 : t ≠ 0) (ht2 : t ≠ 2) :
    recs.any (fun r => fieldLE r 0 1 == t && p r) = false := by
  rw [List.any_eq_false]
  intro r hr hboth
  have htypes := List.all_eq_true.1 h r hr
  simp only [Bool.or_eq_true, Bool.and_eq_true, beq_iff_eq] at htypes hboth
  omega

end Sys2Proof.Machine

namespace Sys2Proof
open Sys2Proof.Machine

/-- Settles O54: the stage and the session exist, and the row's condition holds by the clause's hypotheses. -/
theorem recordEventsAct : Obligations.RecordEventsAct := by
  refine ⟨?_, ?_, ?_, ?_, ?_, ?_, ?_, ?_, ?_⟩
  · intro e rest s s1 hwaits hwritten
    refine congrArg Host.Outcome.next ?_
    simp only [State.journalStep, hwaits, hwritten]
  · intro s hset hdue
    exact congrArg Host.Outcome.next (State.when_of (by simp [hset, hdue]))
  · intro k j code s hk hj hconfigured htrigger hcode
    exact onUnit_when_of (by simp [hk, hj]) (by simpa [hconfigured, hcode] using htrigger)
  · intro k j s hk hj hcapturing hposted
    exact onUnit_when_of (by simp [hk, hj]) (by simp [hcapturing, hposted])
  · intro k j s s1 hk hj hwriting hwritten
    exact execCaptureDone_written hk hj hwriting hwritten
  · intro k j i e s hk hj hentry hidle
    refine onUnit_next.2 ⟨by simp [hk, hj], ?_⟩
    simp only [hentry]
    exact if_pos hidle
  · rintro i label pct extents serial critical s s1 hi rfl
    exact onUnit_next.2 ⟨decide_eq_true hi, rfl⟩
  · intro i s hi hpresent
    exact onUnit_when_of (decide_eq_true hi) hpresent
  · intro i pct critical s hi
    exact onUnit_next.2 ⟨decide_eq_true hi, rfl⟩

/-- Settles O55: each row is due; whether a LIFE.BACKUP waits decides how a backup is told. -/
theorem ledgerEventsAct : Obligations.LedgerEventsAct := by
  refine ⟨?_, ?_, ?_, ?_, ?_, ?_⟩
  · intro measured energy s hdue
    exact congrArg Host.Outcome.next (State.when_of (decide_eq_true hdue))
  · intro trend s hdue
    exact congrArg Host.Outcome.next (State.when_of (decide_eq_true hdue))
  · intro counts s hdue
    exact congrArg Host.Outcome.next (State.when_of (decide_eq_true hdue))
  · intro failed s hsome hnear
    exact congrArg Host.Outcome.next (State.when_of (by simp [hsome, hnear]))
  · intro o s hwaits
    exact congrArg Host.Outcome.next (if_pos (by simp [hwaits]))
  · intro s hnone hdue
    exact congrArg Host.Outcome.next ((if_neg (by simp [hnone])).trans (if_pos hdue))

/-- Settles O56: each command's checks pass by the clause's conditions; sub-records of rings and flow sessions meet none of the checks on SNAP_INTERVAL
and captures, and OP decides what RECORD.DRIVE does. -/
theorem recordAndLifeGroupsAct : Obligations.RecordAndLifeGroupsAct := by
  refine ⟨?_, ?_, ?_, completes_record _ (fun _ _ => rfl), ?_, ?_, ?_, ?_, ?_, completes_record _ (fun _ _ => rfl), ?_⟩
  · refine completes_of_checks _ _ (fun _ _ => rfl) ?_ (fun _ _ _ => rfl)
    rintro m s ⟨hsome, hwhole, hgood, htypes⟩
    have hinterval : (m.records 0 40).any (fun r => fieldLE r 0 1 == 3) = false := by
      simpa using recordTypes_other (fun _ => true) htypes (t := 3) (by decide) (by decide)
    have hcapture : (m.records 0 40).any (fun r => fieldLE r 0 1 == 1) = false := by
      simpa using recordTypes_other (fun _ => true) htypes (t := 1) (by decide) (by decide)
    have hbusy := recordTypes_other (fun r => (s.capSession (s.stageOf m) (fieldLE r 1 1)).state == 3) htypes (t := 1) (by decide) (by decide)
    simp only [firstRefusal_eq_none, hgood, hinterval, hcapture, hbusy]
    simp [hsome, hwhole]
  · refine completes_of_checks _ _ (fun _ _ => rfl) ?_ (fun _ _ _ => rfl)
    rintro m s ⟨hsome, hwhole, hgood, hinterval, hbusy, hfits⟩
    have howner : ((m.records 0 40).any (fun r => fieldLE r 0 1 == 3) && s.stageOf m != 0) = false := by
      cases hside : s.stageOf m != 0 with
      | false => exact Bool.and_false _
      | true => simpa [hside] using hinterval
    simp only [firstRefusal_eq_none, hgood, howner, hbusy, decide_eq_false (Nat.not_lt.2 hfits)]
    simp [hsome, hwhole]
  · refine completes_of_checks _ _ (fun _ _ => rfl) ?_ (fun _ _ _ => rfl)
    rintro m s ⟨hlen, hj, hzero, harmed⟩
    simp [hlen, hj, hzero, harmed]
  · refine completes_of_checks _ _ (fun _ _ => rfl) ?_ (fun _ _ _ => rfl)
    rintro m s ⟨hlen, hlow, hhigh, hraw, hpair, hzero, hdump, hlimit⟩
    have hkind : m.u8 0 ≠ 0 := by omega
    simp [hlen, hkind, hhigh, hraw, hpair, hzero, hdump, hlimit]
  · refine completes_of_checks _ _ (fun _ _ => rfl) ?_ ?_
    · rintro m s ⟨hlen, hop, hdrive, hzero, hn, hlimit, hpresent, hanswered⟩
      simp [hlen, hop, hdrive, hzero, hn, hlimit, hpresent, hanswered]
    · rintro m s ⟨-, hop, -⟩
      simp [hop]
  · refine completes_of_checks _ _ (fun _ _ => rfl) ?_ ?_
    · rintro m s ⟨hlen, hop, hdrive, hzero, hn, hlimit, hpresent, hanswered⟩
      simp [hlen, hop, hdrive, hzero, hn, hlimit, hpresent, hanswered]
    · rintro m s ⟨-, hop, -⟩
      simp [hop]
  · refine completes_of_checks _ _ (fun _ _ => rfl) ?_ ?_
    · rintro m s ⟨hlen, hop, hside, hk, hzero, hlive, hlimit, hused, hfits⟩
      have hstage : m.u8 1 ≠ 0 := by omega
      simp [hlen, hop, hstage, hk, hzero, hlive, hlimit, hused, hfits]
    · rintro m s ⟨-, hop, -⟩
      simp [hop]
  · refine completes_of_checks _ _ (fun _ _ => rfl) ?_ ?_
    · rintro m s ⟨hlen, hmask, hpair, hzero, hlimit, hfits⟩
      simp only [firstRefusal_eq_none, decide_eq_false (Nat.not_lt.2 hfits)]
      simp [hlen, hmask, hpair, hzero, hlimit]
    · rintro m s ⟨-, -, -, -, -, hfits⟩
      exact if_neg (by simpa using hfits)
  · refine completes_of_checks _ _ (fun _ _ => rfl) ?_ (fun _ _ _ => rfl)
    rintro m s ⟨hlen, hlimit⟩
    simp [hlen, hlimit]

end Sys2Proof
end

section
/-! SUPPORT. Laws of the supply's bands and of a rail's steps; the statements on power events, modules and snapshots, settled. -/
namespace Sys2Proof.Machine
open Sys2Proof

/-- With VIN between UVLO and OVP, outside DARK and LOAD, the band follows it and the budget is computed again (R494, R497). -/
theorem execVinBand_inRange {vin : Nat} {s : State} (hlow : 4400 ≤ vin) (hhigh : vin ≤ 20500) (hmode : 2 ≤ s.cmd.mode) :
    execVinBand vin s = .next (((s.vinInRange vin).postBands s.power.band (bandAfter s.power.band vin) vin).recompute) := by
  have haon : ¬ vin < 2900 := by omega
  have hdark : s.cmd.mode ≠ Md.dark := Nat.ne_of_gt (Nat.lt_of_lt_of_le (by decide) hmode)
  have hload : s.cmd.mode ≠ Md.load := Nat.ne_of_gt (Nat.lt_of_lt_of_le (by decide) hmode)
  exact congrArg Host.Outcome.next ((if_neg haon).trans ((if_neg (Nat.not_lt.2 hlow)).trans ((if_neg (Nat.not_lt.2 hhigh)).trans
    ((if_neg hdark).trans (if_neg hload)))))

/-- A rail with room above rises one step of 5 mV (R499). -/
theorem execAvsStep_up {die : Nat} {s : State} (hdie : die < 11) (hroom : (s.avsOf die).mv + 5 ≤ (s.avsOf die).hi) :
    execAvsStep die true s = .next (s.onPower (fun p => { p with
      avs := SMap.put Avs.reset die { s.avsOf die with mv := (s.avsOf die).mv + 5 } p.avs })) := by
  refine onUnit_next.2 ⟨decide_eq_true hdie, ?_⟩
  simp [Nat.not_lt.2 hroom]

/-- A rail without room below pins at its lower bound, and a new episode is told (R499, R505). -/
theorem execAvsStep_pins {die : Nat} {s : State} (hdie : die < 11) (hbound : (s.avsOf die).mv < (s.avsOf die).lo + 5)
    (hnew : loopEpisodeNew (s.avsOf die).pinned s.now = true) :
    execAvsStep die false s = .next ((s.onPower (fun p => { p with
      avs := SMap.put Avs.reset die { s.avsOf die with mv := (s.avsOf die).lo, pinned := some s.now } p.avs })).post 0 Ev.loopAtLimit Lv.die die
        (loopPayload 0 die 0)) := by
  refine onUnit_next.2 ⟨decide_eq_true hdie, ?_⟩
  simp [hbound, hnew, flagNat]

/-- A module whose data paths are up, in a port that is admitted, is ready, and the port's sub-ports train (R525). -/
theorem execModuleReady_admitted {c p : Nat} {s : State} (hc : c < 48) (hstate : (s.module c).state = 3) (hstep : (s.module c).step = 7)
    (hport : s.portOfCage c = some p)
    (hadmitted : ((s.onModule c (fun m => { m with state := 4, step := 8, since := s.now })).postModule p Ev.moduleReady p
      (leBytes 1 p ++ leBytes 1 c ++ zeros 2)).portAdmitted p = true) :
    execModuleReady c s = .next (forEach (lportsOf p) (fun l s => if (s.lport l).oper = 0 then s.trainLport l else s)
      ((s.onModule c (fun m => { m with state := 4, step := 8, since := s.now })).postModule p Ev.moduleReady p
        (leBytes 1 p ++ leBytes 1 c ++ zeros 2))) := by
  refine (onUnit_when_of (decide_eq_true hc) (by simp [hstate, hstep])).trans (congrArg Host.Outcome.next ?_)
  rw [hport]
  exact if_pos hadmitted

end Sys2Proof.Machine

namespace Sys2Proof
open Sys2Proof.Machine

/-- Settles O40: VIN's range, the current's, the rail's window and the mode decide each branch, and what waits is due. -/
theorem powerEventsAct : Obligations.PowerEventsAct := by
  refine ⟨?_, ?_, ?_, ?_, ?_, ?_, ?_, ?_, fun _ => rfl, ?_, ?_, ?_, ?_⟩
  · intro vin s hoff
    exact congrArg Host.Outcome.next (if_pos hoff)
  · intro vin s hon hunder
    exact congrArg Host.Outcome.next ((if_neg (Nat.not_lt.2 hon)).trans (if_pos hunder))
  · intro vin s hover
    have haon : ¬ vin < 2900 := by omega
    have huvlo : ¬ vin < 4400 := by omega
    exact congrArg Host.Outcome.next ((if_neg haon).trans ((if_neg huvlo).trans (if_pos hover)))
  · intro vin s hlow hhigh hmode
    exact execVinBand_inRange hlow hhigh hmode
  · intro iin s hover hwaited
    exact congrArg Host.Outcome.next (if_neg (by simp [hover, hwaited]))
  · intro iin s htaken hunder hwaited
    exact congrArg Host.Outcome.next (if_neg (by simp [htaken, hunder, hwaited]))
  · intro die s hdie hroom
    exact execAvsStep_up hdie hroom
  · intro die s hdie hbound hnew
    exact execAvsStep_pins hdie hbound hnew
  · rintro die tj s s1 s2 hdie rfl rfl
    exact onUnit_next.2 ⟨decide_eq_true hdie, rfl⟩
  · intro die s hdie hlit
    exact onUnit_next.2 ⟨decide_eq_true hdie, if_neg hlit⟩
  · intro t s hdark htrip huvlo hovp hfew hcool hdue
    exact congrArg Host.Outcome.next (if_pos (by simp [hdark, htrip, huvlo, hovp, hfew, hcool, hdue]))
  · intro ns taken s hlong hlit
    have hpulse : ¬ ns < 200 := by omega
    exact congrArg Host.Outcome.next ((if_neg (by simp [hpulse, Nat.not_lt.2 hlong])).trans (if_neg hlit))

/-- Settles O17: the cage exists and its module is in the state and step that the clause gives. -/
theorem moduleEventsAct : Obligations.ModuleEventsAct := by
  refine ⟨?_, ?_, ?_, ?_, ?_, ?_, ?_, ?_, ?_, ?_, ?_⟩
  · intro c s hc hempty hmode
    exact (onUnit_when_of (decide_eq_true hc) (by simp [hempty])).trans (congrArg Host.Outcome.next (if_neg (Nat.not_le.2 hmode)))
  · intro c s hc hstate hstep hdue
    exact onUnit_when_of (decide_eq_true hc) (by simp [hstate, hstep, hdue])
  · rintro c p identifier cmis vendor part serial firmware power apps up dp s s1 s2 hc hstate hstep hport rfl rfl
    refine (onUnit_when_of (decide_eq_true hc) (by simp [hstate, hstep])).trans ?_
    simp only [hport, Bool.not_eq_true']
  · intro c s hc hstate hstep
    exact onUnit_when_of (decide_eq_true hc) (by simp [hstate, hstep])
  · intro c p s hc hstate hstep hport hadmitted
    exact execModuleReady_admitted hc hstate hstep hport hadmitted
  · intro c n s hc hlimit hlate
    refine onUnit_next.2 ⟨decide_eq_true hc, ?_⟩
    rw [hlimit]
    exact if_pos hlate
  · intro c alarm s hc hstate
    refine onUnit_next.2 ⟨decide_eq_true hc, ?_⟩
    exact if_pos (by simpa [or_assoc] using hstate)
  · intro c serial temp f a i s hc hstate hid hserial
    refine onUnit_next.2 ⟨decide_eq_true hc, ?_⟩
    have hup : ¬((s.module c).state = 0 ∨ (s.module c).state = 1) := by omega
    simp [hup, hid, hserial]
  · intro c serial temp f a s hc hstate
    have hup : ¬((s.module c).state = 0 ∨ (s.module c).state = 1) := by omega
    exact onUnit_next.2 ⟨decide_eq_true hc, (if_neg hup).trans (if_pos rfl)⟩
  · intro c s hc hseated hmode
    exact (onUnit_when_of (decide_eq_true hc) (by simp [hseated])).trans (congrArg Host.Outcome.next (if_neg (Nat.not_le.2 hmode)))
  · intro bus s hbus
    exact onUnit_next.2 ⟨decide_eq_true hbus, rfl⟩

/-- Settles O18: each command's checks pass by the clause's conditions, and the port has its cage. -/
theorem moduleCommandsAct : Obligations.ModuleCommandsAct := by
  refine ⟨?_, ?_, ?_, ?_, ?_⟩
  · refine completes_of_checks _ _ (fun _ _ => rfl) ?_ ?_
    · rintro m s ⟨hlen, hport, hzero, howns⟩
      simp [hlen, hport, hzero, howns]
    · rintro m s ⟨-, hport, -, -⟩
      have hone : m.u8 0 ≠ 0xFF := by omega
      simp [hone]
  · refine completes_of_checks _ _ (fun _ _ => rfl) ?_ ?_
    · rintro m s ⟨hlen, hall, hzero⟩
      simp [hlen, hall, hzero]
    · rintro m s ⟨-, hall, -⟩
      simp only [hall, if_pos]
  · intro bs
    refine completes_of_checks _ _ (fun _ _ => rfl) ?_ ?_
    · rintro m s ⟨hlen, hport, hsome, hmost, hfits, hzero, hlimit, howns, hreach, hext⟩
      have hcount : m.u8 4 ≠ 0 := by omega
      simp [hlen, hport, hcount, hmost, hfits, hzero, hlimit, howns, hreach, hext]
    · rintro m s ⟨-, -, -, -, -, -, -, -, -, hext⟩
      simp only [hext, Option.getD_some]
  · intro c
    refine completes_of_checks _ _ (fun _ _ => rfl) ?_ ?_
    · rintro m s ⟨hlen, hport, hsome, hmost, hfits, hzero, hlimit, howns, hpage, hupper, hreach, hext, -⟩
      have hcount : m.u8 4 ≠ 0 := by omega
      simpa [hlen, hport, hcount, hmost, hfits, hzero, hlimit, howns, hupper, hreach, hext, or_iff_not_imp_left] using hpage
    · rintro m s ⟨-, -, -, -, -, -, -, -, -, -, -, -, hcage⟩
      simp only [hcage]
  · intro c
    refine completes_of_checks _ _ (fun _ _ => rfl) ?_ ?_
    · rintro m s ⟨hlen, hport, hzero, hlimit, howns, hcage, hseated, hentry⟩
      simp [hlen, hport, hzero, hlimit, howns, hcage, hseated, hentry]
    · rintro m s ⟨-, -, -, -, -, hcage, -, -⟩
      simp only [hcage]

/-- Settles O45: a request finds no edge fixed; an edge, a copy's end and a pin's end are due, and bank 0 is the one that no pin holds. -/
theorem snapshotsAct : Obligations.SnapshotsAct := by
  refine ⟨?_, ?_, ?_, ?_, ?_⟩
  · intro v s hbit hnone
    refine ⟨_, congrArg Host.Outcome.next (if_pos hbit), ?_⟩
    simp [State.requestSnapshot, hnone]
  · intro d s hedge hdue hidle hbank
    refine ⟨_, rfl, ?_⟩
    simp [hedge, hdue, hidle, hbank]
  · intro d s hend hdue
    refine congrArg Host.Outcome.next ?_
    rw [hend]
    exact if_pos hdue
  · intro b s hnewest
    refine congrArg Host.Outcome.next ?_
    rw [hnewest]
  · intro b e s hpin hdue
    refine congrArg Host.Outcome.next ?_
    rw [hpin]
    exact if_pos hdue

end Sys2Proof
end

section
/-! SUPPORT. What BAR0's blocks hold at the offsets that the manual does not list; the statement on unlisted addresses, settled. -/
namespace Sys2Proof.Machine
open Sys2Proof

/-- A DWORD outside the listed ranges of every block: what is left of each block's addresses. -/
structure Unlisted (a : Nat) : Prop where
  dev : 0x28 ≤ a
  pws : 0x10000 ≤ a → 0x10024 ≤ a ∧ a ≠ 0x10040
  mbxArea : 0x100000 ≤ a ∧ a < 0x200000 → 0x12000 ≤ a % 0x20000
  mbxReg : 0x100000 ≤ a ∧ a < 0x200000 → 0x1F000 ≤ a % 0x20000 → 0x1F024 ≤ a % 0x20000
  rng : 0x200000 ≤ a ∧ a < 0x240000 → 0x30 ≤ a % 0x1000
  irqTable : 0x300000 ≤ a → 0x300400 ≤ a
  irqPending : 0x300800 ≤ a → 0x300808 ≤ a
  irqSource : 0x301000 ≤ a → 0x301400 ≤ a
  flt : 0x400000 ≤ a → 0x400088 ≤ a
  fltCount : 0x401000 ≤ a → 0x402000 ≤ a
  pmc : 0x500000 ≤ a → 0x500014 ≤ a
  pmcEvent : 0x510000 ≤ a ∧ a < 0x558000 → 0x5000 ≤ a % 0x8000 ∨ 0x800 ≤ a % 0x1000
  tim : 0x600000 ≤ a → 0x600018 ≤ a
  pool : 0x700000 ≤ a → 0x700014 ≤ a
  stw : 0x800000 ≤ a ∧ a < 0x8C0000 → 0x30000 ≤ a % 0x40000 ∨ 0x180 ≤ a % 0x200
  diag : 0x900000 ≤ a → 0x900024 ≤ a
  ucs : 0xA00000 ≤ a → 0xA08008 ≤ a
  inj : 0xB00000 ≤ a ∧ a < 0xB00200 → 0x18 ≤ a % 32

theorem unlisted_of_not_barListed {a : Nat} (h : barListed a = false) : Unlisted a := by
  simp only [barListed, Bool.or_eq_false_iff, Bool.and_eq_false_iff, decide_eq_false_iff_not, beq_eq_false_iff_ne] at h
  constructor <;> omega

/-! ### The blocks' reserved offsets -/

theorem devReg_reserved (s : State) {o : Nat} (h : 0x28 ≤ o) : devReg s o = 0 := by
  unfold devReg
  repeat rw [if_neg (by omega)]

theorem pwsReg_reserved (s : State) {o : Nat} (h : 0x24 ≤ o) (h' : o ≠ 0x40) : pwsReg s o = 0 := by
  unfold pwsReg
  rw [if_neg (Nat.not_lt.2 h), if_neg (fun hc => h' hc.1)]

theorem ringReg_reserved (s : State) (p : Nat) {o : Nat} (h : 0x30 ≤ o) : ringReg s p o = 0 := by
  unfold ringReg
  dsimp only
  repeat rw [if_neg (by omega)]

theorem irqReg_reserved (s : State) {o : Nat} (h : 0x400 ≤ o) (h' : 0x800 ≤ o → 0x808 ≤ o) (h'' : 0x1000 ≤ o → 0x1400 ≤ o) : irqReg s o = 0 := by
  unfold irqReg
  repeat rw [if_neg (by omega)]

theorem fltReg_reserved (s : State) {o : Nat} (h : 0x88 ≤ o) (h' : 0x1000 ≤ o → 0x2000 ≤ o) : fltReg s o = 0 := by
  unfold fltReg
  dsimp only
  repeat rw [if_neg (by omega)]

/-- The event window has no page for a stage above 4 and no counter above 0xFF (R558). -/
theorem windowEvent_reserved (s : State) {t k e : Nat} (h : 4 < k ∨ 0xFF < e) : windowEvent s t k e = 0 :=
  if_pos (by simpa [or_assoc] using .inr h)

theorem pmcReg_reserved (s : State) {o : Nat} (h : 0x14 ≤ o)
    (h' : 0x10000 ≤ o ∧ o < 0x58000 → 4 < (o - 0x10000) / 0x1000 % 8 ∨ 0xFF < (o - 0x10000) % 0x1000 / 8) : pmcReg s o = 0 := by
  unfold pmcReg
  dsimp only
  iterate 4 rw [if_neg (by omega)]
  split
  · next hw => simp [windowEvent_reserved s (h' hw)]
  · rfl

theorem timReg_reserved (s : State) {o : Nat} (h : 0x18 ≤ o) : timReg s o = 0 := by
  unfold timReg
  repeat rw [if_neg (by omega)]

theorem poolReg_reserved (s : State) {o : Nat} (h : 0x14 ≤ o) : poolReg s o = 0 := by
  unfold poolReg
  repeat rw [if_neg (by omega)]

/-- The statistics views have no lport above 383 and no statistic above 47 (R559). -/
theorem stwReg_reserved (s : State) {o : Nat} (h : 383 < o % 0x40000 / 0x200 ∨ 47 < o % 0x200 / 8) : stwReg s o = 0 := by
  unfold stwReg
  dsimp only
  rw [if_pos h, Nat.zero_div, Nat.zero_mod, ite_self]

theorem diagReg_reserved (s : State) {o : Nat} (h : 0x24 ≤ o) : diagReg s o = 0 := by
  unfold diagReg
  repeat rw [if_neg (by omega)]

theorem ucsReg_reserved (s : State) {o : Nat} (h : 0x8008 ≤ o) : ucsReg s o = 0 := by
  unfold ucsReg
  dsimp only
  repeat rw [if_neg (by omega)]

theorem injReg_reserved (s : State) {o : Nat} (h : 0x18 ≤ o % 32) : injReg s o = 0 := by
  unfold injReg
  dsimp only
  repeat rw [if_neg (by omega)]

/-- The reserved 52 KiB of a mailbox and the offsets above its registers hold zero (R381, R382). -/
theorem State.readMbByte_reserved (s : State) (r : Nat) {off : Nat} (h : 0x12000 ≤ off) (h' : 0x1F000 ≤ off → 0x1F024 ≤ off) :
    s.readMbByte r off = 0 := by
  unfold State.readMbByte
  split
  · rfl
  · have hreg : mbRegRead (s.mb r) s.now ((off - 0x1F000) / 4 * 4) = 0 := by
      unfold mbRegRead
      repeat rw [if_neg (by omega)]
    rw [if_neg (by omega), hreg, Nat.zero_div]
    rfl

/-! ### Reads and writes of what is not listed (R547) -/

/-- A mailbox holds zero in every byte of such a DWORD. -/
theorem State.readMbByte_unlisted (s : State) {a i : Nat} (halign : a % 4 = 0) (h : Unlisted a) (hmbx : 0x100000 ≤ a ∧ a < 0x200000) (hi : i < 4) :
    s.readMbByte ((a - 0x100000) / 0x20000) (a % 0x20000 / 4 * 4 + i) = 0 := by
  have harea := h.mbxArea hmbx
  have hreg := h.mbxReg hmbx
  exact s.readMbByte_reserved _ (by omega) (by omega)

theorem State.regAt_unlisted (s : State) {a : Nat} (halign : a % 4 = 0) (h : Unlisted a) : s.regAt a = 0 := by
  have hbyte := fun i => s.readMbByte_unlisted (i := i) halign h
  obtain ⟨hdev, hpws, -, -, hrng, hirq, hpending, hsource, hflt, hcount, hpmc, hevent, htim, hpool, hstw, hdiag, hucs, hinj⟩ := h
  unfold State.regAt
  refine ite_eq_iff'.2 ⟨fun _ => devReg_reserved s hdev, fun _ => ?_⟩
  refine ite_eq_iff'.2 ⟨fun _ => pwsReg_reserved s (by omega) (by omega), fun _ => ?_⟩
  refine ite_eq_iff'.2 ⟨fun hmbx => ?_, fun _ => ?_⟩
  · have hfirst := hbyte 0 hmbx (by decide)
    rw [Nat.add_zero] at hfirst
    simp [range, hfirst, hbyte _ hmbx, leNat]
  refine ite_eq_iff'.2 ⟨fun hblock => ringReg_reserved s _ (hrng hblock), fun _ => ?_⟩
  refine ite_eq_iff'.2 ⟨fun _ => irqReg_reserved s (by omega) (by omega) (by omega), fun _ => ?_⟩
  refine ite_eq_iff'.2 ⟨fun _ => fltReg_reserved s (by omega) (by omega), fun _ => ?_⟩
  refine ite_eq_iff'.2 ⟨fun _ => pmcReg_reserved s (by omega) (by omega), fun _ => ?_⟩
  refine ite_eq_iff'.2 ⟨fun _ => timReg_reserved s (by omega), fun _ => ?_⟩
  refine ite_eq_iff'.2 ⟨fun _ => poolReg_reserved s (by omega), fun _ => ?_⟩
  refine ite_eq_iff'.2 ⟨fun _ => stwReg_reserved s (by omega), fun _ => ?_⟩
  refine ite_eq_iff'.2 ⟨fun _ => diagReg_reserved s (by omega), fun _ => ?_⟩
  refine ite_eq_iff'.2 ⟨fun _ => ucsReg_reserved s (by omega), fun _ => ?_⟩
  exact ite_eq_iff'.2 ⟨fun _ => injReg_reserved s (by omega), fun _ => rfl⟩

theorem latchedAt_unlisted {a : Nat} (h : Unlisted a) : latchedAt a = none := by
  have hdev := h.dev
  have hpws := h.pws
  have hflt := h.flt
  have htim := h.tim
  have hpmc := h.pmc
  have hevent := h.pmcEvent
  have hstw := h.stw
  unfold latchedAt
  repeat rw [if_neg (by omega)]

theorem State.writeRing_reserved (s : State) (p v : Nat) {o : Nat} (h : 0x30 ≤ o) : s.writeRing p o v = s := by
  unfold State.writeRing
  dsimp only
  repeat rw [if_neg (by omega)]

theorem State.writeIrq_reserved (s : State) (v : Nat) {o : Nat} (h : 0x400 ≤ o) (h' : 0x1000 ≤ o → 0x1400 ≤ o) : s.writeIrq o v = s := by
  unfold State.writeIrq
  repeat rw [if_neg (by omega)]

/-- Above its command areas a mailbox takes no byte that the host writes (R381). -/
theorem State.writeArea_reserved (s : State) (r : Nat) (v : Byte) {off : Nat} (h : 0x12000 ≤ off) : s.writeArea r off v = s := by
  have hcmd : ¬ off < 0x4000 := by omega
  have hucmd : ¬ off < 0x11000 := by omega
  simp [State.writeArea, hcmd, hucmd]

theorem State.writeReg_unlisted (s : State) (v : Nat) {a : Nat} (h : Unlisted a) : s.writeReg a v = s := by
  obtain ⟨hdev, -, -, hmbx, hrng, hirq, -, hsource, -, -, hpmc, -, -, -, -, hdiag, hucs, hinj⟩ := h
  unfold State.writeReg
  rw [if_neg (by omega)]
  refine ite_eq_iff'.2 ⟨fun _ => if_neg (by omega), fun _ => ?_⟩
  refine ite_eq_iff'.2 ⟨fun hblock => s.writeRing_reserved _ v (hrng hblock), fun _ => ?_⟩
  refine ite_eq_iff'.2 ⟨fun _ => s.writeIrq_reserved v (by omega) (by omega), fun _ => ?_⟩
  repeat rw [if_neg (by omega)]

theorem State.hostRead_unlisted (s : State) {addr : Nat} (h : Unlisted (addr / 4 * 4)) : s.hostRead addr = s.returns 0 := by
  cases hopen : s.blockOpen (addr / 4 * 4) with
  | false => exact State.hostRead_closed hopen
  | true => rw [State.hostRead_unlatched hopen (latchedAt_unlisted h), s.regAt_unlisted (by omega) h]

theorem execRegisterWrite_unlisted (s : State) (v be : Nat) {addr : Nat} (h : Unlisted (addr / 4 * 4)) :
    execRegisterWrite addr v be s = .next s := by
  refine congrArg Host.Outcome.next (State.when_keeps (P := fun t => t = s) rfl (ite_eq_iff'.2 ⟨fun harea => ?_, fun _ => ?_⟩))
  · obtain ⟨hlow, hhigh, -⟩ := harea
    have hreserved := h.mbxArea ⟨hlow, hhigh⟩
    -- No byte of the DWORD lies in a command area.
    refine forEach_keeps (P := fun t => t = s) ?_ _ s rfl
    rintro i t rfl
    exact ite_eq_iff'.2 ⟨fun _ => State.writeArea_reserved _ _ _ (by omega), fun _ => rfl⟩
  · exact ite_eq_iff'.2 ⟨fun _ => s.writeReg_unlisted _ h, fun _ => rfl⟩

end Sys2Proof.Machine

namespace Sys2Proof
open Sys2Proof.Machine

/-- Settles O57: at such an address the register is zero and no latch covers it, and a write reaches neither an area nor a register. -/
theorem unlistedAddressesDoNothing : Obligations.UnlistedAddressesDoNothing := fun _ v be s h =>
  have hranges := unlisted_of_not_barListed h
  ⟨congrArg Host.Outcome.next (s.hostRead_unlisted hranges), execRegisterWrite_unlisted s v be hranges⟩

end Sys2Proof
end
